-- ==== Sys2Proof/Word.lean ====
section
/-!
DEFINITION. Sys2Proof/Word.lean: the word types of the register space (00_scope.md, Registers: 32-bit registers,
little-endian bytes) and the module's time unit (R9: one tick is 2^-24 s).
-/
namespace Sys2Proof

/-- A register value (00_scope.md: register space uses 32-bit registers). -/
abbrev Word := BitVec 32

/-- The smallest unit of memory, media and flash. -/
abbrev Byte := BitVec 8

/-- Stamp time in ticks of 2^-24 s since 2000-01-01T00:00:00 TAI (R9). -/
abbrev Ticks := Nat

end Sys2Proof
end

