-- ==== Sys2Proof/Syntax.lean ====
section
/-!
DEFINITION. Sys2Proof/Syntax.lean: the commands of the module: one constructor of Instr per row of spec/opcode_table.json, in
the table's order, and the operand types. What stands outside the module (the media, the HDAs, the network, the feeds, the
flash) reaches it only through operands.
-/
namespace Sys2Proof

/-- Actuators A00-A47 (00_scope.md). -/
abbrev ActId := Fin 48
/-- HDA ports H00-H23. -/
abbrev PortId := Fin 24
/-- Host Ethernet ports P0-P3. -/
abbrev HostId := Fin 4
/-- Decode lanes 0-23. -/
abbrev LaneId := Fin 24
/-- Mover channels 0-31. -/
abbrev ChanId := Fin 32
/-- Pool segments of 1 MiB, 0-65,535 (R251). -/
abbrev SegId := Nat

/-- The two feeds. -/
inductive Feed
  | a | b
  deriving DecidableEq, Repr

/-- The paths of R25 by which a register access can arrive. -/
inductive Path
  | teller (n : Fin 16)
  | bursar
  | window (h : HostId)
  | mi
  | loader
  deriving DecidableEq, Repr

/-- A loop-engine instance (R140): 48 actuator loops and 24 spindle loops. -/
inductive LeId
  | act (a : ActId)
  | spin (n : PortId)
  deriving DecidableEq, Repr

/-- What the feed and bus monitors measure (PWR_FEEDA_MON, PWR_FEEDB_MON, PWR_IB_MON): voltages in mV, currents in mA. -/
structure Monitors where
  aMv : Nat
  aMa : Nat
  bMv : Nat
  bMa : Nat
  busMv : Nat
  standbyMv : Nat
  deriving DecidableEq, Repr

/-- The two reader paths of a head link (R38). -/
inductive ReaderPath
  | primary | check
  deriving DecidableEq, Repr

/-- What a reader path samples of one sector, from the first preamble bit where servo timing predicts it: the ADC code of each bit, each
bit's timing in 1/64 bit against the sampling clock, and the servo wedges that split the field as (first sample, samples) (R91-R93). -/
structure SectorIn where
  codes : List Int
  timing : List Int
  wedges : List (Nat × Nat)
  deriving DecidableEq, Repr

/-- An access to an on-die memory that meets an error: the word address presented, the word that the array reaches, and the bits of the
72-bit word that have flipped (R395-R397). -/
structure MemErr where
  addr : Nat
  reached : Nat
  flips : List Nat
  deriving DecidableEq, Repr

/-- A read frame of a preamplifier register and, where its CHECK failed, its repeat (R77): the value returned, or none where CHECK was
wrong. -/
structure ReadTry where
  first : Option (BitVec 16)
  second : Option (BitVec 16)
  deriving DecidableEq, Repr

/-- What a preamplifier answers in Powering (R84): PRE_IDENT and PRE_STATUS. -/
structure PreampRead where
  ident : ReadTry
  status : ReadTry
  deriving DecidableEq, Repr

/-- One servo wedge as the reader sees it (R120-R125): the mark candidates (ns since the previous wedge's mark, or since its predicted
place where none was found; the 8 symbols read there) in increasing order, the 22 track-field cells, the three intervals in 1/8 channel
bit, and whether the loop engine is still at the previous sample when this one is ready (R142). -/
structure Wedge where
  marks : List (Nat × BitVec 8)
  track : BitVec 22
  tF : Nat
  tRef : Nat
  tK : Nat
  overrun : Bool
  deriving DecidableEq, Repr

/-- What a loop-engine instance finds at a sample of the motor timer (R133, R166): the VCM's voltage in mV and current in mA, and the
readings of the shunt converter since the previous sample, oldest first, each with its time in ticks and in mA. -/
structure LoopIn where
  vcmMv : Int
  vcmMa : Int
  shunt : List (Nat × Nat)
  deriving DecidableEq, Repr

/-- What the crossing comparators show of a rotor (R171): the largest line-to-line voltage, the crossings seen, their order
(forward, backward or none), the speed and the largest deviation of an interval from the mean, in percent; of the last crossing, the
floating phase (0 U, 1 V, 2 W), whether its back-EMF rises, and the time in ticks. -/
structure Rotor where
  emfMv : Nat
  crossings : Nat
  order : Option Bool
  rpm : Nat
  spreadPct : Nat
  phase : Fin 3
  rising : Bool
  lastAt : Nat
  deriving DecidableEq, Repr

/-- A reach of the shelf: the actuator and the reach number on it (R204). -/
structure ReachId where
  act : ActId
  reach : Nat
  deriving DecidableEq, Repr

/-- What a read of slot 0 gives (R222). -/
inductive SlotData
  | syncFail
  | unreadable
  | header (bytes : List Byte)
  deriving DecidableEq, Repr

/-- One reach as an inventory finds it (R222, R223): its actuator (lower or upper), slot 0, whether a closing journal was
found, and the last written slot. -/
structure SlotZero where
  lower : Bool
  reach : Nat
  slot0 : SlotData
  closing : Bool
  lastSlot : Nat
  deriving DecidableEq, Repr

/-- Where a cell lies: actuator, reach, first slot. -/
structure CellPlace where
  act : Nat
  reach : Nat
  slot : Nat
  deriving DecidableEq, Repr

/-- What an audit reads of an object's members (R243): the cells that read otherwise than they were written, as (stripe, member, bytes), and
the sector positions that are lost under R237, as (stripe, member, sector). -/
structure AuditRead where
  cells : List (Nat × Nat × List Byte)
  lost : List (Nat × Nat × Nat)
  deriving DecidableEq, Repr

/-- One access to a Pool codeword (R245-R247): its address, a write's byte enables and bytes, the bits that flip in the
144-bit codeword, and the address that the devices reach. -/
structure PoolAcc where
  addr : Nat
  write : Bool
  enable : Nat
  data : List Byte
  flips : List Nat
  reached : Nat
  deriving DecidableEq, Repr

/-- The submission of a command: port, queue (0 is the admin queue), command identifier. -/
structure Sqe where
  port : HostId
  qid : Nat
  cid : Nat
  deriving DecidableEq, Repr

/-- The key fields of a Key Value command: namespace, key length as given, key bytes. -/
structure KvKey where
  nsid : Nat
  len : Nat
  bytes : List Byte
  deriving DecidableEq, Repr

/-- The Store options of R296. -/
structure StoreOpts where
  overwriteOnly : Bool
  noOverwrite : Bool
  compress : Bool
  deriving DecidableEq, Repr

/-- One firmware package slot as the loader reads it (R420, R421): whether MAGIC, PART, CRC and signature pass, its VERSION,
its activation block's words, and the control-store words it holds (offset in a control store, value). -/
structure FwSlot where
  pass : Bool
  version : List Byte
  values : List Nat
  stores : List (Nat × Nat)
  deriving DecidableEq, Repr

/-- The configuration flash as the loader finds it (R353): whether it meets R353, its size, both copies, both packages. -/
structure Flash where
  meets : Bool
  sizeMib : Nat
  copy0 : List Byte
  copy1 : List Byte
  fw1 : FwSlot
  fw2 : FwSlot
  deriving DecidableEq, Repr

/-- One second of a PTP port (R338): whether it is in state SLAVE, the grandmaster's clockClass, whether the PTP timescale is in use, the
offsets of the second in 2^-24 s, the currentUtcOffset while it is valid. -/
structure PtpSecond where
  slave : Bool
  clockClass : Nat
  ptpScale : Bool
  offsets : List Int
  utcOffset : Option Nat
  deriving DecidableEq, Repr

/-- A meter channel at an interval's end (R342, R343): its energy in mJ, and its power in 10 mW units: the mean of the last second, the value
now, and the highest of the interval. -/
structure ChanMeter where
  mJ : Nat
  mean : Nat
  present : Nat
  peak : Nat
  deriving DecidableEq, Repr

/-- A tile that an authorised facility has put in (R350): its serial number, the time and the sealed parameters that the facility has set, its
cell's voltage, its software. -/
structure NewTile where
  serial : Nat
  time : Nat
  intervalS : Nat
  stepAfterH : Nat
  taiUtc : Nat
  cellMv : Nat
  version : Nat
  crc : Nat
  deriving DecidableEq, Repr

/-- One event of an object on forerunner media (R324): KIND, span length, span offset, its full stamp (time, source, sequence), commit. -/
structure ForeignEvent where
  kind : Nat
  len : Nat
  offset : Nat
  time : Nat
  src : Nat
  seq : Nat
  commit : Nat
  deriving DecidableEq, Repr

/-- An object that the journals and the provenance sectors of Foreign reaches give (R332): number, namespace, key, size, hash, events, and its
value where the Foreign members and the read-around give it. -/
structure ForeignObj where
  num : Nat
  ns : Nat
  key : List Byte
  size : Nat
  hash : List Byte
  events : List ForeignEvent
  value : Option (List Byte)
  deriving DecidableEq, Repr

/-- The clocked domains of R377. -/
inductive Domain
  | host (h : HostId) | mgmt | ddr | nand | act (a : ActId) | motor | lowSpeed
  deriving DecidableEq, Repr

/-- The dual-rail sources of R389, in the order of RST_GRAVE. -/
inductive RailSource
  | motion | assay | feeds | loader | fabric
  deriving DecidableEq, Repr

/-- Why the Reservoir leaves service (R282): a die has failed, no band can be formed, the map journal cannot be programmed. -/
inductive RsvCause
  | die (d : Fin 64)
  | band
  | journal
  deriving DecidableEq, Repr

/-- The blocks and instances that have a fault register set (R380). -/
inductive Block
  | identity | reset | power | fabric | sluice | port (n : PortId) | act (a : ActId) | decode | stripe | ledger | pool
  | mover | reservoir | host (h : HostId) | queue | daybook | bursar | assay | loader
  deriving DecidableEq, Repr

/-- One hour of the temperature history (R419). -/
structure TempHour where
  dieMax : Int
  dieMin : Int
  rsvMax : Int
  hdaMax : Int
  hdaMin : Int
  humidity : Nat
  hottest : Nat
  minutes : Nat
  deriving DecidableEq, Repr

/-- The admin commands that NVMe-MI can tunnel (R403), and any other opcode. -/
inductive Tunnelled
  | identify (cns csi nsid : Nat)
  | getLog (lid lsp offset len : Nat)
  | getFeatures (fid : Nat)
  | other (opcode : Nat)
  deriving DecidableEq, Repr

/-- Frames that a port may answer outside TCP (R286, R406). -/
inductive NetFrame
  | arp | ndp | icmpEcho | other
  deriving DecidableEq, Repr

/-- The commands, in the order of the opcode table. -/
inductive Instr
  | blockRegisterWrite (p : Path) (addr : Nat) (v : Word)
  | latchingLowHalfRead (p : Path) (addr : Nat)
  | stampTakeLoRead (p : Path)
  | feedGood (f : Feed)
  | feedNotGood (f : Feed)
  | converterConditionHeld (activeMv standbyMv : Nat)
  | busUndervoltage (busMv standbyMv : Nat)
  | switchOverGapEnd (busMv : Nat)
  | forceSwap (p : Path)
  | pwrIbSetWrite (p : Path) (v : Word)
  | powerDown
  | failedMarkClear (f : Feed)
  | holdupCharged (capUf : Option Nat)
  | feedExerciseDue
  | exerciseWindowEnd
  | exerciseRetry
  | paceUpdate (rings : List Nat)
  | governorEvaluation (measMv : Nat)
  | fabGovCtlWrite (p : Path) (v : Word)
  | readCut (a : ActId)
  | writeCut (a : ActId)
  | receiveWindowShrink (h : HostId)
  | rxFrameDrop (h : HostId)
  | preampFrameDone (a : ActId) (data : BitVec 16) (check : BitVec 8)
  | hlxFltNFall (a : ActId) (status : ReadTry) (stillLow : Bool)
  | shockNFall (n : PortId)
  | shockNRelease (n : PortId)
  | sensorPoll (n : PortId) (first second : Option (List Byte))
  | presNLow (n : PortId)
  | settleWindowEnd (n : PortId)
  | identityRead (n : PortId) (first second : Option (List Byte))
  | preampIdentCheck (n : PortId) (upper lower : PreampRead)
  | supplyTrip (n : PortId)
  | hdaCtlRelease (p : Path) (n : PortId)
  | presNHigh (n : PortId)
  | restCheck (n : PortId) (emfMv : Nat)
  | slowStop (n : PortId)
  | hdaPaGo (p : Path) (n : PortId)
  | sectorSampled (a : ActId) (path : ReaderPath) (x : SectorIn) (chk : Option SectorIn)
  | laneFree (l : LaneId)
  | firstPassJobEnd (l : LaneId) (err : Option MemErr)
  | deepSliceEnd (l : LaneId) (err : Option MemErr)
  | verifyJobEnd (l : LaneId) (err : Option MemErr)
  | dpLaneEnWrite (p : Path) (v : Word)
  | dpCtlWrite (p : Path) (v : Word)
  | servoWedge (a : ActId) (w : Wedge)
  | lostTimeout (a : ActId)
  | settleTimeout (a : ActId)
  | svTargetWrite (p : Path) (a : ActId) (v : Word)
  | svSettleWrite (p : Path) (a : ActId) (v : Word)
  | load (a : ActId)
  | loadLockTimeout (a : ActId)
  | loadRetry (a : ActId)
  | unload (a : ActId)
  | unloadParked (a : ActId) (emf : List (Nat × Int))
  | retractParked (a : ActId) (emf : List (Nat × Int))
  | svCtlRetract (p : Path) (a : ActId)
  | resetRetractStart
  | flyingThresholdCrossed (n : PortId) (at_ : Nat)
  | loopSample (i : LeId) (x : LoopIn) (skipped : Nat)
  | leEnable (p : Path) (i : LeId)
  | leDisable (p : Path) (i : LeId)
  | leManual (p : Path) (i : LeId) (on : Bool)
  | leHoldSet (p : Path) (i : LeId) (on : Bool)
  | leReload (p : Path) (i : LeId)
  | tuneStart (p : Path) (i : LeId)
  | tuneStop (p : Path) (i : LeId)
  | tuneTimeout (i : LeId)
  | zoneTableWrite (p : Path) (a : ActId) (z : Fin 32) (rate : Bool) (v : Word)
  | spSpeedSet (p : Path) (n : PortId) (v : Word)
  | spCommWrite (p : Path) (n : PortId) (v : Word)
  | zeroCrossing (n : PortId) (at_ : Nat)
  | commutation (n : PortId)
  | missedCrossing (n : PortId)
  | overcurrent (n : PortId)
  | startMeasurementEnd (n : PortId) (r : Rotor)
  | alignStep (n : PortId)
  | openTmo (n : PortId)
  | retryWaitEnd (n : PortId)
  | lostWatchEnd (n : PortId)
  | spinDownBrake (n : PortId)
  | spCtlRun (p : Path) (n : PortId) (v : Word)
  | sluicePlanWrite (p : Path) (v : Word)
  | sluiceEvaluation (mon : Monitors)
  | runOver (n : PortId)
  | asWorkGo (p : Path) (a : ActId)
  | nano (a : ActId) (err : Option MemErr)
  | writeGateReturn (a : ActId)
  | jump (a : ActId)
  | call (a : ActId)
  | return_ (a : ActId)
  | loop (a : ActId)
  | wait (a : ActId)
  | waitConditionMet (a : ActId)
  | waitTimeout (a : ActId)
  | noOperation (a : ActId)
  | halt (a : ActId)
  | enterHorizontalMode (a : ActId)
  | fetch (a : ActId)
  | horizontalWord (a : ActId) (err : Option MemErr)
  | sectorRunComplete (a : ActId)
  | writeSlot (a : ActId)
  | asWithdraw (p : Path) (a : ActId) (v : Word)
  | asCtlRun (p : Path) (a : ActId) (on : Bool)
  | asCtlTest (p : Path) (a : ActId)
  | asCtlRecover (p : Path) (a : ActId)
  | asDoneRead (p : Path) (a : ActId)
  | asCustArm (p : Path) (a : ActId)
  | asCustDisarm (p : Path) (a : ActId)
  | ledgerOpen (p : Path) (r : ReachId)
  | ledgerClose (p : Path) (r : ReachId)
  | ledgerReopen (p : Path) (r : ReachId)
  | ledgerRetire (p : Path) (r : ReachId)
  | dayTick
  | journalAge (r : ReachId)
  | ledgerMirror
  | ledgerInventory (p : Path) (v : Word)
  | inventoryEnd (n : PortId) (found : List SlotZero) (foreign : List ForeignObj)
  | ledgerEntryWrite (p : Path) (addr : Nat) (v : Word) (err : Option MemErr)
  | defectWindowAdd (p : Path)
  | defectWindowRemove (p : Path)
  | srClassWrite (p : Path) (q : Fin 4) (hdas : Bool) (v : Word)
  | readAroundDeadline (tag : Nat) (stripe member sector : Nat)
  | startLimit (tag : Nat) (stripe member : Nat)
  | stripeEngineJobEnd (e : Fin 2)
  | rebuildMemberDone (sid : Nat) (member : Nat)
  | stripeAudit (read : AuditRead)
  | poolAccess (acc : PoolAcc)
  | patrolScrub (upTo : Nat) (flips : List (Nat × List Nat))
  | poolLogClear (p : Path)
  | drainEnd (seg : SegId)
  | fillEnd (seg : SegId)
  | destageVerified (seg : SegId)
  | sequentialDetectorOff (a : ActId)
  | mvGo (p : Path) (c : ChanId)
  | mvWithdraw (p : Path) (c : ChanId)
  | moverGrant (ready : List ChanId) (bytes : List Byte)
  | beatError (c : ChanId) (beat : Nat)
  | moverRequestEnd (c : ChanId)
  | mvRateWrite (p : Path) (c : ChanId) (v : Word)
  | poolDirRateWrite (p : Path) (v : Word)
  | bandClose (band : Nat) (bits : List (Nat × Nat))
  | tuRead (tu : Nat) (attempts : List (Option Nat))
  | garbageCollection (bits : List (Nat × Nat)) (lost : List Nat)
  | gcErase (failed : List Nat)
  | programFail (block : Nat)
  | rsvDiscardGo (p : Path)
  | reservoirLeavesService (cause : RsvCause) (readable : Bool) (unreadable : List CellPlace)
  | throttle (die : Fin 64) (tempC : Int)
  | stagingLow
  | connect (c : Sqe) (hostNqn : Nat) (queue : Nat) (depth : Nat) (kato : Nat)
  | disconnect (c : Sqe)
  | propertyGet (c : Sqe) (ofst : Nat)
  | controllerEnable (c : Sqe)
  | controllerDisable (c : Sqe)
  | nvmSubsystemReset (c : Sqe) (v : Word)
  | headerDigestFailure (h : HostId) (queue : Nat)
  | dataDigestFailure (c : Sqe)
  | queueReset (h : HostId) (queue : Nat)
  | keepAliveExpiry (h : HostId)
  | getLogPage (c : Sqe) (lid lsp : Nat) (rae : Bool) (offset len : Nat)
  | identify (c : Sqe) (cns csi nsid : Nat)
  | abort (c : Sqe) (sqid cmd : Nat)
  | getFeatures (c : Sqe) (fid : Nat)
  | setPowerManagement (c : Sqe) (save : Bool) (ps : Nat)
  | setTemperatureThreshold (c : Sqe) (save : Bool) (kelvin : Nat) (under : Bool)
  | setVolatileWriteCache (c : Sqe) (save : Bool) (wce : Bool)
  | setNumberOfQueues (c : Sqe) (save : Bool) (nsq ncq : Nat)
  | setAsyncEventConfiguration (c : Sqe) (save : Bool) (v : Word)
  | setTimestamp (c : Sqe) (save : Bool) (utcMs : Nat)
  | setKeepAliveTimer (c : Sqe) (save : Bool) (kato : Nat)
  | asynchronousEventRequest (c : Sqe)
  | firmwareImageDownload (c : Sqe) (ofst : Nat) (data : List Byte)
  | firmwareCommit (c : Sqe) (ca fs : Nat)
  | activationDrainEnd
  | keepAlive (c : Sqe)
  | registerWindowWrite (c : Sqe) (addr : Nat) (vals : List Word)
  | registerWindowRead (c : Sqe) (addr count : Nat)
  | daybookFreeze (c : Sqe)
  | daybookResume (c : Sqe)
  | functionReinit (c : Sqe) (kind inst : Nat)
  | functionReinitQueues (c : Sqe) (inst : Nat)
  | configurationCommit (c : Sqe) (first final : Bool) (offset : Nat) (data : List Byte)
  | configCommitWriteEnd (readBack : List Byte)
  | flush (c : Sqe) (ns : Nat)
  | flushComplete (c : Sqe)
  | store (c : Sqe) (k : KvKey) (value : List Byte) (o : StoreOpts)
  | retrieve (c : Sqe) (k : KvKey) (offset buf : Nat)
  | list (c : Sqe) (k : KvKey) (buf : Nat)
  | delete (c : Sqe) (k : KvKey)
  | exist (c : Sqe) (k : KvKey)
  | appendValue (c : Sqe) (k : KvKey) (create : Bool) (offset : Nat) (data : List Byte)
  | auditObject (c : Sqe) (k : KvKey) (repair : Bool) (len : Nat) (read : AuditRead)
  | importStreamWrite (c : Sqe) (handle : Fin 8) (first last : Bool) (offset : Nat) (chunk : List Byte)
  | exportStreamRead (c : Sqe) (handle : Fin 8) (first foreign : Bool) (object offset len : Nat)
  | lockGrant (ticket : Nat)
  | durableMarkAdvance (mark : Nat)
  | streamIdleTimeout (h : HostId) (exp : Bool) (handle : Fin 8)
  | ptpOffer (h : HostId) (x : PtpSecond)
  | ppsInEdge (at_ : Nat)
  | meterIntervalEnd (chans : List ChanMeter)
  | cellLow (mv : Nat)
  | sealBreach
  | powerOn (f : Option Feed) (flash : Flash) (tile : Option NewTile) (carried : Option Nat) (bankOk : Bool)
  | startComplete (unreadable : List CellPlace)
  | resetNLow
  | resetNCold
  | resetNRise
  | rstCtlWarm (p : Path)
  | rstCtlCold (p : Path)
  | warmReset (cause : Nat)
  | coldReset (cause : Nat)
  | warmResetEnd
  | coldResetEnd
  | watchdogKick (p : Path) (v : Word)
  | watchdogExpiry
  | rstBlockReq (p : Path) (v : Word)
  | blockResetIdle (kind inst : Nat) (timedOut stillFaulted : Bool)
  | rstRelease (p : Path) (v : Word)
  | pllLock (d : Domain)
  | pllLockLoss (d : Domain)
  | dualRailReport (src : RailSource) (wire : Bool) (cause : Nat)
  | persistingFaultEvent (b : Block) (unit : Nat) (status : ReadTry) (stillLow : Bool)
  | quietPeriodEnd (b : Block) (unit : Nat)
  | backoffReset (b : Block) (unit : Nat)
  | fltReactWrite (p : Path) (b : Block) (v : Word)
  | fltHistClear (p : Path) (b : Block)
  | fltMemLogClear (p : Path) (b : Block)
  | dbWriteGo (p : Path) (v : Word)
  | daybookMirror (seq : Nat)
  | freezeWindowEnd
  | sensorThresholdCrossing (sensor : Nat) (value : Int)
  | temperatureHistoryHour
  | setEndpointId (eid : Byte)
  | getEndpointId
  | getMctpVersionSupport (msgType : Nat)
  | getMessageTypeSupport
  | readNvmeMiDataStructure (dtyp : Nat)
  | nvmSubsystemHealthStatusPoll
  | controllerHealthStatusPoll (h : HostId)
  | configurationGet (id : Nat)
  | vpdRead (offset len : Nat)
  | tunnelledAdminCommand (t : Tunnelled)
  | registerRead (addr count : Nat)
  | registerWrite (addr : Nat) (v : Word)
  | getTid
  | getPldmVersion (ty : Nat)
  | getPldmTypes
  | getPldmCommands (ty : Nat)
  | getPdr (handle : Nat)
  | getSensorReading (sensor : Nat)
  | setEventReceiver (addr : Byte)
  | hostLinkUp (h : HostId)
  | hostLinkDown (h : HostId)
  | rsFecLockLost (h : HostId)
  | pllLockTimeout (d : Domain)
  | reservoirReady (ok : Bool)
  | throttleEnd
  | coreUncorrectableError (unit : Fin 17)
  | arpNdpIcmpEcho (port : Option HostId) (frame : NetFrame) (served : Bool)
  deriving DecidableEq, Repr

end Sys2Proof
end

