-- ==== Sys2Proof/Decode.lean ====
section
/-!
DEFINITION. Sys2Proof/Decode.lean: the command that a word spells by the table's bits. No row of the command table gives bits: the module takes
its commands through registers, protocols and pins, so no word spells one.
-/
namespace Sys2Proof

/-- The command that an `nbits`-bit word spells: no row of the table gives bits (notes/assumptions/16.md). -/
def decodeTableWord (_nbits _w : Nat) : Option Instr := none

end Sys2Proof
end

