-- ==== Sys2Proof/Config.lean ====
section
/-!
DEFINITION. Sys2Proof/Config.lean: what the spec leaves open and the model leaves free: constants with no body.
Each is named in a log entry of notes/assumptions.
-/
namespace Sys2Proof.Config

/-- A free value: the n-th value that the spec leaves undefined in a run (notes/assumptions/7.md). -/
opaque freeValue : Nat → Nat

/-- The columns of the Pool's check matrix, one per bit of the 144-bit codeword (R246 gives their odd weight, not their values;
notes/assumptions/8.md). -/
opaque poolColumn : Nat → Nat

/-- How many lanes of a Pool subchannel the factory fuse map marks faulty (R250 leaves the map to the part; notes/assumptions/8.md). -/
opaque fuseLanes : Nat → Nat

/-- How many faulty rows the fuse map marks in each bank group of each Pool device (notes/assumptions/8.md). -/
opaque fuseRows : List Nat

/-- The 8-bit columns of the on-die SRAM code (R395 gives their odd weight, not their values; notes/assumptions/8.md). -/
opaque sramColumn : Nat → Nat

/-- How many memories the block of a fault register set has, as FLT_MEM_SEL.MEMS shows it (R397 says "per block" without the numbers;
notes/assumptions/8.md). -/
opaque memories : Nat → Nat

/-- The 36 characters of the UUID in the subsystem's NQN, from the shelf identity (R288 says that it is derived from it, not how;
notes/assumptions/41.md). -/
opaque nqnUuid : Nat → Nat → BitVec 8

/-- Values of the maker-defined HDA and preamplifier surroundings that no command carries (notes/assumptions/7.md). -/
opaque surroundings : Nat → Nat

/-- Whether the DEMAND register of a loop engine shows a demand that is no whole number rounded up (R144 gives no rounding;
notes/assumptions/7.md). -/
opaque roundDemand : Rat → Bool

/-- The velocity that the demodulator estimates at a valid wedge, from the estimate before, the step of the position in tracks and
the time in ns since the previous wedge (R125 gives no estimator; notes/assumptions/7.md). -/
opaque velocity : Rat → Rat → Nat → Rat

/-- What a register field shows of a number that lies outside the field's range (notes/assumptions/7.md). -/
opaque outOfRange : Int → Nat

/-- The decision of the soft-output detector about the newest bit, which drives the adaptive loops, from the equaliser's outputs (newest
first), the target and the noise predictors: 05_read_channel.md gives no algorithm (notes/assumptions/22.md). -/
opaque detectorBit : List Rat → List Int → List Rat → Bool

/-- The detector's log-likelihood ratio of bit `n` of a sector, from the equaliser's outputs, the target and the noise predictors, before
the limit to 31 and LLR_SCALE (notes/assumptions/22.md). -/
opaque detectorLlr : List Rat → List Int → List Rat → Nat → Int

/-- The noise predictors after a sector, from those before it and the sector's equaliser outputs (notes/assumptions/22.md). -/
opaque noisePredictors : List Rat → List Rat → List Rat

/-- The gain loop's next value, from the present one, the error, the equaliser's output, GAIN_TARGET and MU_GAIN: R91 gives the gain no
formula in which the error could be differentiated (notes/assumptions/22.md). -/
opaque gainStep : Rat → Rat → Rat → Nat → Nat → Rat

/-- The offset of the lanes' offset min-sum decoder (R105 names the algorithm without the number; notes/assumptions/22.md). -/
opaque minSumOffset : Nat

end Sys2Proof.Config
end

