-- ==== Sys2Proof/Machine/Table.lean ====
section
/-!
DEFINITION. Sys2Proof/Machine/Table.lean: sparse tables as lists of (key, value) pairs with strictly rising keys. A table that
has a default value lists no key whose value is the default, so that equal tables are equal data.
-/
namespace Sys2Proof.Machine

/-- Plain data keyed by a number, keys strictly rising. -/
abbrev Table (α : Type) := List (Nat × α)

/-- The entry of key `k`, if the table lists one. -/
def tfind {α : Type} : Table α → Nat → Option α
  | [], _ => none
  | (j, v) :: t, k => if j = k then some v else tfind t k

/-- The value of key `k`: the listed one, or the default. -/
def tget {α : Type} (d : α) : Table α → Nat → α
  | [], _ => d
  | (j, v) :: t, k => if j = k then v else tget d t k

/-- List key `k` with value `v` at its place. -/
def tins {α : Type} : Table α → Nat → α → Table α
  | [], k, v => [(k, v)]
  | (j, w) :: t, k, v =>
    if k < j then (k, v) :: (j, w) :: t else if k = j then (k, v) :: t else (j, w) :: tins t k v

/-- Drop key `k`, however often it is listed. -/
def tdel {α : Type} : Table α → Nat → Table α
  | [], _ => []
  | (j, w) :: t, k => if j = k then tdel t k else (j, w) :: tdel t k

/-- Set key `k` to `v` in a table whose default is `d`: the default is never listed. -/
def tput {α : Type} [DecidableEq α] (d : α) (t : Table α) (k : Nat) (v : α) : Table α :=
  if v = d then tdel t k else tins t k v

/-- The keys rise strictly from above `b`. -/
def tsortedFrom {α : Type} : Nat → Table α → Bool
  | _, [] => true
  | b, (k, _) :: t => decide (b < k) && tsortedFrom k t

/-- Keys strictly rising. -/
def tsorted {α : Type} : Table α → Bool
  | [] => true
  | (k, _) :: t => tsortedFrom k t

/-- The canonical form of a table with default `d`: keys strictly rising, no entry equal to the default. -/
def twf {α : Type} [DecidableEq α] (d : α) (t : Table α) : Bool :=
  tsorted t && t.all (fun e => !decide (e.2 = d))

/-- Update key `k` through `f`. -/
def tmod {α : Type} [DecidableEq α] (d : α) (t : Table α) (k : Nat) (f : α → α) : Table α :=
  tput d t k (f (tget d t k))

/-- Bits [lo + len - 1 : lo] of `v`. -/
def bitsOf (v lo len : Nat) : Nat := v / 2 ^ lo % 2 ^ len

/-- One bit of `v`. -/
def bitOf (v i : Nat) : Bool := decide (v / 2 ^ i % 2 = 1)

/-- `v` with bit `i` set or cleared. -/
def setBit (v i : Nat) (b : Bool) : Nat :=
  if bitOf v i = b then v else if b then v + 2 ^ i else v - 2 ^ i

/-- `b` as a bit. -/
def b2n (b : Bool) : Nat := if b then 1 else 0

/-- The nearer limit of [mn, mx] (the stored-value rule of the register tables). -/
def clampTo (mn mx v : Nat) : Nat := if v < mn then mn else if mx < v then mx else v

/-- Add 1, saturating at `top`. -/
def satInc (top v : Nat) : Nat := if v < top then v + 1 else top

/-- Number of set bits among the low `n` of `v`. -/
def popCount : Nat → Nat → Nat
  | 0, _ => 0
  | n + 1, v => v % 2 + popCount n (v / 2)

/-- Division rounding up. -/
def ceilDiv (a b : Nat) : Nat := (a + b - 1) / b

/-- Whole seconds in ticks, exact (R69). -/
def secs (n : Nat) : Nat := n * 2 ^ 24

/-- Milliseconds in ticks, rounded up to the next whole tick (R69). -/
def msecs (n : Nat) : Nat := ceilDiv (n * 2 ^ 24) 1000

/-- Microseconds in ticks, rounded up (R69). -/
def usecs (n : Nat) : Nat := ceilDiv (n * 2 ^ 24) 1000000

/-- Little-endian value of a list of bytes (00_scope.md). -/
def leNat : List (BitVec 8) → Nat
  | [] => 0
  | b :: t => b.toNat + 256 * leNat t

/-- The `n` little-endian bytes of `v`. -/
def leBytes : Nat → Nat → List (BitVec 8)
  | 0, _ => []
  | n + 1, v => BitVec.ofNat 8 v :: leBytes n (v / 256)

/-- `n` bytes at offset `o`, little-endian. -/
def leAt (bs : List (BitVec 8)) (o n : Nat) : Nat := leNat ((bs.drop o).take n)

end Sys2Proof.Machine
end

