-- ==== Sys2Proof/Machine/Operands.lean ====
section
/-!
DEFINITION. Sys2Proof/Machine/Operands.lean: the codes that the spec defines over operands: CRC-8 (R74), CRC-32C (R83), SHA-256
(R233), GF(2^8) Reed-Solomon (R231), the scrambler (R103), the LDPC parity (R104), the mark search (R99), the sector tag
(R101), Gray code (R120), the coefficient words (R145), the directory hash (R252), the memory codes' address folding (R246, R395).
-/
namespace Sys2Proof.Machine

/-! ### CRC -/

/-- One bit of the CRC-8 of R74 (polynomial 0x07, most significant bit first). -/
def crc8Bit (r : Nat) (b : Nat) : Nat :=
  let top := r / 128 % 2
  let sh := r * 2 % 256
  if (top + b) % 2 = 1 then sh ^^^ 7 else sh

/-- R74: CRC-8 over the `n` low bits of `v`, most significant first, from initial value 0. -/
def crc8 (v : Nat) : Nat → Nat → Nat
  | 0, r => r
  | n + 1, r => crc8 v n (crc8Bit r (v / 2 ^ n % 2))

/-- A control frame's CHECK over READ, ADDR and DATA (R74, R75). -/
def frameCheck (read : Bool) (addr data : Nat) : Nat := crc8 (b2n read * 2 ^ 23 + addr % 128 * 2 ^ 16 + data % 65536) 24 0

/-- One bit of the reflected CRC-32C. -/
def crc32cBit (r : Nat) : Nat := if r % 2 = 1 then (r / 2) ^^^ 0x82F63B78 else r / 2

/-- `n` bits of the reflected CRC-32C. -/
def crc32cBits : Nat → Nat → Nat
  | 0, r => r
  | n + 1, r => crc32cBits n (crc32cBit r)

/-- CRC-32C over bytes from a running value. -/
def crc32cFrom : List (BitVec 8) → Nat → Nat
  | [], r => r
  | b :: bs, r => crc32cFrom bs (crc32cBits 8 (r ^^^ b.toNat))

/-- R83: CRC-32C (Castagnoli). -/
def crc32c (bs : List (BitVec 8)) : Nat := crc32cFrom bs 0xFFFFFFFF ^^^ 0xFFFFFFFF

/-! ### SHA-256 (R233, R321; FIPS 180-4, notes/assumptions/9.md) -/

abbrev W32 := BitVec 32

/-- The largest `r` whose `e`-th power is at most `v`, found bit by bit from bit `n - 1` down. -/
def rootDown (e v : Nat) : Nat → Nat → Nat
  | 0, r => r
  | n + 1, r => rootDown e v n (if (r + 2 ^ n) ^ e ≤ v then r + 2 ^ n else r)

/-- The primes below 312: sixty-four of them. -/
def smallPrimes : List Nat :=
  (List.range 312).filter (fun p => decide (1 < p) && (List.range 18).all (fun d => decide (d < 2 ∨ p ≤ d ∨ p % d ≠ 0)))

/-- FIPS 180-4: the first 32 bits of the fractional part of the `e`-th root of a prime. -/
def rootFraction (e p : Nat) : W32 := BitVec.ofNat 32 (rootDown e (p * 2 ^ (32 * e)) 37 0)

/-- The round constants: from the cube roots of the first 64 primes. -/
def shaK : List W32 := smallPrimes.map (rootFraction 3)

/-- The initial words: from the square roots of the first eight primes. -/
def shaInit : List W32 := (smallPrimes.take 8).map (rootFraction 2)

/-- Big-endian words of a 64-byte block. -/
def beWords : List (BitVec 8) → List W32
  | a :: b :: c :: d :: t =>
    BitVec.ofNat 32 (a.toNat * 2 ^ 24 + b.toNat * 2 ^ 16 + c.toNat * 2 ^ 8 + d.toNat) :: beWords t
  | _ => []

/-- The XOR of a word turned right by two amounts, with a third word. -/
def mixTwo (x : W32) (i j : Nat) (z : W32) : W32 := x.rotateRight i ^^^ x.rotateRight j ^^^ z

/-- The message schedule, newest word first: each new word adds those 2, 7, 15 and 16 places back. -/
def shaExtend : Nat → List W32 → List W32
  | 0, w => w
  | n + 1, w =>
    let at_ (back : Nat) : W32 := w.getD (back - 1) 0
    let fresh := [at_ 16, mixTwo (at_ 15) 7 18 (at_ 15 >>> 3), at_ 7, mixTwo (at_ 2) 17 19 (at_ 2 >>> 10)].sum
    shaExtend n (fresh :: w)

/-- One round over the eight working words, held as the two quads that the round shifts along. -/
def shaRound (st : List W32) (k w : W32) : List W32 :=
  let hi := st.take 4
  let lo := st.drop 4
  let q (l : List W32) (i : Nat) : W32 := l.getD i 0
  let e := q lo 0
  let a := q hi 0
  let pick := (e &&& (q lo 1 ^^^ q lo 2)) ^^^ q lo 2
  let most := (a &&& (q hi 1 ||| q hi 2)) ||| (q hi 1 &&& q hi 2)
  let into := [q lo 3, mixTwo e 6 11 (e.rotateRight 25), pick, k, w].sum
  let out := into + mixTwo a 2 13 (a.rotateRight 22) + most
  (out :: hi.take 3) ++ ((q hi 3 + into) :: lo.take 3)

def shaRounds : List W32 → List W32 → List W32 → List W32
  | k :: ks, w :: ws, st => shaRounds ks ws (shaRound st k w)
  | _, _, st => st

/-- The compression of one block. -/
def shaBlock (st : List W32) (blk : List (BitVec 8)) : List W32 :=
  let w := (shaExtend 48 (beWords blk).reverse).reverse
  List.zipWith (· + ·) st (shaRounds shaK w st)

/-- Feed whole blocks (fuel bounds their number) and keep the bytes left over. -/
def shaFeed : Nat → List W32 → List (BitVec 8) → List W32 × List (BitVec 8)
  | 0, st, bs => (st, bs)
  | n + 1, st, bs => if bs.length < 64 then (st, bs) else shaFeed n (shaBlock st (bs.take 64)) (bs.drop 64)

/-- A hash state: eight words, message length in bytes, pending bytes (R322's midstate). -/
structure ShaState where
  words : List W32
  len : Nat
  rest : List (BitVec 8)
  deriving DecidableEq, Repr

def sha0 : ShaState := ⟨shaInit, 0, []⟩

/-- Hash more bytes. -/
def shaUpdate (s : ShaState) (bs : List (BitVec 8)) : ShaState :=
  let all := s.rest ++ bs
  let (st, r) := shaFeed (all.length / 64 + 1) s.words all
  ⟨st, s.len + bs.length, r⟩

/-- Big-endian bytes of `n`. -/
def beBytes (k n : Nat) : List (BitVec 8) := (leBytes k n).reverse

/-- The digest: 32 bytes. -/
def shaFinal (s : ShaState) : List (BitVec 8) :=
  let pad := (BitVec.ofNat 8 0x80) :: List.replicate ((119 - s.rest.length) % 64) (0 : BitVec 8)
  let (st, _) := shaFeed 3 s.words (s.rest ++ pad ++ beBytes 8 (s.len * 8))
  st.flatMap (fun w => beBytes 4 w.toNat)

def sha256 (bs : List (BitVec 8)) : List (BitVec 8) := shaFinal (shaUpdate sha0 bs)

/-! ### Reed-Solomon over GF(2^8) (R231) -/

/-- Multiply by x modulo 0x11D. -/
def gfX (a : Nat) : Nat := let d := a * 2; if 256 ≤ d then (d ^^^ 0x11D) % 256 else d

/-- Product in GF(2^8) over the low `n` bits of `b`. -/
def gfMulN : Nat → Nat → Nat → Nat
  | 0, _, _ => 0
  | n + 1, a, b => (if b % 2 = 1 then a else 0) ^^^ gfMulN n (gfX a) (b / 2)

def gfMul (a b : Nat) : Nat := gfMulN 8 a b

/-- a^n. -/
def gfPow (a : Nat) : Nat → Nat
  | 0 => 1
  | n + 1 => gfMul a (gfPow a n)

/-- The inverse, a^254. -/
def gfInv (a : Nat) : Nat := gfPow a 254

/-- R231: the coefficient C(i, c). -/
def rsCoef (i c : Nat) : Nat := gfInv (i ^^^ (6 + c))

/-- Parity byte i over the data bytes of one position. -/
def rsParity (i : Nat) : Nat → List Nat → Nat
  | _, [] => 0
  | c, d :: ds => gfMul (rsCoef i c) d ^^^ rsParity i (c + 1) ds

/-- The row of the code matrix of member r of a stripe with j data cells. -/
def rsRow (j r : Nat) : List Nat :=
  if r < j then (List.range j).map (fun c => if c = r then 1 else 0) else (List.range j).map (fun c => rsCoef (r - j) c)

/-- Gaussian elimination: solve rows (coefficients, value) for the data bytes. -/
def gfSolve : Nat → List (List Nat × Nat) → List (List Nat × Nat) → Nat → List (List Nat × Nat)
  | 0, _, done, _ => done
  | n + 1, rows, done, col =>
    match rows.find? (fun r => r.1.getD col 0 ≠ 0) with
    | none => done
    | some p =>
      let inv := gfInv (p.1.getD col 0)
      let p' := (p.1.map (gfMul inv), gfMul inv p.2)
      let red (r : List Nat × Nat) : List Nat × Nat :=
        let q := r.1.getD col 0
        (List.zipWith (fun a b => a ^^^ gfMul q b) r.1 p'.1, r.2 ^^^ gfMul q p'.2)
      gfSolve n ((rows.erase p).map red) (done.map red ++ [p']) (col + 1)

/-- Recover the j data bytes of one position from j members (index, byte). -/
def rsRecover (j : Nat) (good : List (Nat × Nat)) : List Nat :=
  (gfSolve j ((good.take j).map (fun g => (rsRow j g.1, g.2))) [] 0).map Prod.snd

/-! ### Sector format -/

/-- R103: one step of the scrambler's 31-bit register. -/
def scrStep (st : Nat) : Nat × Nat :=
  let s := (st / 2 ^ 30 + st / 2 ^ 27) % 2
  (s, (st * 2 + s) % 2 ^ 31)

/-- R103: `n` bits of the scrambler's sequence. -/
def scrBits : Nat → Nat → List Nat
  | 0, _ => []
  | n + 1, st => let (s, st') := scrStep st; s :: scrBits n st'

/-- R104: the circulants of an information block column: block row and shift for k = 0 to 3. -/
def ldpcCirc (c : Nat) : List (Nat × Nat) :=
  [0, 1, 2, 3].map (fun k => ((c + 8 * k) % 32, (c * (2 * k + 1) + 37 * k) % 128))

/-- R104: the check of its block row to which bit i of a block column contributes under a shift. -/
def ldpcCheck (i shift : Nat) : Nat := (i + 128 - shift % 128) % 128

/-- The circulants of a block row over the 257 information columns: column and shift. -/
def ldpcRow (r : Nat) : List (Nat × Nat) :=
  (List.range 257).flatMap (fun c => (ldpcCirc c).filterMap (fun e => if e.1 = r then some (c, e.2) else none))

/-- The information bits that check `x` of a row joins. -/
def ldpcTaps (row : List (Nat × Nat)) (x : Nat) : List Nat := row.map (fun e => 128 * e.1 + (x + e.2) % 128)

/-- The sum of the information terms of check `x` of a row. -/
def ldpcInfo (bits : Nat → Nat) (row : List (Nat × Nat)) (x : Nat) : Nat := (ldpcTaps row x).foldl (fun acc v => (acc + bits v) % 2) 0

/-- R104: the parity blocks of the rows left, each the sum of its row's information terms and the block before it. -/
def ldpcAccum (bits : Nat → Nat) : List Nat → List Nat → List Nat
  | [], _ => []
  | r :: rs, prev =>
    let row := ldpcRow r
    let blk := (List.range 128).map (fun x => (ldpcInfo bits row x + prev.getD x 0) % 2)
    blk ++ ldpcAccum bits rs blk

/-- R104: a codeword: its 32,896 information bits and the 32 parity blocks. -/
def ldpcEncode (info : List Nat) : List Nat :=
  let a := info.toArray
  info ++ ldpcAccum (fun i => a.getD i 0) (List.range 32) []

/-- R104: the codeword bits that check `x` of block row `r`, whose circulants are `row`, joins. -/
def ldpcVars (row : List (Nat × Nat)) (r x : Nat) : List Nat :=
  ldpcTaps row x ++ (128 * (257 + r) + x) :: (if r = 0 then [] else [128 * (256 + r) + x])

/-- Hamming distance of `n` bits. -/
def hamming (n a b : Nat) : Nat := popCount n (a ^^^ b)

def mark1 : Nat := 0x3C6AD1E5
def mark2 : Nat := 0xC3952E1A

/-- R99: the search of one mark in a window of 48 hard decisions that starts 8 bits before E, first bit in bit 47: the first
offset from -8 to 8 at distance 3 or less, with the distance. -/
def markSearch (mark win : Nat) : Nat → Nat → Option (Int × Nat)
  | _, 0 => none
  | k, n + 1 =>
    let d := hamming 32 mark (win / 2 ^ (16 - k) % 2 ^ 32)
    if d ≤ 3 then some ((k : Int) - 8, d) else markSearch mark win (k + 1) n

/-- R99 over the whole window. -/
def findMark (mark win : Nat) : Option (Int × Nat) := markSearch mark win 0 17

def zeros (n : Nat) : List (BitVec 8) := List.replicate n 0

/-- Bytes followed by zeros up to a length. -/
def fillTo (n : Nat) (bs : List (BitVec 8)) : List (BitVec 8) := bs ++ zeros (n - bs.length)

/-- R101: the 16-byte tag as a number, CRC apart. -/
def tagNat (act reach sector wseq : Nat) : Nat :=
  act % 64 + reach % 2 ^ 14 * 2 ^ 6 + sector % 2 ^ 20 * 2 ^ 20 + wseq % 2 ^ 32 * 2 ^ 40

/-- R101: the payload of a sector: user bytes, tag, CRC over user bytes and tag bytes 0 to 11. -/
def sectorPayload (user : List (BitVec 8)) (act reach sector wseq : Nat) : List (BitVec 8) :=
  let t := user ++ leBytes 12 (tagNat act reach sector wseq)
  t ++ leBytes 4 (crc32c t)

/-- R102: the CRC of a payload matches. -/
def payloadCrcOk (p : List (BitVec 8)) : Bool := decide (crc32c (p.take 4108) = leAt p 4108 4)

/-- R102: the tag of a payload names the expected place, and the expected write sequence where one is supplied. -/
def payloadTagOk (p : List (BitVec 8)) (act reach sector : Nat) (wseq : Option Nat) : Bool :=
  let t := leAt p 4096 12
  decide (t % 64 = act) && decide (t / 2 ^ 6 % 2 ^ 14 = reach) && decide (t / 2 ^ 20 % 2 ^ 20 = sector)
    && (match wseq with | none => true | some w => decide (t / 2 ^ 40 % 2 ^ 32 = w))

/-! ### Servo -/

/-- Binary from reflected Gray code, `n` bits (R120). -/
def grayDecode : Nat → Nat → Nat
  | 0, _ => 0
  | n + 1, g => g ^^^ grayDecode n (g / 2)

/-- Round to the nearest integer, halves away from zero (R123). -/
def roundAway (q : Rat) : Int :=
  if 0 ≤ q then (q + 1 / 2).floor else -((1 / 2 - q).floor)

/-- R122: the in-band position u. -/
def servoU (tF tRef tK : Nat) : Rat := 10 * ((tF : Rat) - tK) / tRef + 3 / 2

/-- R122: the timing field is valid. -/
def timingOk (tF tRef tK : Nat) : Bool :=
  let e : Rat := (tF : Rat) + tK - 7 / 10 * tRef
  decide (0 < tRef) && decide (e ≤ 1 / 50 * tRef ∧ -e ≤ 1 / 50 * tRef)
    && decide (-1 / 2 ≤ servoU tF tRef tK ∧ servoU tF tRef tK < 7 / 2)

/-- R123: the full position from the track number and the in-band position. -/
def servoY (g : Rat) (u : Rat) : Rat := 4 * ((g - u) / 4 + 1 / 2).floor + u

/-! ### Coefficient words (R145) -/

/-- The value of a coefficient word. -/
def coefVal (w : Nat) : Rat := (bitsOf w 0 24 : Rat) * 2 ^ (bitsOf w 24 5) / 2 ^ 24

/-- The smallest shift below `n` at which the value is less than 2^shift. -/
def coefShift (v : Rat) : Nat → Nat → Nat
  | 0, s => s
  | n + 1, s => if v < 2 ^ s then s else coefShift v n (s + 1)

/-- R145: a word that the module writes is normalised; one that no SHIFT of 5 bits reaches is open (notes/assumptions/7.md). -/
def coefWord (v : Rat) : Nat :=
  let s := coefShift v 31 0
  let m := (v * 2 ^ 24 / 2 ^ s + 1 / 2).floor.toNat
  let (m, s) := if m = 2 ^ 24 then (2 ^ 23, s + 1) else (m, s)
  if 31 < s ∨ 2 ^ 24 ≤ m then Config.outOfRange v.floor % 2 ^ 29 else m + s * 2 ^ 24

/-- Integer square root by bits, largest first. -/
def isqrtN : Nat → Nat → Nat → Nat
  | 0, _, r => r
  | n + 1, v, r => let c := r + 2 ^ n; isqrtN n v (if c * c ≤ v then c else r)

/-- The integer square root of a number below 2^160. -/
def isqrt (v : Nat) : Nat := isqrtN 80 v 0

/-- A rational square root, below by less than 2^-32 (notes/assumptions/10.md). -/
def ratSqrt (q : Rat) : Rat := if q ≤ 0 then 0 else (isqrt ((q * 2 ^ 64).floor.toNat) : Rat) / 2 ^ 32

/-- π to 40 digits (notes/assumptions/10.md). -/
def ratPi : Rat := 31415926535897932384626433832795028841971 / 10000000000000000000000000000000000000000

/-! ### Pool and SRAM codes -/

/-- R246: the vector v_i of Pool address bit i (of bits [35:4]). -/
def poolVec (i : Nat) : Nat := 2 ^ (i % 8) + 2 ^ (8 + i / 8)

/-- R395: the pairs (p, q), p < q, in order; w_i is the i-th. -/
def sramPairs : List (Nat × Nat) :=
  (List.range 8).flatMap (fun p => (List.range 8).filterMap (fun q => if p < q then some (p, q) else none))

def sramVec (i : Nat) : Nat := match sramPairs[i]? with | some (p, q) => 2 ^ p + 2 ^ q | none => 0

/-- XOR of the vectors of the set bits of `a` from bit `i` on. -/
def foldVec (vec : Nat → Nat) : Nat → Nat → Nat → Nat
  | 0, _, _ => 0
  | n + 1, i, a => (if a % 2 = 1 then vec i else 0) ^^^ foldVec vec n (i + 1) (a / 2)

/-- R246: g(a) of a byte address. -/
def poolG (addr : Nat) : Nat := foldVec poolVec 32 0 (addr / 16)
/-- R395: h(a) of a word address. -/
def sramH (a : Nat) : Nat := foldVec sramVec 28 0 a

/-- R245: the lane of a 64-byte unit. -/
def poolLane (addr : Nat) : Nat := (addr / 64 % 8) ^^^ (addr / 4096 % 8)

/-- R252: the set of a cell in forerunner mode with S sets. -/
def dirSet (act reach first sets : Nat) : Nat :=
  let key := (act * 2 ^ 26) ||| (reach * 2 ^ 12) ||| (first / 256)
  let x := (key ^^^ (key / 2 ^ 16)) % 2 ^ 32
  let x := x * 0x045D9F3B % 2 ^ 32
  let x := x ^^^ (x / 2 ^ 16)
  x % sets

end Sys2Proof.Machine
end

