-- ==== Sys2Proof/Machine/RegMap.lean ====
section
/-!
DEFINITION. Sys2Proof/Machine/RegMap.lean: the register tables of the spec, one Field per row of a register table
(offset, bits, type, reset value, limits of the stored value, stride of an array of registers) and one RegDesc per
register, gathered into the blocks of R24. Each field's table stands in the chapter that R24 names for its block.
A reset entry "X" of the spec, or none, is held as 0 (notes/assumptions/1.md).
-/
namespace Sys2Proof.Machine

/-- The register types of 00_scope.md (table of types). -/
inductive RegType
  | ro | rw | w1c | wo | rws
  deriving DecidableEq, Repr

/-- One row of a register table. `off` is the offset from the block base (for a register in an array, of element 0),
`mn` and `mx` are the limits outside which a written value is stored as the nearer limit. -/
structure Field where
  off : Nat
  lo : Nat
  len : Nat
  ty : RegType
  reset : Nat
  mn : Nat
  mx : Nat
  stride : Nat
  deriving DecidableEq, Repr

/-- One register, or an array of `cnt` registers at `stride`. -/
structure RegDesc where
  off : Nat
  cnt : Nat
  stride : Nat
  fields : List Field
  deriving DecidableEq, Repr

end Sys2Proof.Machine

namespace Sys2Proof.Machine.Reg

def ID_PART_PART_NUMBER : Field := ⟨0x0, 16, 16, .ro, 0x2448, 0, 65535, 0⟩
def ID_PART_STEP_LETTER : Field := ⟨0x0, 8, 8, .ro, 0x41, 0, 255, 0⟩
def ID_PART_STEP_NUMBER : Field := ⟨0x0, 0, 8, .ro, 1, 0, 255, 0⟩
def GLB_SERVICE_STATE : Field := ⟨0x4, 0, 4, .ro, 0, 0, 15, 0⟩
def GLB_SERVICE_RESERVOIR_OUT : Field := ⟨0x4, 4, 1, .ro, 0, 0, 1, 0⟩
def GLB_SERVICE_HDA_MISSING : Field := ⟨0x4, 8, 5, .ro, 0, 0, 31, 0⟩
def GLB_SERVICE_HDA_REBUILDING : Field := ⟨0x4, 16, 5, .ro, 0, 0, 31, 0⟩
def GLB_SERVICE_CHANGED : Field := ⟨0x4, 31, 1, .w1c, 0, 0, 1, 0⟩
def GLB_SINCE_LO_TIME_LO : Field := ⟨0x8, 0, 32, .ro, 0, 0, 4294967295, 0⟩
def GLB_SINCE_HI_TIME_HI : Field := ⟨0xC, 0, 32, .ro, 0, 0, 4294967295, 0⟩
def PWR_STATUS_FEEDA_GOOD : Field := ⟨0x0, 0, 1, .ro, 0, 0, 1, 0⟩
def PWR_STATUS_FEEDB_GOOD : Field := ⟨0x0, 1, 1, .ro, 0, 0, 1, 0⟩
def PWR_STATUS_ACTIVE : Field := ⟨0x0, 2, 1, .ro, 0, 0, 1, 0⟩
def PWR_STATUS_STANDBY_READY : Field := ⟨0x0, 3, 1, .ro, 0, 0, 1, 0⟩
def PWR_STATUS_CONVA_FAILED : Field := ⟨0x0, 4, 1, .ro, 0, 0, 1, 0⟩
def PWR_STATUS_CONVB_FAILED : Field := ⟨0x0, 5, 1, .ro, 0, 0, 1, 0⟩
def PWR_STATUS_MISMATCH : Field := ⟨0x0, 6, 1, .w1c, 0, 0, 1, 0⟩
def PWR_STATUS_EXERCISE_ON : Field := ⟨0x0, 7, 1, .ro, 0, 0, 1, 0⟩
def PWR_STATUS_HOLDUP_LOW : Field := ⟨0x0, 8, 1, .ro, 0, 0, 1, 0⟩
def PWR_STATUS_SWAPPED : Field := ⟨0x0, 16, 1, .w1c, 0, 0, 1, 0⟩
def PWR_STATUS_EXERCISE_MISSED : Field := ⟨0x0, 17, 1, .w1c, 0, 0, 1, 0⟩
def PWR_STATUS_FORCE_REFUSED : Field := ⟨0x0, 18, 1, .w1c, 0, 0, 1, 0⟩
def PWR_CTL_PREFER : Field := ⟨0x4, 0, 1, .rws, 0, 0, 1, 0⟩
def PWR_CTL_FORCE_SWAP : Field := ⟨0x4, 1, 1, .wo, 0, 0, 1, 0⟩
def PWR_IB_SET_TARGET : Field := ⟨0x8, 0, 8, .rws, 0xc, 0, 24, 0⟩
def PWR_IB_SET_ILIMIT : Field := ⟨0x8, 8, 8, .rws, 8, 0, 18, 0⟩
def PWR_TUNE_LIGHT_LOAD_A : Field := ⟨0xC, 0, 1, .rws, 0, 0, 1, 0⟩
def PWR_TUNE_LIGHT_LOAD_B : Field := ⟨0xC, 1, 1, .rws, 0, 0, 1, 0⟩
def PWR_EXERCISE_PERIOD_DAYS : Field := ⟨0x10, 0, 8, .rws, 7, 1, 90, 0⟩
def PWR_EXERCISE_DURATION_S : Field := ⟨0x10, 8, 10, .rws, 0x3c, 10, 600, 0⟩
def PWR_EXERCISE_ENABLE : Field := ⟨0x10, 31, 1, .rws, 1, 0, 1, 0⟩
def PWR_EXER_DUE_DUE_S : Field := ⟨0x14, 0, 32, .ro, 0, 0, 4294967295, 0⟩
def PWR_FEEDA_MON_VOLT_MV : Field := ⟨0x18, 0, 16, .ro, 0, 0, 65535, 0⟩
def PWR_FEEDA_MON_CURR_MA : Field := ⟨0x18, 16, 16, .ro, 0, 0, 65535, 0⟩
def PWR_IB_MON_ACTIVE_MV : Field := ⟨0x20, 0, 16, .ro, 0, 0, 65535, 0⟩
def PWR_IB_MON_STANDBY_MV : Field := ⟨0x20, 16, 16, .ro, 0, 0, 65535, 0⟩
def PWR_HOLDUP_CAP_UF : Field := ⟨0x24, 0, 16, .ro, 0, 0, 65535, 0⟩
def PWR_HOLDUP_EST_HOLD : Field := ⟨0x24, 16, 16, .ro, 0, 0, 65535, 0⟩
def PWR_SWAP_COUNT_SWAPS : Field := ⟨0x28, 0, 16, .rws, 0, 0, 65535, 0⟩
def PWR_SWAP_COUNT_EXERCISES : Field := ⟨0x28, 16, 16, .rws, 0, 0, 65535, 0⟩
def PWR_SWAP_TIME_LO_TIME_LO : Field := ⟨0x2C, 0, 32, .ro, 0, 0, 4294967295, 0⟩
def PWR_SWAP_TIME_HI_TIME_HI : Field := ⟨0x30, 0, 32, .ro, 0, 0, 4294967295, 0⟩
def FAB_PACE_INDEX : Field := ⟨0x0, 0, 12, .ro, 0, 0, 4095, 0⟩
def FAB_PACE_BELOW_FLOOR : Field := ⟨0x0, 12, 1, .ro, 0, 0, 1, 0⟩
def FAB_PACE_PACE_LOW : Field := ⟨0x0, 31, 1, .w1c, 0, 0, 1, 0⟩
def FAB_GOV_CTL_TARGET : Field := ⟨0x4, 0, 12, .rws, 0x110, 256, 512, 0⟩
def FAB_GOV_CTL_VMIN : Field := ⟨0x4, 16, 5, .rws, 0, 0, 30, 0⟩
def FAB_GOV_CTL_VMAX : Field := ⟨0x4, 24, 5, .rws, 0x1e, 0, 30, 0⟩
def FAB_GOV_CTL_ENABLE : Field := ⟨0x4, 31, 1, .rws, 1, 0, 1, 0⟩
def FAB_VCORE_CODE : Field := ⟨0x8, 0, 5, .ro, 0x14, 0, 31, 0⟩
def FAB_VCORE_MANUAL_CODE : Field := ⟨0x8, 8, 5, .rws, 0x14, 0, 30, 0⟩
def FAB_VCORE_MEAS_MV : Field := ⟨0x8, 16, 16, .ro, 0, 0, 65535, 0⟩
def FAB_CUTS_READ_CUTS : Field := ⟨0xC, 0, 16, .rws, 0, 0, 65535, 0⟩
def FAB_CUTS_WRITE_CUTS : Field := ⟨0xC, 16, 16, .rws, 0, 0, 65535, 0⟩
def STAMP_NOW_LO_TIME_LO : Field := ⟨0x20, 0, 32, .ro, 0, 0, 4294967295, 0⟩
def STAMP_NOW_HI_TIME_HI : Field := ⟨0x24, 0, 32, .ro, 0, 0, 4294967295, 0⟩
def STAMP_TAKE_LO_TIME_LO : Field := ⟨0x28, 0, 32, .ro, 0, 0, 4294967295, 0⟩
def STAMP_TAKE_HI_TIME_HI : Field := ⟨0x2C, 0, 32, .ro, 0, 0, 4294967295, 0⟩
def STAMP_TAKE_ID_SOURCE : Field := ⟨0x30, 0, 16, .ro, 0, 0, 65535, 0⟩
def STAMP_TAKE_ID_SEQUENCE : Field := ⟨0x30, 16, 16, .ro, 0, 0, 65535, 0⟩
def STAMP_STATUS_TIME_VALID : Field := ⟨0x34, 0, 1, .ro, 0, 0, 1, 0⟩
def STAMP_STATUS_HOLDING : Field := ⟨0x34, 1, 1, .ro, 0, 0, 1, 0⟩
def STAMP_STATUS_HELD : Field := ⟨0x34, 16, 1, .w1c, 0, 0, 1, 0⟩
def HDA_STATUS_STATE : Field := ⟨0x0, 0, 3, .ro, 0, 0, 7, 0⟩
def HDA_STATUS_PRESENT : Field := ⟨0x0, 3, 1, .ro, 0, 0, 1, 0⟩
def HDA_STATUS_SHOCK : Field := ⟨0x0, 4, 1, .ro, 0, 0, 1, 0⟩
def HDA_STATUS_FLT_U : Field := ⟨0x0, 5, 1, .ro, 0, 0, 1, 0⟩
def HDA_STATUS_FLT_L : Field := ⟨0x0, 6, 1, .ro, 0, 0, 1, 0⟩
def HDA_STATUS_REJECT_CAUSE : Field := ⟨0x0, 8, 4, .ro, 0, 0, 15, 0⟩
def HDA_STATUS_SHOCK_SEEN : Field := ⟨0x0, 16, 1, .w1c, 0, 0, 1, 0⟩
def HDA_STATUS_FLT_U_SEEN : Field := ⟨0x0, 17, 1, .w1c, 0, 0, 1, 0⟩
def HDA_STATUS_FLT_L_SEEN : Field := ⟨0x0, 18, 1, .w1c, 0, 0, 1, 0⟩
def HDA_STATUS_INSERTED : Field := ⟨0x0, 19, 1, .w1c, 0, 0, 1, 0⟩
def HDA_STATUS_REMOVED : Field := ⟨0x0, 20, 1, .w1c, 0, 0, 1, 0⟩
def HDA_STATUS_SENS_ERR : Field := ⟨0x0, 21, 1, .w1c, 0, 0, 1, 0⟩
def HDA_STATUS_SLOW_STOP : Field := ⟨0x0, 22, 1, .w1c, 0, 0, 1, 0⟩
def HDA_CTL_RELEASE : Field := ⟨0x4, 0, 1, .wo, 0, 0, 1, 0⟩
def HDA_CTL_POWER_ENABLE : Field := ⟨0x4, 1, 1, .rws, 1, 0, 1, 0⟩
def HDA_CTL_SENS_SLOW : Field := ⟨0x4, 2, 1, .rws, 0, 0, 1, 0⟩
def HDA_PA_CMD_LINK : Field := ⟨0x10, 0, 1, .rw, 0, 0, 1, 0⟩
def HDA_PA_CMD_READ : Field := ⟨0x10, 1, 1, .rw, 0, 0, 1, 0⟩
def HDA_PA_CMD_ADDR : Field := ⟨0x10, 2, 7, .rw, 0, 0, 127, 0⟩
def HDA_PA_CMD_DATA : Field := ⟨0x10, 16, 16, .rw, 0, 0, 65535, 0⟩
def HDA_PA_GO_GO : Field := ⟨0x14, 0, 1, .wo, 0, 0, 1, 0⟩
def HDA_PA_RESULT_DATA : Field := ⟨0x18, 0, 16, .ro, 0, 0, 65535, 0⟩
def HDA_PA_RESULT_DONE : Field := ⟨0x18, 16, 1, .ro, 0, 0, 1, 0⟩
def HDA_PA_RESULT_CHECK_ERR : Field := ⟨0x18, 17, 1, .ro, 0, 0, 1, 0⟩
def HDA_PA_RESULT_REFUSED : Field := ⟨0x18, 18, 1, .ro, 0, 0, 1, 0⟩
def HDA_ENV_TEMP : Field := ⟨0x20, 0, 16, .ro, 0, 0, 65535, 0⟩
def HDA_ENV_HUMIDITY : Field := ⟨0x20, 16, 16, .ro, 0, 0, 65535, 0⟩
def HDA_COUNTS_SHOCKS : Field := ⟨0x24, 0, 16, .rws, 0, 0, 65535, 0⟩
def HDA_COUNTS_PA_CRC_ERRS : Field := ⟨0x24, 16, 16, .rws, 0, 0, 65535, 0⟩
def CH_CTL_PRI_ON : Field := ⟨0x0, 0, 1, .rw, 0, 0, 1, 0⟩
def CH_CTL_CHK_ON : Field := ⟨0x0, 1, 1, .rw, 0, 0, 1, 0⟩
def CH_CTL_DUAL_READ : Field := ⟨0x0, 2, 1, .rw, 0, 0, 1, 0⟩
def CH_CTL_PROFILE_FORCE : Field := ⟨0x0, 3, 1, .rw, 0, 0, 1, 0⟩
def CH_CTL_PROFILE : Field := ⟨0x0, 8, 6, .rw, 0, 0, 63, 0⟩
def CH_CTL_TA_EN : Field := ⟨0x0, 16, 1, .rw, 1, 0, 1, 0⟩
def CH_STATUS_LOCKED : Field := ⟨0x4, 0, 1, .ro, 0, 0, 1, 0⟩
def CH_STATUS_FROZEN : Field := ⟨0x4, 1, 1, .ro, 0, 0, 1, 0⟩
def CH_STATUS_TA_ACTIVE : Field := ⟨0x4, 2, 1, .ro, 0, 0, 1, 0⟩
def CH_STATUS_PROFILE_IN_USE : Field := ⟨0x4, 8, 6, .ro, 0, 0, 63, 0⟩
def CH_STATUS_SOFT_SLOTS : Field := ⟨0x4, 16, 4, .ro, 0, 0, 15, 0⟩
def CH_STATUS_RAW_Q_FULL_SEEN : Field := ⟨0x4, 31, 1, .w1c, 0, 0, 1, 0⟩
def CH_FE_CUTOFF : Field := ⟨0x8, 0, 8, .ro, 0, 0, 255, 0⟩
def CH_FE_BOOST : Field := ⟨0x8, 8, 6, .ro, 0, 0, 63, 0⟩
def CH_FE_VGA_GAIN : Field := ⟨0x8, 16, 5, .ro, 0, 0, 31, 0⟩
def CH_ADAPT_MU_GAIN : Field := ⟨0xC, 0, 4, .rw, 6, 0, 15, 0⟩
def CH_ADAPT_MU_OFFSET : Field := ⟨0xC, 4, 4, .rw, 8, 0, 15, 0⟩
def CH_ADAPT_MU_ASYM : Field := ⟨0xC, 8, 4, .rw, 0xa, 0, 15, 0⟩
def CH_ADAPT_MU_FIR : Field := ⟨0xC, 12, 4, .rw, 0xc, 0, 15, 0⟩
def CH_ADAPT_GAIN_EN : Field := ⟨0xC, 16, 1, .rw, 1, 0, 1, 0⟩
def CH_ADAPT_OFFSET_EN : Field := ⟨0xC, 17, 1, .rw, 1, 0, 1, 0⟩
def CH_ADAPT_ASYM_EN : Field := ⟨0xC, 18, 1, .rw, 1, 0, 1, 0⟩
def CH_ADAPT_FIR_EN : Field := ⟨0xC, 19, 1, .rw, 1, 0, 1, 0⟩
def CH_TIMING_ACQ_KP : Field := ⟨0x10, 0, 4, .rw, 3, 0, 15, 0⟩
def CH_TIMING_ACQ_KI : Field := ⟨0x10, 4, 4, .rw, 7, 0, 15, 0⟩
def CH_TIMING_TRK_KP : Field := ⟨0x10, 8, 4, .rw, 6, 0, 15, 0⟩
def CH_TIMING_TRK_KI : Field := ⟨0x10, 12, 4, .rw, 0xb, 0, 15, 0⟩
def CH_TIMING_ACQ_BITS : Field := ⟨0x10, 16, 9, .rw, 0x100, 0, 480, 0⟩
def CH_WPC_SHIFT_NEAR : Field := ⟨0x14, 0, 6, .rw, 0, 0, 32, 0⟩
def CH_WPC_SHIFT_FAR : Field := ⟨0x14, 8, 6, .rw, 0, 0, 32, 0⟩
def CH_CHK_DELAY_DELAY : Field := ⟨0x18, 0, 12, .rw, 0, 0, 4095, 0⟩
def CH_LAST_SECTOR_MARK1_POS : Field := ⟨0x20, 0, 5, .ro, 0, 0, 31, 0⟩
def CH_LAST_SECTOR_MARK1_FOUND : Field := ⟨0x20, 5, 1, .ro, 0, 0, 1, 0⟩
def CH_LAST_SECTOR_MARK1_DIST : Field := ⟨0x20, 6, 2, .ro, 0, 0, 3, 0⟩
def CH_LAST_SECTOR_MARK2_POS : Field := ⟨0x20, 8, 5, .ro, 0, 0, 31, 0⟩
def CH_LAST_SECTOR_MARK2_FOUND : Field := ⟨0x20, 13, 1, .ro, 0, 0, 1, 0⟩
def CH_LAST_SECTOR_MARK2_DIST : Field := ⟨0x20, 14, 2, .ro, 0, 0, 3, 0⟩
def CH_LAST_SECTOR_RESULT : Field := ⟨0x20, 16, 4, .ro, 0, 0, 15, 0⟩
def CH_LAST_SECTOR_ITERATIONS : Field := ⟨0x20, 20, 8, .ro, 0, 0, 255, 0⟩
def CH_LAST_SECTOR_FROM_MARK2 : Field := ⟨0x20, 28, 1, .ro, 0, 0, 1, 0⟩
def CH_ITER_AVG_AVG : Field := ⟨0x24, 0, 12, .ro, 0, 0, 4095, 0⟩
def CH_COUNT_A_REFRAMES : Field := ⟨0x28, 0, 16, .rws, 0, 0, 65535, 0⟩
def CH_COUNT_A_SYNC_FAILS : Field := ⟨0x28, 16, 16, .rws, 0, 0, 65535, 0⟩
def CH_COUNT_B_DEEP_OK : Field := ⟨0x2C, 0, 16, .rws, 0, 0, 65535, 0⟩
def CH_COUNT_B_DECODE_FAILS : Field := ⟨0x2C, 16, 16, .rws, 0, 0, 65535, 0⟩
def CH_COUNT_C_CRC_FAILS : Field := ⟨0x30, 0, 16, .rws, 0, 0, 65535, 0⟩
def CH_COUNT_C_TAG_MISMATCHES : Field := ⟨0x30, 16, 16, .rws, 0, 0, 65535, 0⟩
def CH_COUNT_D_TA_EVENTS : Field := ⟨0x34, 0, 16, .rws, 0, 0, 65535, 0⟩
def CH_COUNT_D_RAW_FAILS : Field := ⟨0x34, 16, 16, .rws, 0, 0, 65535, 0⟩
def CH_COUNT_E_RAW_PAUSES : Field := ⟨0x38, 0, 16, .rws, 0, 0, 65535, 0⟩
def CH_COUNT_E_REFUSED : Field := ⟨0x38, 16, 16, .rws, 0, 0, 65535, 0⟩
def CH_RAW_CFG_ITER_LIMIT : Field := ⟨0x40, 0, 8, .rw, 8, 1, 16, 0⟩
def CH_RAW_CFG_FLIP_LIMIT : Field := ⟨0x40, 8, 16, .rw, 0x190, 0, 65535, 0⟩
def CH_RAW_Q_DEPTH : Field := ⟨0x44, 0, 7, .ro, 0, 0, 127, 0⟩
def CH_FIR_NOW0_TAPS_0_3 : Field := ⟨0x50, 0, 32, .ro, 0, 0, 4294967295, 0⟩
def CH_FIR_NOW1_TAPS_4_7 : Field := ⟨0x54, 0, 32, .ro, 0, 0, 4294967295, 0⟩
def CH_FIR_NOW2_TAPS_8_9 : Field := ⟨0x58, 0, 16, .ro, 0, 0, 65535, 0⟩
def DP_CTL_FIRST_ITER : Field := ⟨0x0, 0, 8, .rws, 0x10, 4, 64, 0⟩
def DP_CTL_DEEP_ITER : Field := ⟨0x0, 8, 8, .rws, 0xc8, 4, 200, 0⟩
def DP_CTL_DEEP_LANES : Field := ⟨0x0, 16, 5, .rws, 4, 0, 12, 0⟩
def DP_CTL_DEEP_FLOOR : Field := ⟨0x0, 24, 4, .rws, 1, 0, 12, 0⟩
def DP_CTL_COMBINE_MAX : Field := ⟨0x0, 28, 4, .rws, 4, 1, 8, 0⟩
def DP_LANE_EN_ENABLE : Field := ⟨0x4, 0, 24, .rws, 0xffffff, 0, 16777215, 0⟩
def DP_LANE_UP_IN_SERVICE : Field := ⟨0x8, 0, 24, .ro, 0xffffff, 0, 16777215, 0⟩
def DP_QUEUES_FIRST_DEPTH : Field := ⟨0xC, 0, 9, .ro, 0, 0, 511, 0⟩
def DP_QUEUES_DEEP_DEPTH : Field := ⟨0xC, 16, 6, .ro, 0, 0, 63, 0⟩
def DP_QUEUES_DEEP_RUNNING : Field := ⟨0xC, 24, 4, .ro, 0, 0, 15, 0⟩
def DP_QUEUES_COMBINE_HELD : Field := ⟨0xC, 28, 4, .ro, 0, 0, 15, 0⟩
def DP_COUNTS_A_DEEP_STARTED : Field := ⟨0x10, 0, 16, .rws, 0, 0, 65535, 0⟩
def DP_COUNTS_A_DEEP_EXHAUSTED : Field := ⟨0x10, 16, 16, .rws, 0, 0, 65535, 0⟩
def DP_COUNTS_B_REFUSED : Field := ⟨0x14, 0, 16, .rws, 0, 0, 65535, 0⟩
def DP_COUNTS_B_WITHDRAWN : Field := ⟨0x14, 16, 16, .rws, 0, 0, 65535, 0⟩
def DP_CODEWORDS_LO_COUNT_LO : Field := ⟨0x18, 0, 32, .ro, 0, 0, 4294967295, 0⟩
def DP_CODEWORDS_HI_COUNT_HI : Field := ⟨0x1C, 0, 32, .ro, 0, 0, 4294967295, 0⟩
def DP_ITERS_LO_COUNT_LO : Field := ⟨0x20, 0, 32, .ro, 0, 0, 4294967295, 0⟩
def DP_ITERS_HI_COUNT_HI : Field := ⟨0x24, 0, 32, .ro, 0, 0, 4294967295, 0⟩
def DP_PROFILE_MAP_ENTRY_0 : Field := ⟨0x400, 0, 6, .rw, 0, 0, 63, 4⟩
def DP_PROFILE_MAP_ENTRY_1 : Field := ⟨0x400, 8, 6, .rw, 0, 0, 63, 4⟩
def DP_PROFILE_MAP_ENTRY_2 : Field := ⟨0x400, 16, 6, .rw, 0, 0, 63, 4⟩
def DP_PROFILE_MAP_ENTRY_3 : Field := ⟨0x400, 24, 6, .rw, 0, 0, 63, 4⟩
def SV_CTL_ENABLE : Field := ⟨0x100, 0, 1, .rw, 0, 0, 1, 0⟩
def SV_CTL_RETRACT : Field := ⟨0x100, 1, 1, .wo, 0, 0, 1, 0⟩
def SV_CTL_XCOUPLE : Field := ⟨0x100, 8, 8, .rw, 0, 0, 255, 0⟩
def SV_TARGET_TRACK : Field := ⟨0x104, 0, 20, .rw, 0, 0, 1048575, 0⟩
def SV_STATE_STATE : Field := ⟨0x108, 0, 3, .ro, 0, 0, 7, 0⟩
def SV_STATE_LOCKED : Field := ⟨0x108, 3, 1, .ro, 0, 0, 1, 0⟩
def SV_STATE_WR_OK : Field := ⟨0x108, 4, 1, .ro, 0, 0, 1, 0⟩
def SV_STATE_REGION : Field := ⟨0x108, 5, 5, .ro, 0, 0, 31, 0⟩
def SV_STATE_ZONE : Field := ⟨0x108, 10, 5, .ro, 0, 0, 31, 0⟩
def SV_STATE_WEDGE : Field := ⟨0x108, 16, 9, .ro, 0, 0, 511, 0⟩
def SV_EVENTS_LOCK_LOST : Field := ⟨0x10C, 0, 1, .w1c, 0, 0, 1, 0⟩
def SV_EVENTS_RETRACTED : Field := ⟨0x10C, 1, 1, .w1c, 0, 0, 1, 0⟩
def SV_EVENTS_PARK_UNCONFIRMED : Field := ⟨0x10C, 2, 1, .w1c, 0, 0, 1, 0⟩
def SV_EVENTS_SETTLE_TIMEOUT : Field := ⟨0x10C, 3, 1, .w1c, 0, 0, 1, 0⟩
def SV_EVENTS_LOAD_FAIL : Field := ⟨0x10C, 4, 1, .w1c, 0, 0, 1, 0⟩
def SV_EVENTS_INDEX_SLIP : Field := ⟨0x10C, 5, 1, .w1c, 0, 0, 1, 0⟩
def SV_EVENTS_FLY_LOW : Field := ⟨0x10C, 6, 1, .w1c, 0, 0, 1, 0⟩
def SV_EVENTS_SEEK_REFUSED : Field := ⟨0x10C, 7, 1, .w1c, 0, 0, 1, 0⟩
def SV_POS_FRACTION : Field := ⟨0x110, 0, 10, .ro, 0, 0, 1023, 0⟩
def SV_POS_TRACK : Field := ⟨0x110, 10, 20, .ro, 0, 0, 1048575, 0⟩
def SV_POS_PREDICTED : Field := ⟨0x110, 31, 1, .ro, 0, 0, 1, 0⟩
def SV_PES_PES : Field := ⟨0x114, 0, 16, .ro, 0, 0, 65535, 0⟩
def SV_PES_VELOCITY : Field := ⟨0x114, 16, 16, .ro, 0, 0, 65535, 0⟩
def SV_INTERVAL_F_SUM : Field := ⟨0x118, 0, 24, .ro, 0, 0, 16777215, 0⟩
def SV_INTERVAL_REF_SUM : Field := ⟨0x11C, 0, 24, .ro, 0, 0, 16777215, 0⟩
def SV_INTERVAL_K_SUM : Field := ⟨0x120, 0, 24, .ro, 0, 0, 16777215, 0⟩
def SV_SETTLE_SETTLE_RD : Field := ⟨0x124, 0, 8, .rw, 0x9a, 0, 255, 0⟩
def SV_SETTLE_SETTLE_WR : Field := ⟨0x124, 8, 8, .rw, 0x52, 0, 255, 0⟩
def SV_SETTLE_RD_WEDGES : Field := ⟨0x124, 16, 4, .rw, 2, 1, 15, 0⟩
def SV_SETTLE_WR_WEDGES : Field := ⟨0x124, 20, 4, .rw, 4, 1, 15, 0⟩
def SV_SETTLE_WR_LIMIT : Field := ⟨0x124, 24, 8, .rw, 0x66, 0, 255, 0⟩
def SV_SEEK_VMAX : Field := ⟨0x128, 0, 8, .rw, 0x60, 0, 255, 0⟩
def SV_SEEK_AMAX : Field := ⟨0x128, 8, 8, .rw, 0x30, 0, 255, 0⟩
def SV_SEEK_KA : Field := ⟨0x128, 16, 8, .rw, 0x28, 1, 255, 0⟩
def SV_SEEK_HANDOFF_TRACKS : Field := ⟨0x128, 24, 4, .rw, 2, 1, 2, 0⟩
def SV_SEEK_SETTLE_TMO : Field := ⟨0x128, 28, 4, .rw, 6, 1, 15, 0⟩
def SV_SEEK_USED_AMAX_USED : Field := ⟨0x12C, 0, 8, .ro, 0, 0, 255, 0⟩
def SV_REGION_BOUND_TRACK : Field := ⟨0x130, 0, 20, .rw, 0, 0, 1048575, 4⟩
def SV_SAFETY_FLY_PCT : Field := ⟨0x150, 0, 7, .rws, 0x50, 60, 95, 0⟩
def SV_SAFETY_RETRACT_MV : Field := ⟨0x150, 8, 8, .rws, 0x1e, 1, 255, 0⟩
def SV_SAFETY_LOAD_MV : Field := ⟨0x150, 16, 8, .rws, 0xf, 1, 255, 0⟩
def SV_JOG_JOG : Field := ⟨0x154, 0, 20, .rw, 0, 0, 1048575, 0⟩
def SV_COUNTS_A_MISSED_WEDGES : Field := ⟨0x160, 0, 16, .rws, 0, 0, 65535, 0⟩
def SV_COUNTS_A_GRAY_ERRS : Field := ⟨0x160, 16, 16, .rws, 0, 0, 65535, 0⟩
def SV_COUNTS_B_WR_INHIBITS : Field := ⟨0x164, 0, 16, .rws, 0, 0, 65535, 0⟩
def SV_COUNTS_B_LOCK_LOSSES : Field := ⟨0x164, 16, 16, .rws, 0, 0, 65535, 0⟩
def SV_COUNTS_C_RETRACTS : Field := ⟨0x168, 0, 16, .rws, 0, 0, 65535, 0⟩
def SV_COUNTS_C_LOAD_FAILS : Field := ⟨0x168, 16, 16, .rws, 0, 0, 65535, 0⟩
def SV_ZONE_START_TRACK : Field := ⟨0x200, 0, 20, .rw, 0, 0, 1048575, 8⟩
def SV_ZONE_RATE_BITS_PER_WEDGE : Field := ⟨0x204, 0, 18, .rw, 0, 0, 262143, 8⟩
def LE_CTL_ENABLE : Field := ⟨0x300, 0, 1, .rw, 0, 0, 1, 0⟩
def LE_CTL_MANUAL : Field := ⟨0x300, 1, 1, .rw, 0, 0, 1, 0⟩
def LE_CTL_HOLD_SET : Field := ⟨0x300, 2, 1, .rw, 0, 0, 1, 0⟩
def LE_CTL_RELOAD : Field := ⟨0x300, 3, 1, .wo, 0, 0, 1, 0⟩
def LE_CTL_TUNE_START : Field := ⟨0x300, 4, 1, .wo, 0, 0, 1, 0⟩
def LE_CTL_TUNE_STOP : Field := ⟨0x300, 5, 1, .wo, 0, 0, 1, 0⟩
def LE_CTL_TUNE_RULE : Field := ⟨0x300, 6, 1, .rw, 0, 0, 1, 0⟩
def LE_STATUS_SET_IN_USE : Field := ⟨0x304, 0, 4, .ro, 0, 0, 15, 0⟩
def LE_STATUS_REGION : Field := ⟨0x304, 4, 5, .ro, 0, 0, 31, 0⟩
def LE_STATUS_OUT_SAT : Field := ⟨0x304, 9, 1, .ro, 0, 0, 1, 0⟩
def LE_STATUS_I_SAT : Field := ⟨0x304, 10, 1, .ro, 0, 0, 1, 0⟩
def LE_STATUS_RAMPING : Field := ⟨0x304, 11, 1, .ro, 0, 0, 1, 0⟩
def LE_STATUS_TUNING : Field := ⟨0x304, 12, 1, .ro, 0, 0, 1, 0⟩
def LE_STATUS_NOTCH1_BYP : Field := ⟨0x304, 13, 1, .ro, 0, 0, 1, 0⟩
def LE_STATUS_NOTCH2_BYP : Field := ⟨0x304, 14, 1, .ro, 0, 0, 1, 0⟩
def LE_STATUS_SWAP_CLAMPED : Field := ⟨0x304, 16, 1, .w1c, 0, 0, 1, 0⟩
def LE_STATUS_SET_INVALID : Field := ⟨0x304, 17, 1, .w1c, 0, 0, 1, 0⟩
def LE_STATUS_TUNE_DONE : Field := ⟨0x304, 18, 1, .w1c, 0, 0, 1, 0⟩
def LE_STATUS_TUNE_ABORTED : Field := ⟨0x304, 19, 1, .w1c, 0, 0, 1, 0⟩
def LE_STATUS_TUNE_REFUSED : Field := ⟨0x304, 20, 1, .w1c, 0, 0, 1, 0⟩
def LE_STATUS_OVERRUN : Field := ⟨0x304, 21, 1, .w1c, 0, 0, 1, 0⟩
def LE_STATUS_ABORT_CAUSE : Field := ⟨0x304, 24, 3, .ro, 0, 0, 7, 0⟩
def LE_MANUAL_VALUE : Field := ⟨0x308, 0, 16, .rw, 0, 0, 65535, 0⟩
def LE_DEMAND_DEMAND : Field := ⟨0x30C, 0, 16, .ro, 0, 0, 65535, 0⟩
def LE_DEMAND_INTEG : Field := ⟨0x30C, 16, 16, .ro, 0, 0, 65535, 0⟩
def LE_SETPOINT_WORKING : Field := ⟨0x310, 0, 16, .ro, 0, 0, 65535, 0⟩
def LE_RAMP_RATE : Field := ⟨0x314, 0, 16, .rw, 0x32, 0, 65535, 0⟩
def LE_TUNE_CFG_AMP : Field := ⟨0x318, 0, 16, .rw, 0xc8, 0, 65535, 0⟩
def LE_TUNE_CFG_CYCLES : Field := ⟨0x318, 16, 4, .rw, 4, 2, 8, 0⟩
def LE_TUNE_CFG_TMO : Field := ⟨0x318, 24, 8, .rw, 0x32, 1, 255, 0⟩
def LE_TUNE_BAND_HYST : Field := ⟨0x31C, 0, 16, .rw, 0, 0, 65535, 0⟩
def LE_TUNE_BAND_LIMIT : Field := ⟨0x31C, 16, 16, .rw, 0x66, 0, 65535, 0⟩
def LE_TUNE_PERIOD_PU_NS : Field := ⟨0x320, 0, 32, .ro, 0, 0, 4294967295, 0⟩
def LE_TUNE_AMPL_A : Field := ⟨0x324, 0, 24, .ro, 0, 0, 16777215, 0⟩
def LE_TUNE_KU_WORD : Field := ⟨0x328, 0, 29, .ro, 0, 0, 536870911, 0⟩
def LE_TUNE_KP_WORD : Field := ⟨0x32C, 0, 29, .ro, 0, 0, 536870911, 0⟩
def LE_TUNE_KI_WORD : Field := ⟨0x330, 0, 29, .ro, 0, 0, 536870911, 0⟩
def LE_TUNE_KD_WORD : Field := ⟨0x334, 0, 29, .ro, 0, 0, 536870911, 0⟩
def LE_COUNTS_OVERRUNS : Field := ⟨0x338, 0, 16, .rws, 0, 0, 65535, 0⟩
def LE_COUNTS_SWAP_CLAMPS : Field := ⟨0x338, 16, 16, .rws, 0, 0, 65535, 0⟩
def LE_REGION_MAP_ENTRY_0 : Field := ⟨0x380, 0, 4, .rw, 0, 0, 15, 4⟩
def LE_REGION_MAP_ENTRY_1 : Field := ⟨0x380, 8, 4, .rw, 0, 0, 15, 4⟩
def LE_REGION_MAP_ENTRY_2 : Field := ⟨0x380, 16, 4, .rw, 0, 0, 15, 4⟩
def LE_REGION_MAP_ENTRY_3 : Field := ⟨0x380, 24, 4, .rw, 0, 0, 15, 4⟩
def LE_SET_0_KP : Field := ⟨0x400, 0, 29, .rw, 0, 0, 536870911, 32⟩
def LE_SET_4_KI : Field := ⟨0x404, 0, 29, .rw, 0, 0, 536870911, 32⟩
def LE_SET_8_KD : Field := ⟨0x408, 0, 29, .rw, 0, 0, 536870911, 32⟩
def LE_SET_C_TF : Field := ⟨0x40C, 0, 16, .rw, 0, 0, 65535, 32⟩
def LE_SET_10_OUT_LO : Field := ⟨0x410, 0, 16, .rw, 0, 0, 65535, 32⟩
def LE_SET_10_OUT_HI : Field := ⟨0x410, 16, 16, .rw, 0, 0, 65535, 32⟩
def LE_SET_14_I_LO : Field := ⟨0x414, 0, 16, .rw, 0, 0, 65535, 32⟩
def LE_SET_14_I_HI : Field := ⟨0x414, 16, 16, .rw, 0, 0, 65535, 32⟩
def LE_SET_18_N1_F0 : Field := ⟨0x418, 0, 16, .rw, 0, 0, 65535, 32⟩
def LE_SET_18_N1_ZETA_Z : Field := ⟨0x418, 16, 8, .rw, 0, 0, 255, 32⟩
def LE_SET_18_N1_ZETA_P : Field := ⟨0x418, 24, 8, .rw, 0, 0, 255, 32⟩
def LE_SET_1C_NOTCH2 : Field := ⟨0x41C, 0, 32, .rw, 0, 0, 4294967295, 32⟩
def SP_CTL_RUN : Field := ⟨0x600, 0, 1, .rws, 1, 0, 1, 0⟩
def SP_CTL_ACTIVE_BRAKE : Field := ⟨0x600, 1, 1, .rws, 0, 0, 1, 0⟩
def SP_SPEED_SET : Field := ⟨0x604, 0, 13, .rws, 0x1518, 0, 8191, 0⟩
def SP_SPEED_TARGET : Field := ⟨0x604, 16, 13, .ro, 0x1518, 0, 8191, 0⟩
def SP_STATUS_STATE : Field := ⟨0x608, 0, 4, .ro, 0, 0, 15, 0⟩
def SP_STATUS_DIR : Field := ⟨0x608, 4, 2, .ro, 0, 0, 3, 0⟩
def SP_STATUS_REGION : Field := ⟨0x608, 6, 2, .ro, 0, 0, 3, 0⟩
def SP_STATUS_SHUNT_BLIND : Field := ⟨0x608, 8, 1, .ro, 0, 0, 1, 0⟩
def SP_STATUS_CAUGHT : Field := ⟨0x608, 16, 1, .w1c, 0, 0, 1, 0⟩
def SP_STATUS_LOST_SEEN : Field := ⟨0x608, 17, 1, .w1c, 0, 0, 1, 0⟩
def SP_STATUS_SET_REFUSED : Field := ⟨0x608, 18, 1, .w1c, 0, 0, 1, 0⟩
def SP_STATUS_START_FAIL : Field := ⟨0x608, 19, 1, .w1c, 0, 0, 1, 0⟩
def SP_STATUS_OVERCURRENT : Field := ⟨0x608, 20, 1, .w1c, 0, 0, 1, 0⟩
def SP_STATUS_RUN_OVER : Field := ⟨0x608, 21, 1, .w1c, 0, 0, 1, 0⟩
def SP_STATUS_SUSPENDED : Field := ⟨0x608, 22, 1, .w1c, 0, 0, 1, 0⟩
def SP_MEAS_SPEED : Field := ⟨0x60C, 0, 13, .ro, 0, 0, 8191, 0⟩
def SP_MEAS_STEP : Field := ⟨0x60C, 13, 3, .ro, 0, 0, 7, 0⟩
def SP_MEAS_CURRENT_MA : Field := ⟨0x60C, 16, 12, .ro, 0, 0, 4095, 0⟩
def SP_POWER_POWER : Field := ⟨0x610, 0, 16, .ro, 0, 0, 65535, 0⟩
def SP_POWER_GRANT : Field := ⟨0x610, 16, 16, .ro, 0, 0, 65535, 0⟩
def SP_LIMITS_N_LO : Field := ⟨0x614, 0, 13, .ro, 0, 0, 8191, 0⟩
def SP_LIMITS_N_HI : Field := ⟨0x614, 16, 13, .ro, 0, 0, 8191, 0⟩
def SP_PWM_PERIOD : Field := ⟨0x618, 0, 12, .rws, 0x9c4, 1000, 4000, 0⟩
def SP_PWM_DEAD : Field := ⟨0x618, 16, 4, .rws, 5, 2, 15, 0⟩
def SP_SHUNT_SETTLE : Field := ⟨0x61C, 0, 8, .rws, 0x3c, 0, 255, 0⟩
def SP_SHUNT_ACQ : Field := ⟨0x61C, 8, 8, .rws, 0x1e, 0, 255, 0⟩
def SP_SHUNT_MIN_PULSE : Field := ⟨0x61C, 16, 8, .rws, 0x14, 0, 255, 0⟩
def SP_COMM_ADVANCE : Field := ⟨0x620, 0, 5, .rws, 0, 0, 16, 0⟩
def SP_COMM_ZC_WIN : Field := ⟨0x620, 8, 5, .rws, 0x10, 4, 24, 0⟩
def SP_COMM_BLANK : Field := ⟨0x620, 16, 5, .rws, 8, 2, 24, 0⟩
def SP_COMM_MISS_MAX : Field := ⟨0x620, 24, 4, .rws, 2, 1, 6, 0⟩
def SP_START_MEASURE_MS : Field := ⟨0x624, 0, 8, .rws, 0x64, 1, 255, 0⟩
def SP_START_CATCH_MIN : Field := ⟨0x624, 8, 8, .rws, 0x1e, 1, 255, 0⟩
def SP_START_ALIGN_MS : Field := ⟨0x624, 16, 8, .rws, 0x1e, 1, 255, 0⟩
def SP_START_EMF_MIN : Field := ⟨0x624, 24, 8, .rws, 0x19, 0, 255, 0⟩
def SP_OPEN_ALIGN_MA : Field := ⟨0x628, 0, 12, .rws, 0x5dc, 0, 4095, 0⟩
def SP_OPEN_OPEN_TMO : Field := ⟨0x628, 16, 4, .rws, 4, 1, 15, 0⟩
def SP_OPEN_HANDOFF_RPM : Field := ⟨0x628, 24, 8, .rws, 0x30, 0, 255, 0⟩
def SP_RETRY_RETRY_WAIT : Field := ⟨0x62C, 0, 8, .rws, 2, 1, 255, 0⟩
def SP_RETRY_RETRIES : Field := ⟨0x62C, 8, 4, .rws, 1, 0, 15, 0⟩
def SP_RETRY_START_TRIES : Field := ⟨0x62C, 12, 4, .rws, 3, 1, 15, 0⟩
def SP_COUNTS_A_STARTS : Field := ⟨0x630, 0, 16, .rws, 0, 0, 65535, 0⟩
def SP_COUNTS_A_CATCHES : Field := ⟨0x630, 16, 16, .rws, 0, 0, 65535, 0⟩
def SP_COUNTS_B_LOSSES : Field := ⟨0x634, 0, 16, .rws, 0, 0, 65535, 0⟩
def SP_COUNTS_B_RECATCHES : Field := ⟨0x634, 16, 16, .rws, 0, 0, 65535, 0⟩
def SP_COUNTS_C_MISSED_ZC : Field := ⟨0x638, 0, 16, .rws, 0, 0, 65535, 0⟩
def SP_COUNTS_C_OVERCURRENTS : Field := ⟨0x638, 16, 16, .rws, 0, 0, 65535, 0⟩
def SLUICE_BUDGET_CEILING : Field := ⟨0x0, 0, 12, .rws, 0x9c4, 0, 2500, 0⟩
def SLUICE_BUDGET_GUARD : Field := ⟨0x0, 16, 8, .rws, 0x64, 0, 255, 0⟩
def SLUICE_RUN_RUN_ALLOW : Field := ⟨0x4, 0, 12, .rws, 0x302, 0, 4095, 0⟩
def SLUICE_RUN_RUN_REF : Field := ⟨0x4, 16, 8, .rws, 0x20, 1, 255, 0⟩
def SLUICE_SPINUP_SPINUP_W : Field := ⟨0x8, 0, 8, .rws, 0x8c, 1, 255, 0⟩
def SLUICE_SPINUP_FLOOR_W : Field := ⟨0x8, 8, 8, .rws, 0x28, 0, 255, 0⟩
def SLUICE_SPINUP_MAX_SPINUPS : Field := ⟨0x8, 16, 5, .rws, 8, 1, 24, 0⟩
def SLUICE_PLAN_HOLD : Field := ⟨0xC, 0, 24, .rws, 0, 0, 16777215, 0⟩
def SLUICE_STATUS_ACTIVE : Field := ⟨0x10, 0, 5, .ro, 0, 0, 31, 0⟩
def SLUICE_STATUS_QUEUED : Field := ⟨0x10, 8, 5, .ro, 0, 0, 31, 0⟩
def SLUICE_STATUS_HOLDUP_WAIT : Field := ⟨0x10, 16, 1, .ro, 1, 0, 1, 0⟩
def SLUICE_STATUS_CAP_REACHED : Field := ⟨0x10, 24, 1, .w1c, 0, 0, 1, 0⟩
def SLUICE_STATUS_SHRUNK : Field := ⟨0x10, 25, 1, .w1c, 0, 0, 1, 0⟩
def SLUICE_STATUS_SUSPENDED : Field := ⟨0x10, 26, 1, .w1c, 0, 0, 1, 0⟩
def SLUICE_POWER_OTHER : Field := ⟨0x14, 0, 12, .ro, 0, 0, 4095, 0⟩
def SLUICE_POWER_HEADROOM : Field := ⟨0x14, 16, 12, .ro, 0, 0, 4095, 0⟩
def SLUICE_RESERVED_RUN_SUM : Field := ⟨0x18, 0, 12, .ro, 0, 0, 4095, 0⟩
def SLUICE_RESERVED_GRANT_SUM : Field := ⟨0x18, 16, 12, .ro, 0, 0, 4095, 0⟩
def SLUICE_COUNTS_ADMITTED : Field := ⟨0x1C, 0, 16, .rws, 0, 0, 65535, 0⟩
def SLUICE_COUNTS_SUSPENSIONS : Field := ⟨0x1C, 16, 16, .rws, 0, 0, 65535, 0⟩
def AS_CTL_RUN : Field := ⟨0x600, 0, 1, .rw, 0, 0, 1, 0⟩
def AS_CTL_TEST : Field := ⟨0x600, 1, 1, .wo, 0, 0, 1, 0⟩
def AS_CTL_RECOVER : Field := ⟨0x600, 2, 1, .wo, 0, 0, 1, 0⟩
def AS_STATUS_MODE : Field := ⟨0x604, 0, 2, .ro, 0, 0, 3, 0⟩
def AS_STATUS_WAITING : Field := ⟨0x604, 2, 1, .ro, 0, 0, 1, 0⟩
def AS_STATUS_WAIT_COND : Field := ⟨0x604, 3, 6, .ro, 0, 0, 63, 0⟩
def AS_STATUS_STACK : Field := ⟨0x604, 9, 4, .ro, 0, 0, 15, 0⟩
def AS_STATUS_GRANTED : Field := ⟨0x604, 13, 1, .ro, 0, 0, 1, 0⟩
def AS_STATUS_WORK_DEPTH : Field := ⟨0x604, 16, 5, .ro, 0, 0, 31, 0⟩
def AS_STATUS_DONE_DEPTH : Field := ⟨0x604, 21, 5, .ro, 0, 0, 31, 0⟩
def AS_STATUS_ILLEGAL : Field := ⟨0x604, 26, 1, .w1c, 0, 0, 1, 0⟩
def AS_STATUS_TIMEOUT : Field := ⟨0x604, 27, 1, .w1c, 0, 0, 1, 0⟩
def AS_STATUS_VIOLATION : Field := ⟨0x604, 28, 1, .w1c, 0, 0, 1, 0⟩
def AS_STATUS_WORK_FULL : Field := ⟨0x604, 29, 1, .w1c, 0, 0, 1, 0⟩
def AS_STATUS_TRAPPED : Field := ⟨0x604, 30, 1, .w1c, 0, 0, 1, 0⟩
def AS_PC_MICRO_PC : Field := ⟨0x608, 0, 13, .ro, 0, 0, 8191, 0⟩
def AS_PC_HORIZ_PC : Field := ⟨0x608, 16, 10, .ro, 0, 0, 1023, 0⟩
def AS_PC_IN_CUSTOMER : Field := ⟨0x608, 31, 1, .ro, 0, 0, 1, 0⟩
def AS_CURSOR_SECTOR : Field := ⟨0x60C, 0, 20, .ro, 0, 0, 1048575, 0⟩
def AS_CURSOR_HEAD : Field := ⟨0x60C, 20, 4, .ro, 0, 0, 15, 0⟩
def AS_CURSOR_TRACK_TRACK : Field := ⟨0x610, 0, 20, .ro, 0, 0, 1048575, 0⟩
def AS_CUR_WORK_TAG : Field := ⟨0x614, 0, 16, .ro, 0, 0, 65535, 0⟩
def AS_CUR_WORK_REACH : Field := ⟨0x614, 16, 14, .ro, 0, 0, 16383, 0⟩
def AS_LOOP_COUNTER : Field := ⟨0x618, 0, 16, .ro, 0, 0, 65535, 0⟩
def AS_LOOP_CUST_FLAG : Field := ⟨0x618, 16, 8, .ro, 0, 0, 255, 0⟩
def AS_WAIT_TMO_HANDLER : Field := ⟨0x620, 0, 13, .rw, 0, 0, 8191, 4⟩
def AS_WAIT_TMO_UNIT : Field := ⟨0x620, 16, 2, .rw, 0, 0, 3, 4⟩
def AS_WORK_WORD : Field := ⟨0x640, 0, 32, .rw, 0, 0, 4294967295, 4⟩
def AS_WORK_GO_GO : Field := ⟨0x660, 0, 1, .wo, 0, 0, 1, 0⟩
def AS_DONE_TAG : Field := ⟨0x664, 0, 16, .ro, 0, 0, 65535, 0⟩
def AS_DONE_STATUS : Field := ⟨0x664, 16, 8, .ro, 0, 0, 255, 0⟩
def AS_DONE_VALID : Field := ⟨0x664, 24, 1, .ro, 0, 0, 1, 0⟩
def AS_WITHDRAW_TAG : Field := ⟨0x668, 0, 16, .wo, 0, 0, 65535, 0⟩
def AS_READ_DEADLINE_DEADLINE : Field := ⟨0x66C, 0, 20, .rw, 0x2b67, 0, 1048575, 0⟩
def AS_CUST_ARM : Field := ⟨0x670, 0, 1, .wo, 0, 0, 1, 0⟩
def AS_CUST_ARMED : Field := ⟨0x670, 1, 1, .ro, 0, 0, 1, 0⟩
def AS_CUST_DISARM : Field := ⟨0x670, 2, 1, .wo, 0, 0, 1, 0⟩
def AS_CUST_ARM_FAILED : Field := ⟨0x670, 3, 1, .w1c, 0, 0, 1, 0⟩
def AS_CUST_CRC_EXPECT : Field := ⟨0x674, 0, 32, .rw, 0, 0, 4294967295, 0⟩
def AS_FLAGS_SW_FLAG : Field := ⟨0x678, 0, 6, .rw, 0, 0, 63, 0⟩
def AS_HEAD_0_WR_CUR : Field := ⟨0x680, 0, 16, .rw, 0, 0, 65535, 8⟩
def AS_HEAD_0_HEAT : Field := ⟨0x680, 16, 16, .rw, 0, 0, 65535, 8⟩
def AS_HEAD_4_JOG : Field := ⟨0x684, 0, 20, .rw, 0, 0, 1048575, 8⟩
def AS_COUNTS_A_ITEMS : Field := ⟨0x6E0, 0, 16, .rws, 0, 0, 65535, 0⟩
def AS_COUNTS_A_TIMEOUTS : Field := ⟨0x6E0, 16, 16, .rws, 0, 0, 65535, 0⟩
def AS_COUNTS_B_VIOLATIONS : Field := ⟨0x6E4, 0, 16, .rws, 0, 0, 65535, 0⟩
def AS_COUNTS_B_ILLEGALS : Field := ⟨0x6E4, 16, 16, .rws, 0, 0, 65535, 0⟩
def LEDGER_CTL_AGE_EN : Field := ⟨0x0, 0, 1, .rws, 1, 0, 1, 0⟩
def LEDGER_CTL_INVENTORY : Field := ⟨0x0, 1, 1, .wo, 0, 0, 1, 0⟩
def LEDGER_CTL_PORT : Field := ⟨0x0, 8, 5, .rw, 0, 0, 31, 0⟩
def LEDGER_STATUS_INV_BUSY : Field := ⟨0x4, 0, 24, .ro, 0, 0, 16777215, 0⟩
def LEDGER_STATUS_MIRROR_BEHIND : Field := ⟨0x4, 24, 1, .ro, 0, 0, 1, 0⟩
def LEDGER_STATUS_REBUILDING : Field := ⟨0x4, 25, 1, .ro, 0, 0, 1, 0⟩
def LEDGER_STATUS_RELOADED : Field := ⟨0x4, 30, 1, .w1c, 0, 0, 1, 0⟩
def LEDGER_STATUS_REFUSED : Field := ⟨0x4, 31, 1, .w1c, 0, 0, 1, 0⟩
def LEDGER_CMD_REACH : Field := ⟨0x10, 0, 14, .wo, 0, 0, 16383, 0⟩
def LEDGER_CMD_ACTUATOR : Field := ⟨0x10, 14, 6, .wo, 0, 0, 63, 0⟩
def LEDGER_CMD_OP : Field := ⟨0x10, 20, 3, .wo, 0, 0, 7, 0⟩
def LEDGER_CMD_RESULT_RESULT : Field := ⟨0x14, 0, 2, .ro, 0, 0, 3, 0⟩
def LEDGER_CMD_RESULT_DONE : Field := ⟨0x14, 2, 1, .ro, 0, 0, 1, 0⟩
def LEDGER_CFG_VERIFY_DAYS : Field := ⟨0x20, 0, 16, .rws, 0xb6, 1, 65535, 0⟩
def LEDGER_CFG_TAIL : Field := ⟨0x20, 16, 8, .rws, 0x40, 0, 255, 0⟩
def LEDGER_CFG_JOURNAL_AGE : Field := ⟨0x20, 24, 8, .rws, 0x1e, 1, 255, 0⟩
def LEDGER_GEOM_FIRST_TRACK : Field := ⟨0x24, 0, 20, .rws, 0x40, 0, 1048575, 0⟩
def LEDGER_GEOM_GUARD : Field := ⟨0x24, 20, 4, .rws, 3, 1, 15, 0⟩
def LEDGER_GEOM_SKEW : Field := ⟨0x24, 24, 8, .rws, 0x28, 0, 255, 0⟩
def LEDGER_MARGIN_MARGIN_TALLY : Field := ⟨0x28, 0, 16, .rws, 0x40, 0, 65535, 0⟩
def LEDGER_MARGIN_RETIRE_TALLY : Field := ⟨0x28, 16, 16, .rws, 0x400, 0, 65535, 0⟩
def LEDGER_COUNT_ENTRIES : Field := ⟨0x40, 0, 19, .ro, 0, 0, 524287, 4⟩
def LEDGER_DUE_ENTRIES : Field := ⟨0x58, 0, 19, .ro, 0, 0, 524287, 0⟩
def LEDGER_REWRITE_ENTRIES : Field := ⟨0x5C, 0, 19, .ro, 0, 0, 524287, 0⟩
def LEDGER_DEF_A_ACTUATOR : Field := ⟨0x80, 0, 6, .rw, 0, 0, 63, 0⟩
def LEDGER_DEF_A_REACH : Field := ⟨0x80, 6, 14, .rw, 0, 0, 16383, 0⟩
def LEDGER_DEF_B_SLOT : Field := ⟨0x84, 0, 20, .rw, 0, 0, 1048575, 0⟩
def LEDGER_DEF_C_FIRST_BIT : Field := ⟨0x88, 0, 16, .rw, 0, 0, 65535, 0⟩
def LEDGER_DEF_C_LENGTH : Field := ⟨0x88, 16, 13, .rw, 0, 0, 8191, 0⟩
def LEDGER_DEF_GO_OP : Field := ⟨0x8C, 0, 2, .wo, 0, 0, 3, 0⟩
def LEDGER_DEF_STATUS_WINDOWS : Field := ⟨0x90, 0, 15, .ro, 0, 0, 32767, 0⟩
def LEDGER_DEF_STATUS_FULL : Field := ⟨0x90, 16, 1, .w1c, 0, 0, 1, 0⟩
def LEDGER_DEF_STATUS_NOT_FOUND : Field := ⟨0x90, 17, 1, .w1c, 0, 0, 1, 0⟩
def LEDGER_SERIAL_SERIAL : Field := ⟨0x100, 0, 32, .ro, 0, 0, 4294967295, 4⟩
def SR_CTL_ENGINE_EN : Field := ⟨0x0, 0, 2, .rws, 3, 0, 3, 0⟩
def SR_CTL_LANE_EN : Field := ⟨0x0, 8, 8, .rws, 0xff, 0, 255, 0⟩
def SR_STATUS_ENGINE_UP : Field := ⟨0x4, 0, 2, .ro, 3, 0, 3, 0⟩
def SR_STATUS_LANE_UP : Field := ⟨0x4, 8, 8, .ro, 0xff, 0, 255, 0⟩
def SR_STATUS_JOBS_WAITING : Field := ⟨0x4, 16, 5, .ro, 0, 0, 31, 0⟩
def SR_CLASS_0_K : Field := ⟨0x10, 0, 5, .rws, 0x14, 0, 31, 8⟩
def SR_CLASS_0_M : Field := ⟨0x10, 8, 3, .rws, 4, 0, 7, 8⟩
def SR_CLASS_0_WMIN : Field := ⟨0x10, 12, 3, .rws, 2, 0, 7, 8⟩
def SR_CLASS_0_VALID : Field := ⟨0x10, 31, 1, .rws, 1, 0, 1, 8⟩
def SR_CLASS_4_HDAS : Field := ⟨0x14, 0, 24, .rws, 0xffffff, 0, 16777215, 8⟩
def SR_RA_EXTRA : Field := ⟨0x40, 0, 3, .rws, 0, 0, 7, 0⟩
def SR_RA_ENABLE : Field := ⟨0x40, 3, 1, .rws, 1, 0, 1, 0⟩
def SR_RA_START_MS : Field := ⟨0x40, 4, 8, .rws, 0x32, 1, 255, 0⟩
def SR_RA_DEADLINE : Field := ⟨0x40, 12, 20, .rws, 0, 0, 1048575, 0⟩
def SR_REBUILD_MOVER : Field := ⟨0x50, 0, 5, .rws, 0x1f, 0, 31, 0⟩
def SR_REBUILD_SHARE : Field := ⟨0x50, 8, 8, .rws, 0xc, 1, 255, 0⟩
def SR_REBUILD_PAUSE : Field := ⟨0x50, 16, 1, .rw, 0, 0, 1, 0⟩
def SR_REBUILD_STATUS_PORTS : Field := ⟨0x54, 0, 24, .ro, 0, 0, 16777215, 0⟩
def SR_REBUILD_STATUS_DONE : Field := ⟨0x54, 31, 1, .w1c, 0, 0, 1, 0⟩
def SR_LEFT_LO_BYTES_LO : Field := ⟨0x58, 0, 32, .ro, 0, 0, 4294967295, 0⟩
def SR_LEFT_HI_BYTES_HI : Field := ⟨0x5C, 0, 32, .ro, 0, 0, 4294967295, 0⟩
def SR_DEBT_ENTRIES : Field := ⟨0x60, 0, 32, .ro, 0, 0, 4294967295, 0⟩
def SR_AUDIT_AUDIT_DAYS : Field := ⟨0x70, 0, 16, .rws, 0x2da, 1, 65535, 0⟩
def SR_AUDIT_SHARE : Field := ⟨0x70, 16, 8, .rws, 1, 1, 255, 0⟩
def SR_AUDIT_ENABLE : Field := ⟨0x70, 31, 1, .rws, 1, 0, 1, 0⟩
def SR_AUDIT_POS_LO_OBJECT_LO : Field := ⟨0x74, 0, 32, .ro, 0, 0, 4294967295, 0⟩
def SR_AUDIT_POS_HI_OBJECT_HI : Field := ⟨0x78, 0, 8, .ro, 0, 0, 255, 0⟩
def SR_COUNTS_A_RA_SECTORS : Field := ⟨0x80, 0, 16, .rws, 0, 0, 65535, 0⟩
def SR_COUNTS_A_RA_LOST : Field := ⟨0x80, 16, 16, .rws, 0, 0, 65535, 0⟩
def SR_COUNTS_B_LATE_DECODES : Field := ⟨0x84, 0, 16, .rws, 0, 0, 65535, 0⟩
def SR_COUNTS_B_STRIPES_REBUILT : Field := ⟨0x84, 16, 16, .rws, 0, 0, 65535, 0⟩
def SR_COUNTS_C_PARITY_MISMATCH : Field := ⟨0x88, 0, 8, .rws, 0, 0, 255, 0⟩
def SR_COUNTS_C_DAMAGED_OBJECTS : Field := ⟨0x88, 8, 8, .rws, 0, 0, 255, 0⟩
def SR_COUNTS_C_REFUSED_STORES : Field := ⟨0x88, 16, 16, .rws, 0, 0, 65535, 0⟩
def HASH_BYTES_LO_COUNT_LO : Field := ⟨0x100, 0, 32, .ro, 0, 0, 4294967295, 0⟩
def HASH_BYTES_HI_COUNT_HI : Field := ⟨0x104, 0, 32, .ro, 0, 0, 4294967295, 0⟩
def HASH_MISMATCH_FETCHES : Field := ⟨0x108, 0, 16, .rws, 0, 0, 65535, 0⟩
def HASH_MISMATCH_AUDITS : Field := ⟨0x108, 16, 16, .rws, 0, 0, 65535, 0⟩
def POOL_STATUS_READY : Field := ⟨0x0, 0, 1, .ro, 0, 0, 1, 0⟩
def POOL_STATUS_SCRUBBING : Field := ⟨0x0, 1, 1, .ro, 0, 0, 1, 0⟩
def POOL_STATUS_LOG_USED : Field := ⟨0x0, 8, 6, .ro, 0, 0, 63, 0⟩
def POOL_STATUS_CE_SEEN : Field := ⟨0x0, 16, 1, .w1c, 0, 0, 1, 0⟩
def POOL_STATUS_UE_SEEN : Field := ⟨0x0, 17, 1, .w1c, 0, 0, 1, 0⟩
def POOL_STATUS_LOG_OVERFLOW : Field := ⟨0x0, 18, 1, .w1c, 0, 0, 1, 0⟩
def POOL_CTL_SCRUB_EN : Field := ⟨0x4, 0, 1, .rws, 1, 0, 1, 0⟩
def POOL_CTL_SCRUB_HOURS : Field := ⟨0x4, 8, 8, .rws, 0x18, 1, 255, 0⟩
def POOL_CTL_LOG_CLEAR : Field := ⟨0x4, 16, 1, .wo, 0, 0, 1, 0⟩
def POOL_ERR_COUNTS_CE : Field := ⟨0x8, 0, 16, .rws, 0, 0, 65535, 0⟩
def POOL_ERR_COUNTS_UE : Field := ⟨0x8, 16, 16, .rws, 0, 0, 65535, 0⟩
def POOL_SPARE_ROWS : Field := ⟨0xC, 0, 8, .ro, 0, 0, 255, 0⟩
def POOL_SPARE_LANES : Field := ⟨0xC, 8, 6, .ro, 0, 0, 63, 0⟩
def POOL_SPARE_SPARE_FAIL : Field := ⟨0xC, 16, 1, .ro, 0, 0, 1, 0⟩
def POOL_DIR_CTL_MODE : Field := ⟨0x20, 0, 1, .rws, 0, 0, 1, 0⟩
def POOL_DIR_CTL_CARVE : Field := ⟨0x20, 8, 5, .rws, 0, 0, 16, 0⟩
def POOL_DIR_CTL_MOVER : Field := ⟨0x20, 13, 5, .rws, 0x1e, 0, 31, 0⟩
def POOL_DIR_CTL_SEQ_CELLS : Field := ⟨0x20, 18, 5, .rws, 0x10, 2, 31, 0⟩
def POOL_DIR_CTL_SEQ_WAYS : Field := ⟨0x20, 23, 5, .rws, 8, 1, 16, 0⟩
def POOL_DIR_CTL_OFFER_CLEAN : Field := ⟨0x20, 31, 1, .rws, 1, 0, 1, 0⟩
def POOL_DIR_STATUS_MODE_IN_FORCE : Field := ⟨0x24, 0, 1, .ro, 0, 0, 1, 0⟩
def POOL_DIR_STATUS_CARVE_IN_FORCE : Field := ⟨0x24, 8, 5, .ro, 0, 0, 31, 0⟩
def POOL_DIR_STATUS_SEGMENTS : Field := ⟨0x24, 16, 12, .ro, 0x600, 0, 4095, 0⟩
def POOL_DIR_SEQ_LO_ACTIVE_LO : Field := ⟨0x28, 0, 32, .ro, 0, 0, 4294967295, 0⟩
def POOL_DIR_SEQ_HI_ACTIVE_HI : Field := ⟨0x2C, 0, 16, .ro, 0, 0, 65535, 0⟩
def POOL_DIR_HITS_HITS : Field := ⟨0x30, 0, 32, .rws, 0, 0, 4294967295, 0⟩
def POOL_DIR_MISSES_MISSES : Field := ⟨0x34, 0, 32, .rws, 0, 0, 4294967295, 0⟩
def POOL_DIR_COUNTS_WRITE_STALLS : Field := ⟨0x38, 0, 16, .rws, 0, 0, 65535, 0⟩
def POOL_DIR_COUNTS_ALLOC_WAITS : Field := ⟨0x38, 16, 16, .rws, 0, 0, 65535, 0⟩
def POOL_DIR_OFFERS_DECLINED : Field := ⟨0x3C, 0, 16, .rws, 0, 0, 65535, 0⟩
def POOL_DIR_OFFERS_SEQ_DISCARDS : Field := ⟨0x3C, 16, 16, .rws, 0, 0, 65535, 0⟩
def POOL_DIR_RATE_SHARE : Field := ⟨0x40, 0, 8, .rws, 0x18, 1, 255, 0⟩
def POOL_DIR_RATE_DEPTH : Field := ⟨0x40, 8, 4, .rws, 4, 1, 15, 0⟩
def POOL_LOG_0_ADDR : Field := ⟨0x100, 0, 32, .ro, 0, 0, 4294967295, 16⟩
def POOL_LOG_4_SYNDROME : Field := ⟨0x104, 0, 16, .ro, 0, 0, 65535, 16⟩
def POOL_LOG_4_COUNT : Field := ⟨0x104, 16, 8, .ro, 0, 0, 255, 16⟩
def POOL_LOG_4_UE : Field := ⟨0x104, 24, 1, .ro, 0, 0, 1, 16⟩
def POOL_LOG_4_ADDR_SUSPECT : Field := ⟨0x104, 25, 1, .ro, 0, 0, 1, 16⟩
def POOL_LOG_4_VALID : Field := ⟨0x104, 31, 1, .ro, 0, 0, 1, 16⟩
def POOL_LOG_8_LAST : Field := ⟨0x108, 0, 32, .ro, 0, 0, 4294967295, 16⟩
def MV_SRC_LO_ADDR_LO : Field := ⟨0x0, 0, 32, .rw, 0, 0, 4294967295, 0⟩
def MV_SRC_HI_ADDR_HI : Field := ⟨0x4, 0, 4, .rw, 0, 0, 15, 0⟩
def MV_SRC_HI_SPACE : Field := ⟨0x4, 28, 4, .rw, 0, 0, 15, 0⟩
def MV_DST_LO_ADDR_LO : Field := ⟨0x8, 0, 32, .rw, 0, 0, 4294967295, 0⟩
def MV_DST_HI_ADDR_HI : Field := ⟨0xC, 0, 4, .rw, 0, 0, 15, 0⟩
def MV_DST_HI_SPACE : Field := ⟨0xC, 28, 4, .rw, 0, 0, 15, 0⟩
def MV_COUNT_BYTES : Field := ⟨0x10, 0, 32, .rw, 0, 0, 4294967295, 0⟩
def MV_CTL_PRIO : Field := ⟨0x14, 0, 3, .rw, 0, 0, 7, 0⟩
def MV_CTL_HASH_EN : Field := ⟨0x14, 3, 1, .rw, 0, 0, 1, 0⟩
def MV_CTL_HASH_LANE : Field := ⟨0x14, 4, 3, .rw, 0, 0, 7, 0⟩
def MV_CTL_IRQ_EN : Field := ⟨0x14, 8, 1, .rw, 1, 0, 1, 0⟩
def MV_GO_GO : Field := ⟨0x18, 0, 1, .wo, 0, 0, 1, 0⟩
def MV_GO_WITHDRAW : Field := ⟨0x18, 1, 1, .wo, 0, 0, 1, 0⟩
def MV_STATUS_RUNNING : Field := ⟨0x1C, 0, 1, .ro, 0, 0, 1, 0⟩
def MV_STATUS_QUEUED : Field := ⟨0x1C, 1, 3, .ro, 0, 0, 7, 0⟩
def MV_STATUS_LAST : Field := ⟨0x1C, 4, 2, .ro, 0, 0, 3, 0⟩
def MV_STATUS_DONE : Field := ⟨0x1C, 16, 1, .w1c, 0, 0, 1, 0⟩
def MV_STATUS_ERROR : Field := ⟨0x1C, 17, 1, .w1c, 0, 0, 1, 0⟩
def MV_STATUS_REFUSED_SEEN : Field := ⟨0x1C, 18, 1, .w1c, 0, 0, 1, 0⟩
def MV_ERR_LO_ADDR_LO : Field := ⟨0x20, 0, 32, .ro, 0, 0, 4294967295, 0⟩
def MV_ERR_HI_ADDR_HI : Field := ⟨0x24, 0, 4, .ro, 0, 0, 15, 0⟩
def MV_RATE_SHARE : Field := ⟨0x28, 0, 8, .rws, 0, 0, 255, 0⟩
def MV_RATE_DEPTH : Field := ⟨0x28, 8, 4, .rws, 4, 1, 15, 0⟩
def MV_BYTES_LO_COUNT_LO : Field := ⟨0x2C, 0, 32, .ro, 0, 0, 4294967295, 0⟩
def MV_BYTES_HI_COUNT_HI : Field := ⟨0x30, 0, 32, .ro, 0, 0, 4294967295, 0⟩
def MV_SUMMARY_BUSY : Field := ⟨0xF000, 0, 32, .ro, 0, 0, 4294967295, 0⟩
def RSV_STATUS_READY : Field := ⟨0x0, 0, 1, .ro, 0, 0, 1, 0⟩
def RSV_STATUS_OUT_OF_SERVICE : Field := ⟨0x0, 1, 1, .ro, 0, 0, 1, 0⟩
def RSV_STATUS_READ_ONLY : Field := ⟨0x0, 2, 1, .ro, 0, 0, 1, 0⟩
def RSV_STATUS_STAGING_LOW : Field := ⟨0x0, 3, 1, .ro, 0, 0, 1, 0⟩
def RSV_STATUS_GC_ACTIVE : Field := ⟨0x0, 4, 1, .ro, 0, 0, 1, 0⟩
def RSV_STATUS_THROTTLED : Field := ⟨0x0, 5, 1, .ro, 0, 0, 1, 0⟩
def RSV_STATUS_DIES_FAILED : Field := ⟨0x0, 8, 7, .ro, 0, 0, 127, 0⟩
def RSV_STATUS_PARITY_USED : Field := ⟨0x0, 16, 1, .w1c, 0, 0, 1, 0⟩
def RSV_STATUS_UE_SEEN : Field := ⟨0x0, 17, 1, .w1c, 0, 0, 1, 0⟩
def RSV_CTL_GC_LOW : Field := ⟨0x4, 0, 8, .rws, 8, 2, 64, 0⟩
def RSV_CTL_GC_HIGH : Field := ⟨0x4, 8, 8, .rws, 0x10, 0, 255, 0⟩
def RSV_CTL_WL_INTERVAL : Field := ⟨0x4, 16, 8, .rws, 0x10, 1, 255, 0⟩
def RSV_SPACE_STAGE_FREE_GIB : Field := ⟨0x8, 0, 16, .ro, 0, 0, 65535, 0⟩
def RSV_SPACE_CLEAN_FREE_GIB : Field := ⟨0x8, 16, 16, .ro, 0, 0, 65535, 0⟩
def RSV_PACE_STAGE_PACE_GIB : Field := ⟨0xC, 0, 16, .rws, 0x40, 16, 1024, 0⟩
def RSV_PACE_STAGE_RESUME_GIB : Field := ⟨0xC, 16, 16, .rws, 0x80, 0, 65535, 0⟩
def RSV_BUDGET_CLEAN_GIB_DAY : Field := ⟨0x10, 0, 16, .rws, 0x800, 0, 65535, 0⟩
def RSV_BUDGET_CLEAN_GIB_TODAY : Field := ⟨0x10, 16, 16, .ro, 0, 0, 65535, 0⟩
def RSV_READ_VERIFY_BITS : Field := ⟨0x14, 0, 8, .rws, 0x28, 1, 120, 0⟩
def RSV_READ_RETRY_STEPS : Field := ⟨0x14, 8, 4, .rws, 7, 0, 7, 0⟩
def RSV_READ_THROTTLE_C : Field := ⟨0x14, 16, 8, .rws, 0x50, 60, 95, 0⟩
def RSV_HEALTH_SPARE_PCT : Field := ⟨0x18, 0, 8, .ro, 0, 0, 255, 0⟩
def RSV_HEALTH_WEAR_PCT : Field := ⟨0x18, 8, 8, .ro, 0, 0, 255, 0⟩
def RSV_HEALTH_TEMP_MAX : Field := ⟨0x18, 16, 8, .ro, 0, 0, 255, 0⟩
def RSV_WARN_SPARE_WARN : Field := ⟨0x1C, 0, 8, .rws, 0xa, 0, 255, 0⟩
def RSV_WARN_WEAR_WARN : Field := ⟨0x1C, 8, 8, .rws, 0x50, 0, 255, 0⟩
def RSV_WARN_TEMP_WARN : Field := ⟨0x1C, 16, 8, .rws, 0x55, 0, 255, 0⟩
def RSV_EVENTS_SPARE_LOW : Field := ⟨0x20, 0, 1, .w1c, 0, 0, 1, 0⟩
def RSV_EVENTS_WEAR_HIGH : Field := ⟨0x20, 1, 1, .w1c, 0, 0, 1, 0⟩
def RSV_EVENTS_TEMP_HIGH : Field := ⟨0x20, 2, 1, .w1c, 0, 0, 1, 0⟩
def RSV_EVENTS_DIE_LOST : Field := ⟨0x20, 3, 1, .w1c, 0, 0, 1, 0⟩
def RSV_EVENTS_UE_CLOSED : Field := ⟨0x20, 4, 1, .w1c, 0, 0, 1, 0⟩
def RSV_EVENTS_PROGRAM_FAIL : Field := ⟨0x20, 5, 1, .w1c, 0, 0, 1, 0⟩
def RSV_EVENTS_OUT : Field := ⟨0x20, 6, 1, .w1c, 0, 0, 1, 0⟩
def RSV_COUNTS_A_PARITY_REBUILDS : Field := ⟨0x24, 0, 16, .rws, 0, 0, 65535, 0⟩
def RSV_COUNTS_A_RETRIES_OK : Field := ⟨0x24, 16, 16, .rws, 0, 0, 65535, 0⟩
def RSV_COUNTS_B_UNCORRECTABLE : Field := ⟨0x28, 0, 16, .rws, 0, 0, 65535, 0⟩
def RSV_COUNTS_B_PROGRAM_FAILS : Field := ⟨0x28, 16, 16, .rws, 0, 0, 65535, 0⟩
def RSV_COUNTS_C_ERASE_FAILS : Field := ⟨0x2C, 0, 16, .rws, 0, 0, 65535, 0⟩
def RSV_COUNTS_C_BLOCKS_RETIRED : Field := ⟨0x2C, 16, 16, .rws, 0, 0, 65535, 0⟩
def RSV_DECLINES_DECLINED_FULL : Field := ⟨0x30, 0, 16, .rws, 0, 0, 65535, 0⟩
def RSV_DECLINES_DECLINED_BUDGET : Field := ⟨0x30, 16, 16, .rws, 0, 0, 65535, 0⟩
def RSV_DIES_LO_FAILED_LO : Field := ⟨0x40, 0, 32, .ro, 0, 0, 4294967295, 0⟩
def RSV_DIES_HI_FAILED_HI : Field := ⟨0x44, 0, 32, .ro, 0, 0, 4294967295, 0⟩
def RSV_PROG_LO_COUNT_LO : Field := ⟨0x48, 0, 32, .ro, 0, 0, 4294967295, 0⟩
def RSV_PROG_HI_COUNT_HI : Field := ⟨0x4C, 0, 32, .ro, 0, 0, 4294967295, 0⟩
def RSV_ACCEPT_LO_COUNT_LO : Field := ⟨0x50, 0, 32, .ro, 0, 0, 4294967295, 0⟩
def RSV_ACCEPT_HI_COUNT_HI : Field := ⟨0x54, 0, 32, .ro, 0, 0, 4294967295, 0⟩
def RSV_DISCARD_LO_TU_LO : Field := ⟨0x60, 0, 32, .rw, 0, 0, 4294967295, 0⟩
def RSV_DISCARD_HI_TU_HI : Field := ⟨0x64, 0, 4, .rw, 0, 0, 15, 0⟩
def RSV_DISCARD_LEN_TUS : Field := ⟨0x68, 0, 32, .rw, 0, 0, 4294967295, 0⟩
def RSV_DISCARD_GO_GO : Field := ⟨0x6C, 0, 1, .wo, 0, 0, 1, 0⟩
def RSV_VT_SET_0_LEVELS_1_4 : Field := ⟨0x400, 0, 32, .rw, 0, 0, 4294967295, 8⟩
def RSV_VT_SET_4_LEVELS_5_7 : Field := ⟨0x404, 0, 24, .rw, 0, 0, 16777215, 8⟩
def HP_LINK_UP : Field := ⟨0x0, 0, 1, .ro, 0, 0, 1, 0⟩
def HP_LINK_MTU_JUMBO : Field := ⟨0x0, 1, 1, .ro, 0, 0, 1, 0⟩
def HP_LINK_CHANGED : Field := ⟨0x0, 31, 1, .w1c, 0, 0, 1, 0⟩
def HP_CONN_IO_QUEUES : Field := ⟨0x4, 0, 8, .ro, 0, 0, 255, 0⟩
def HP_CONN_ADMIN : Field := ⟨0x4, 8, 1, .ro, 0, 0, 1, 0⟩
def HP_CONN_ENABLED : Field := ⟨0x4, 9, 1, .ro, 0, 0, 1, 0⟩
def HP_CONN_READY : Field := ⟨0x4, 10, 1, .ro, 0, 0, 1, 0⟩
def HP_CONN_PROCESSING_PAUSED : Field := ⟨0x4, 11, 1, .ro, 0, 0, 1, 0⟩
def HP_ERRS_RX_DROPS : Field := ⟨0x8, 0, 16, .rws, 0, 0, 65535, 0⟩
def HP_ERRS_DIGEST_ERRS : Field := ⟨0x8, 16, 16, .rws, 0, 0, 65535, 0⟩
def HP_CMDS_LO_COUNT_LO : Field := ⟨0x10, 0, 32, .ro, 0, 0, 4294967295, 0⟩
def HP_CMDS_HI_COUNT_HI : Field := ⟨0x14, 0, 32, .ro, 0, 0, 4294967295, 0⟩
def QE_CTL_IOQ_MAX : Field := ⟨0x0, 0, 8, .rws, 0x80, 1, 128, 0⟩
def QE_CTL_DEPTH_MAX : Field := ⟨0x0, 16, 11, .rws, 0x400, 16, 1024, 0⟩
def QE_LOCKS_IN_USE : Field := ⟨0x4, 0, 13, .ro, 0, 0, 8191, 0⟩
def QE_LOCKS_WAITING : Field := ⟨0x4, 16, 13, .ro, 0, 0, 8191, 0⟩
def QE_LOCK_COUNTS_STALLS : Field := ⟨0x8, 0, 16, .rws, 0, 0, 65535, 0⟩
def QE_LOCK_COUNTS_FULL_WAITS : Field := ⟨0x8, 16, 16, .rws, 0, 0, 65535, 0⟩
def QE_COMMIT_LO_SEQ_LO : Field := ⟨0x10, 0, 32, .ro, 0, 0, 4294967295, 0⟩
def QE_COMMIT_HI_SEQ_HI : Field := ⟨0x14, 0, 32, .ro, 0, 0, 4294967295, 0⟩
def QE_DURABLE_LO_SEQ_LO : Field := ⟨0x18, 0, 32, .ro, 0, 0, 4294967295, 0⟩
def QE_DURABLE_HI_SEQ_HI : Field := ⟨0x1C, 0, 32, .ro, 0, 0, 4294967295, 0⟩
def ASY_STATUS_TIME_VALID : Field := ⟨0x0, 0, 1, .ro, 0, 0, 1, 0⟩
def ASY_STATUS_DISAGREE : Field := ⟨0x0, 1, 1, .ro, 0, 0, 1, 0⟩
def ASY_STATUS_SLEWING : Field := ⟨0x0, 2, 1, .ro, 0, 0, 1, 0⟩
def ASY_STATUS_LONG_SLEW : Field := ⟨0x0, 3, 1, .ro, 0, 0, 1, 0⟩
def ASY_STATUS_SEAL_BROKEN : Field := ⟨0x0, 4, 1, .ro, 0, 0, 1, 0⟩
def ASY_STATUS_CELL_LOW : Field := ⟨0x0, 5, 1, .ro, 0, 0, 1, 0⟩
def ASY_STATUS_BANK_LOST : Field := ⟨0x0, 6, 1, .ro, 0, 0, 1, 0⟩
def ASY_STATUS_SOURCE : Field := ⟨0x0, 8, 3, .ro, 0, 0, 7, 0⟩
def ASY_OFFSET_D : Field := ⟨0x4, 0, 32, .ro, 0, 0, 4294967295, 0⟩
def ASY_RATE_RATE_PPB : Field := ⟨0x8, 0, 32, .ro, 0, 0, 4294967295, 0⟩
def ASY_UTC_TAI_UTC : Field := ⟨0xC, 0, 16, .ro, 0x25, 0, 65535, 0⟩
def ASY_UTC_FROM_PTP : Field := ⟨0xC, 16, 1, .ro, 0, 0, 1, 0⟩
def ASY_SW_VERSION : Field := ⟨0x10, 0, 16, .ro, 0, 0, 65535, 0⟩
def ASY_SW_CRC_CRC : Field := ⟨0x14, 0, 32, .ro, 0, 0, 4294967295, 0⟩
def ASY_PARAM_INTERVAL_S : Field := ⟨0x18, 0, 12, .ro, 0x384, 0, 4095, 0⟩
def ASY_PARAM_STEP_AFTER_H : Field := ⟨0x18, 16, 8, .ro, 0x18, 0, 255, 0⟩
def ASY_CELL_CELL_MV : Field := ⟨0x1C, 0, 16, .ro, 0, 0, 65535, 0⟩
def ASY_METER_SEQ_SEQ : Field := ⟨0x20, 0, 32, .ro, 0, 0, 4294967295, 0⟩
def ASY_MARK_SEQ_SEQ : Field := ⟨0x24, 0, 32, .ro, 0, 0, 4294967295, 0⟩
def ASY_ENERGY_LO_MJ_LO : Field := ⟨0x100, 0, 32, .ro, 0, 0, 4294967295, 8⟩
def ASY_ENERGY_HI_MJ_HI : Field := ⟨0x104, 0, 32, .ro, 0, 0, 4294967295, 8⟩
def ASY_POWER_POWER : Field := ⟨0x200, 0, 16, .ro, 0, 0, 65535, 4⟩
def ASY_POWER_OVERRANGE : Field := ⟨0x200, 16, 1, .ro, 0, 0, 1, 4⟩
def ASY_BANK_WORD : Field := ⟨0x300, 0, 32, .ro, 0, 0, 4294967295, 4⟩
def RST_STATUS_LAST_CAUSE : Field := ⟨0x0, 0, 8, .ro, 0, 0, 255, 0⟩
def RST_STATUS_PHASE : Field := ⟨0x0, 8, 3, .ro, 0, 0, 7, 0⟩
def RST_STATUS_WDOG_STOPPED : Field := ⟨0x0, 11, 1, .ro, 0, 0, 1, 0⟩
def RST_STATUS_EARLY_RELEASE : Field := ⟨0x0, 16, 1, .w1c, 0, 0, 1, 0⟩
def RST_STATUS_WDOG_FIRED : Field := ⟨0x0, 17, 1, .w1c, 0, 0, 1, 0⟩
def RST_STATUS_IGNORED_RESET : Field := ⟨0x0, 18, 1, .w1c, 0, 0, 1, 0⟩
def RST_CTL_WARM : Field := ⟨0x4, 0, 1, .wo, 0, 0, 1, 0⟩
def RST_CTL_COLD : Field := ⟨0x4, 1, 1, .wo, 0, 0, 1, 0⟩
def RST_COUNT_COUNT : Field := ⟨0x8, 0, 32, .ro, 0, 0, 4294967295, 0⟩
def RST_TIME_LO_TIME_LO : Field := ⟨0xC, 0, 32, .ro, 0, 0, 4294967295, 0⟩
def RST_TIME_HI_TIME_HI : Field := ⟨0x10, 0, 32, .ro, 0, 0, 4294967295, 0⟩
def RST_WDOG_PERIOD_MS : Field := ⟨0x14, 0, 16, .rws, 0x7d0, 100, 60000, 0⟩
def RST_WDOG_ACTION : Field := ⟨0x14, 16, 1, .rws, 0, 0, 1, 0⟩
def RST_WDOG_ENABLE : Field := ⟨0x14, 31, 1, .rws, 1, 0, 1, 0⟩
def RST_WDOG_KICK_KEY : Field := ⟨0x18, 0, 8, .wo, 0, 0, 255, 0⟩
def RST_BLOCK_REQ_KIND : Field := ⟨0x20, 0, 8, .rw, 0, 0, 255, 0⟩
def RST_BLOCK_REQ_INSTANCE : Field := ⟨0x20, 8, 8, .rw, 0, 0, 255, 0⟩
def RST_BLOCK_REQ_HOLD : Field := ⟨0x20, 16, 1, .rw, 0, 0, 1, 0⟩
def RST_BLOCK_REQ_GO : Field := ⟨0x20, 31, 1, .wo, 0, 0, 1, 0⟩
def RST_BLOCK_RESULT_DONE : Field := ⟨0x24, 0, 1, .ro, 0, 0, 1, 0⟩
def RST_BLOCK_RESULT_TIMED_OUT : Field := ⟨0x24, 1, 1, .ro, 0, 0, 1, 0⟩
def RST_BLOCK_RESULT_STILL_FAULTED : Field := ⟨0x24, 2, 1, .ro, 0, 0, 1, 0⟩
def RST_BLOCK_RESULT_BUSY : Field := ⟨0x24, 3, 1, .ro, 0, 0, 1, 0⟩
def RST_BLOCK_RESULT_REFUSED : Field := ⟨0x24, 4, 1, .ro, 0, 0, 1, 0⟩
def RST_RELEASE_KIND : Field := ⟨0x28, 0, 8, .wo, 0, 0, 255, 0⟩
def RST_RELEASE_INSTANCE : Field := ⟨0x28, 8, 8, .wo, 0, 0, 255, 0⟩
def RST_RELEASE_GO : Field := ⟨0x28, 31, 1, .wo, 0, 0, 1, 0⟩
def RST_BLOCK_TMO_TMO_MS : Field := ⟨0x40, 0, 10, .rws, 0xa, 1, 1000, 4⟩
def RST_BLOCK_COUNTS_BLOCK_RESETS : Field := ⟨0x60, 0, 16, .rws, 0, 0, 65535, 0⟩
def RST_BLOCK_COUNTS_TIMEOUTS : Field := ⟨0x60, 16, 16, .rws, 0, 0, 65535, 0⟩
def RST_CLK_LOCK_HOST : Field := ⟨0x80, 0, 4, .ro, 0, 0, 15, 0⟩
def RST_CLK_LOCK_MGMT : Field := ⟨0x80, 4, 1, .ro, 0, 0, 1, 0⟩
def RST_CLK_LOCK_DDR : Field := ⟨0x80, 5, 1, .ro, 0, 0, 1, 0⟩
def RST_CLK_LOCK_NAND : Field := ⟨0x80, 6, 1, .ro, 0, 0, 1, 0⟩
def RST_CLK_LOCK_MOTOR : Field := ⟨0x80, 7, 1, .ro, 0, 0, 1, 0⟩
def RST_CLK_LOCK_LOW_SPEED : Field := ⟨0x80, 8, 1, .ro, 0, 0, 1, 0⟩
def RST_ACT_LOCK_LO_ACT_LO : Field := ⟨0x84, 0, 32, .ro, 0, 0, 4294967295, 0⟩
def RST_ACT_LOCK_HI_ACT_HI : Field := ⟨0x88, 0, 16, .ro, 0, 0, 65535, 0⟩
def CFG_STATUS_STATE : Field := ⟨0x0, 0, 3, .ro, 0, 0, 7, 0⟩
def CFG_STATUS_COPY_USED : Field := ⟨0x0, 3, 1, .ro, 0, 0, 1, 0⟩
def CFG_STATUS_COPY0_VALID : Field := ⟨0x0, 4, 1, .ro, 0, 0, 1, 0⟩
def CFG_STATUS_COPY1_VALID : Field := ⟨0x0, 5, 1, .ro, 0, 0, 1, 0⟩
def CFG_STATUS_NO_FIRMWARE : Field := ⟨0x0, 6, 1, .ro, 0, 0, 1, 0⟩
def CFG_STATUS_FLASH_BAD : Field := ⟨0x0, 7, 1, .ro, 0, 0, 1, 0⟩
def CFG_STATUS_FALLBACK : Field := ⟨0x0, 16, 1, .w1c, 0, 0, 1, 0⟩
def CFG_STATUS_COMMIT_DONE : Field := ⟨0x0, 17, 1, .w1c, 0, 0, 1, 0⟩
def CFG_STATUS_COMMIT_FAILED : Field := ⟨0x0, 18, 1, .w1c, 0, 0, 1, 0⟩
def CFG_RUNNING_SEQ : Field := ⟨0x4, 0, 32, .ro, 0xffffffff, 0, 4294967295, 0⟩
def CFG_COPY0_SEQ : Field := ⟨0x8, 0, 32, .ro, 0xffffffff, 0, 4294967295, 0⟩
def CFG_COPY1_SEQ : Field := ⟨0xC, 0, 32, .ro, 0xffffffff, 0, 4294967295, 0⟩
def CFG_ERROR_CAUSE : Field := ⟨0x10, 0, 8, .ro, 0, 0, 255, 0⟩
def CFG_ERROR_SECTION : Field := ⟨0x10, 8, 8, .ro, 0, 0, 255, 0⟩
def CFG_NO_MODEL_PORTS : Field := ⟨0x14, 0, 24, .ro, 0, 0, 16777215, 0⟩
def CFG_FLASH_SIZE_MIB : Field := ⟨0x18, 0, 16, .ro, 0, 0, 65535, 0⟩
def CFG_SHELF_SHELF : Field := ⟨0x20, 0, 32, .ro, 0, 0, 4294967295, 4⟩
def FLT_STATUS_FAULTED : Field := ⟨0x0, 0, 1, .ro, 0, 0, 1, 0⟩
def FLT_STATUS_ALIVE_STOPPED : Field := ⟨0x0, 1, 1, .ro, 0, 0, 1, 0⟩
def FLT_STATUS_EVENT : Field := ⟨0x0, 16, 1, .w1c, 0, 0, 1, 0⟩
def FLT_STATUS_TRANSIENT_SEEN : Field := ⟨0x0, 17, 1, .w1c, 0, 0, 1, 0⟩
def FLT_STATUS_LASTING_SEEN : Field := ⟨0x0, 18, 1, .w1c, 0, 0, 1, 0⟩
def FLT_STATUS_RECOVERED : Field := ⟨0x0, 19, 1, .w1c, 0, 0, 1, 0⟩
def FLT_STATUS_CE_SEEN : Field := ⟨0x0, 20, 1, .w1c, 0, 0, 1, 0⟩
def FLT_STATUS_UE_SEEN : Field := ⟨0x0, 21, 1, .w1c, 0, 0, 1, 0⟩
def FLT_STATUS_REACT_REFUSED : Field := ⟨0x0, 22, 1, .w1c, 0, 0, 1, 0⟩
def FLT_UNITS_IN_FAULT : Field := ⟨0x4, 0, 32, .ro, 0, 0, 4294967295, 0⟩
def FLT_IRQ_EN_ENABLE : Field := ⟨0x8, 16, 7, .rws, 0x2c, 0, 127, 0⟩
def FLT_REACT_IRQ : Field := ⟨0xC, 0, 1, .rws, 0, 0, 1, 0⟩
def FLT_REACT_TRAP : Field := ⟨0xC, 1, 1, .rws, 0, 0, 1, 0⟩
def FLT_REACT_ACTION : Field := ⟨0xC, 2, 3, .rws, 0, 0, 7, 0⟩
def FLT_REACT_ALIVE_STOP : Field := ⟨0xC, 5, 1, .rws, 0, 0, 1, 0⟩
def FLT_QUIET_QUIET_S : Field := ⟨0x10, 0, 12, .rws, 0xa, 1, 3600, 0⟩
def FLT_QUIET_BACKOFF : Field := ⟨0x10, 16, 4, .ro, 0, 0, 15, 0⟩
def FLT_WARN_WARN_EVERY : Field := ⟨0x14, 0, 16, .rws, 0x40, 1, 65535, 0⟩
def FLT_HIST_CTL_NEXT : Field := ⟨0x18, 0, 4, .ro, 0, 0, 15, 0⟩
def FLT_HIST_CTL_CLEAR : Field := ⟨0x18, 8, 1, .wo, 0, 0, 1, 0⟩
def FLT_HIST_CTL_TOTAL : Field := ⟨0x18, 16, 16, .rws, 0, 0, 65535, 0⟩
def FLT_MEM_SEL_MEM : Field := ⟨0x1C, 0, 4, .rw, 0, 0, 15, 0⟩
def FLT_MEM_SEL_MEMS : Field := ⟨0x1C, 8, 4, .ro, 0, 0, 15, 0⟩
def FLT_MEM_SEL_LOG_CLEAR : Field := ⟨0x1C, 16, 1, .wo, 0, 0, 1, 0⟩
def FLT_MEM_COUNTS_CE : Field := ⟨0x20, 0, 16, .rws, 0, 0, 65535, 0⟩
def FLT_MEM_COUNTS_UE : Field := ⟨0x20, 16, 16, .rws, 0, 0, 65535, 0⟩
def FLT_UNIT_COUNT_RECOVERIES : Field := ⟨0x40, 0, 16, .rws, 0, 0, 65535, 4⟩
def FLT_UNIT_COUNT_TRANSIENTS : Field := ⟨0x40, 16, 16, .rws, 0, 0, 65535, 4⟩
def FLT_HIST_0_TIME_LO : Field := ⟨0x100, 0, 32, .ro, 0, 0, 4294967295, 32⟩
def FLT_HIST_4_TIME_HI : Field := ⟨0x104, 0, 32, .ro, 0, 0, 4294967295, 32⟩
def FLT_HIST_8_SOURCE : Field := ⟨0x108, 0, 16, .ro, 0, 0, 65535, 32⟩
def FLT_HIST_8_SEQUENCE : Field := ⟨0x108, 16, 16, .ro, 0, 0, 65535, 32⟩
def FLT_HIST_C_CODE : Field := ⟨0x10C, 0, 8, .ro, 0, 0, 255, 32⟩
def FLT_HIST_C_UNIT : Field := ⟨0x10C, 8, 8, .ro, 0, 0, 255, 32⟩
def FLT_HIST_C_CLASS : Field := ⟨0x10C, 16, 3, .ro, 0, 0, 7, 32⟩
def FLT_HIST_C_REACTION : Field := ⟨0x10C, 19, 6, .ro, 0, 0, 63, 32⟩
def FLT_HIST_C_PATH : Field := ⟨0x10C, 25, 3, .ro, 0, 0, 7, 32⟩
def FLT_HIST_C_VALID : Field := ⟨0x10C, 31, 1, .ro, 0, 0, 1, 32⟩
def FLT_HIST_10_DETAIL : Field := ⟨0x110, 0, 32, .ro, 0, 0, 4294967295, 32⟩
def FLT_HIST_14_DETAIL_HI : Field := ⟨0x114, 0, 32, .ro, 0, 0, 4294967295, 32⟩
def FLT_MEM_LOG_0_ADDR : Field := ⟨0x300, 0, 28, .ro, 0, 0, 268435455, 8⟩
def FLT_MEM_LOG_4_SYNDROME : Field := ⟨0x304, 0, 8, .ro, 0, 0, 255, 8⟩
def FLT_MEM_LOG_4_COUNT : Field := ⟨0x304, 8, 8, .ro, 0, 0, 255, 8⟩
def FLT_MEM_LOG_4_UE : Field := ⟨0x304, 16, 1, .ro, 0, 0, 1, 8⟩
def FLT_MEM_LOG_4_ADDR_SUSPECT : Field := ⟨0x304, 17, 1, .ro, 0, 0, 1, 8⟩
def FLT_MEM_LOG_4_VALID : Field := ⟨0x304, 31, 1, .ro, 0, 0, 1, 8⟩
def RST_GRAVE_MOTION : Field := ⟨0xA0, 0, 1, .ro, 0, 0, 1, 0⟩
def RST_GRAVE_ASSAY : Field := ⟨0xA0, 1, 1, .ro, 0, 0, 1, 0⟩
def RST_GRAVE_FEEDS : Field := ⟨0xA0, 2, 1, .ro, 0, 0, 1, 0⟩
def RST_GRAVE_LOADER : Field := ⟨0xA0, 3, 1, .ro, 0, 0, 1, 0⟩
def RST_GRAVE_FABRIC : Field := ⟨0xA0, 4, 1, .ro, 0, 0, 1, 0⟩
def RST_GRAVE_WIRE : Field := ⟨0xA0, 8, 5, .ro, 0, 0, 31, 0⟩
def RST_GRAVE_ALIVE_STOPPED : Field := ⟨0xA0, 16, 1, .ro, 0, 0, 1, 0⟩
def DB_CTL_MIRROR_MS : Field := ⟨0x0, 0, 10, .rws, 0x64, 10, 1000, 0⟩
def DB_CTL_SEQ_SEV : Field := ⟨0x0, 12, 3, .rws, 2, 0, 7, 0⟩
def DB_CTL_FREEZE_MAX_S : Field := ⟨0x0, 16, 11, .rws, 0x3c, 1, 1800, 0⟩
def DB_STATUS_FROZEN : Field := ⟨0x4, 0, 1, .ro, 0, 0, 1, 0⟩
def DB_STATUS_MIRROR_BEHIND : Field := ⟨0x4, 1, 1, .ro, 0, 0, 1, 0⟩
def DB_STATUS_HELD : Field := ⟨0x4, 8, 9, .ro, 0, 0, 511, 0⟩
def DB_SEQ_NEWEST : Field := ⟨0x8, 0, 32, .ro, 0, 0, 4294967295, 0⟩
def DB_DROPS_DROPPED : Field := ⟨0xC, 0, 16, .rws, 0, 0, 65535, 0⟩
def DB_DROPS_HOLD_DROPPED : Field := ⟨0xC, 16, 16, .rws, 0, 0, 65535, 0⟩
def DB_SNAP_MAP_SET_0 : Field := ⟨0x10, 0, 3, .rws, 0, 0, 7, 0⟩
def DB_SNAP_MAP_SET_1 : Field := ⟨0x10, 4, 3, .rws, 0, 0, 7, 0⟩
def DB_SNAP_MAP_SET_2 : Field := ⟨0x10, 8, 3, .rws, 0, 0, 7, 0⟩
def DB_SNAP_MAP_SET_3 : Field := ⟨0x10, 12, 3, .rws, 0, 0, 7, 0⟩
def DB_SNAP_MAP_SET_4 : Field := ⟨0x10, 16, 3, .rws, 0, 0, 7, 0⟩
def DB_SNAP_MAP_SET_5 : Field := ⟨0x10, 20, 3, .rws, 0, 0, 7, 0⟩
def DB_SNAP_MAP_SET_6 : Field := ⟨0x10, 24, 3, .rws, 0, 0, 7, 0⟩
def DB_SNAP_MAP_SET_7 : Field := ⟨0x10, 28, 3, .rws, 0, 0, 7, 0⟩
def DB_SNAP1_ADDR : Field := ⟨0x100, 0, 32, .rws, 0, 0, 4294967295, 4⟩
def DB_SNAP2_ADDR : Field := ⟨0x180, 0, 32, .rws, 0, 0, 4294967295, 4⟩
def DB_SNAP3_ADDR : Field := ⟨0x200, 0, 32, .rws, 0, 0, 4294967295, 4⟩
def DB_SNAP4_ADDR : Field := ⟨0x280, 0, 32, .rws, 0, 0, 4294967295, 4⟩
def DB_SNAP5_ADDR : Field := ⟨0x300, 0, 32, .rws, 0, 0, 4294967295, 4⟩
def DB_SNAP6_ADDR : Field := ⟨0x380, 0, 32, .rws, 0, 0, 4294967295, 4⟩
def DB_SNAP7_ADDR : Field := ⟨0x400, 0, 32, .rws, 0, 0, 4294967295, 4⟩
def DB_WRITE_DATA_DATA : Field := ⟨0x40, 0, 32, .rw, 0, 0, 4294967295, 4⟩
def DB_WRITE_GO_TRIGGER : Field := ⟨0x50, 0, 16, .wo, 0, 0, 65535, 0⟩
def DB_WRITE_GO_SEVERITY : Field := ⟨0x50, 16, 3, .wo, 0, 0, 7, 0⟩
def BUR_STATUS_RUNNING : Field := ⟨0x0, 0, 1, .ro, 0, 0, 1, 0⟩
def BUR_STATUS_BOOT_ROM : Field := ⟨0x0, 1, 1, .ro, 0, 0, 1, 0⟩
def BUR_STATUS_MGMT_UP : Field := ⟨0x0, 2, 1, .ro, 0, 0, 1, 0⟩
def BUR_STATUS_EID : Field := ⟨0x0, 8, 8, .ro, 0, 0, 255, 0⟩
def BUR_STATUS_SMB_ADDR : Field := ⟨0x0, 16, 7, .ro, 0x1d, 0, 127, 0⟩
def BUR_HEALTH_HEALTH_MODE : Field := ⟨0x4, 0, 1, .rws, 0, 0, 1, 0⟩
def BUR_HEALTH_SYSLOG_SEV : Field := ⟨0x4, 8, 3, .rws, 5, 0, 7, 0⟩
def BUR_HEALTH_HDA_TEMP_WARN : Field := ⟨0x4, 16, 8, .rws, 0x37, 0, 255, 0⟩
def BUR_WARN_PENDING : Field := ⟨0x8, 0, 32, .ro, 0, 0, 4294967295, 0⟩
def BUR_FW_RUNNING_SLOT : Field := ⟨0xC, 0, 2, .ro, 0, 0, 3, 0⟩
def BUR_FW_NEXT_SLOT : Field := ⟨0xC, 2, 2, .ro, 0, 0, 3, 0⟩
def BUR_FW_VAL1_VALUE : Field := ⟨0x10, 0, 32, .ro, 0, 0, 4294967295, 0⟩
def PWR_FEEDB_MON_VOLT_MV : Field := ⟨0x1C, 0, 16, .ro, 0, 0, 65535, 0⟩
def PWR_FEEDB_MON_CURR_MA : Field := ⟨0x1C, 16, 16, .ro, 0, 0, 65535, 0⟩
def DP_PROFILE_WORD : Field := ⟨0x800, 0, 32, .rw, 0, 0, 4294967295, 4⟩
def HDA_ID_COPY_WORD : Field := ⟨0x100, 0, 32, .ro, 0, 0, 4294967295, 4⟩
def BUR_FW_VAL2_VALUE : Field := ⟨0x14, 0, 32, .ro, 0, 0, 4294967295, 0⟩

end Sys2Proof.Machine.Reg

namespace Sys2Proof.Machine
open Reg

def identityRegs0 : List RegDesc := [
  ⟨0x0, 1, 0, [ID_PART_PART_NUMBER, ID_PART_STEP_LETTER, ID_PART_STEP_NUMBER]⟩,
  ⟨0x4, 1, 0, [GLB_SERVICE_STATE, GLB_SERVICE_RESERVOIR_OUT, GLB_SERVICE_HDA_MISSING, GLB_SERVICE_HDA_REBUILDING, GLB_SERVICE_CHANGED]⟩,
  ⟨0x8, 1, 0, [GLB_SINCE_LO_TIME_LO]⟩,
  ⟨0xC, 1, 0, [GLB_SINCE_HI_TIME_HI]⟩]

/-- The registers of the identity block. -/
def identityRegs : List RegDesc := identityRegs0

def powerRegs0 : List RegDesc := [
  ⟨0x0, 1, 0, [PWR_STATUS_FEEDA_GOOD, PWR_STATUS_FEEDB_GOOD, PWR_STATUS_ACTIVE, PWR_STATUS_STANDBY_READY, PWR_STATUS_CONVA_FAILED, PWR_STATUS_CONVB_FAILED, PWR_STATUS_MISMATCH, PWR_STATUS_EXERCISE_ON, PWR_STATUS_HOLDUP_LOW, PWR_STATUS_SWAPPED, PWR_STATUS_EXERCISE_MISSED, PWR_STATUS_FORCE_REFUSED]⟩,
  ⟨0x4, 1, 0, [PWR_CTL_PREFER, PWR_CTL_FORCE_SWAP]⟩,
  ⟨0x8, 1, 0, [PWR_IB_SET_TARGET, PWR_IB_SET_ILIMIT]⟩,
  ⟨0xC, 1, 0, [PWR_TUNE_LIGHT_LOAD_A, PWR_TUNE_LIGHT_LOAD_B]⟩,
  ⟨0x10, 1, 0, [PWR_EXERCISE_PERIOD_DAYS, PWR_EXERCISE_DURATION_S, PWR_EXERCISE_ENABLE]⟩,
  ⟨0x14, 1, 0, [PWR_EXER_DUE_DUE_S]⟩,
  ⟨0x18, 1, 0, [PWR_FEEDA_MON_VOLT_MV, PWR_FEEDA_MON_CURR_MA]⟩,
  ⟨0x20, 1, 0, [PWR_IB_MON_ACTIVE_MV, PWR_IB_MON_STANDBY_MV]⟩,
  ⟨0x24, 1, 0, [PWR_HOLDUP_CAP_UF, PWR_HOLDUP_EST_HOLD]⟩,
  ⟨0x28, 1, 0, [PWR_SWAP_COUNT_SWAPS, PWR_SWAP_COUNT_EXERCISES]⟩,
  ⟨0x2C, 1, 0, [PWR_SWAP_TIME_LO_TIME_LO]⟩,
  ⟨0x30, 1, 0, [PWR_SWAP_TIME_HI_TIME_HI]⟩]

def powerRegs1 : List RegDesc := [
  ⟨0x1C, 1, 0, [PWR_FEEDB_MON_VOLT_MV, PWR_FEEDB_MON_CURR_MA]⟩]

/-- The registers of the power block. -/
def powerRegs : List RegDesc := powerRegs0 ++ powerRegs1

def fabricRegs0 : List RegDesc := [
  ⟨0x0, 1, 0, [FAB_PACE_INDEX, FAB_PACE_BELOW_FLOOR, FAB_PACE_PACE_LOW]⟩,
  ⟨0x4, 1, 0, [FAB_GOV_CTL_TARGET, FAB_GOV_CTL_VMIN, FAB_GOV_CTL_VMAX, FAB_GOV_CTL_ENABLE]⟩,
  ⟨0x8, 1, 0, [FAB_VCORE_CODE, FAB_VCORE_MANUAL_CODE, FAB_VCORE_MEAS_MV]⟩,
  ⟨0xC, 1, 0, [FAB_CUTS_READ_CUTS, FAB_CUTS_WRITE_CUTS]⟩,
  ⟨0x20, 1, 0, [STAMP_NOW_LO_TIME_LO]⟩,
  ⟨0x24, 1, 0, [STAMP_NOW_HI_TIME_HI]⟩,
  ⟨0x28, 1, 0, [STAMP_TAKE_LO_TIME_LO]⟩,
  ⟨0x2C, 1, 0, [STAMP_TAKE_HI_TIME_HI]⟩,
  ⟨0x30, 1, 0, [STAMP_TAKE_ID_SOURCE, STAMP_TAKE_ID_SEQUENCE]⟩,
  ⟨0x34, 1, 0, [STAMP_STATUS_TIME_VALID, STAMP_STATUS_HOLDING, STAMP_STATUS_HELD]⟩]

/-- The registers of the fabric block. -/
def fabricRegs : List RegDesc := fabricRegs0

def portRegs0 : List RegDesc := [
  ⟨0x0, 1, 0, [HDA_STATUS_STATE, HDA_STATUS_PRESENT, HDA_STATUS_SHOCK, HDA_STATUS_FLT_U, HDA_STATUS_FLT_L, HDA_STATUS_REJECT_CAUSE, HDA_STATUS_SHOCK_SEEN, HDA_STATUS_FLT_U_SEEN, HDA_STATUS_FLT_L_SEEN, HDA_STATUS_INSERTED, HDA_STATUS_REMOVED, HDA_STATUS_SENS_ERR, HDA_STATUS_SLOW_STOP]⟩,
  ⟨0x4, 1, 0, [HDA_CTL_RELEASE, HDA_CTL_POWER_ENABLE, HDA_CTL_SENS_SLOW]⟩,
  ⟨0x10, 1, 0, [HDA_PA_CMD_LINK, HDA_PA_CMD_READ, HDA_PA_CMD_ADDR, HDA_PA_CMD_DATA]⟩,
  ⟨0x14, 1, 0, [HDA_PA_GO_GO]⟩,
  ⟨0x18, 1, 0, [HDA_PA_RESULT_DATA, HDA_PA_RESULT_DONE, HDA_PA_RESULT_CHECK_ERR, HDA_PA_RESULT_REFUSED]⟩,
  ⟨0x20, 1, 0, [HDA_ENV_TEMP, HDA_ENV_HUMIDITY]⟩,
  ⟨0x24, 1, 0, [HDA_COUNTS_SHOCKS, HDA_COUNTS_PA_CRC_ERRS]⟩,
  ⟨0x600, 1, 0, [SP_CTL_RUN, SP_CTL_ACTIVE_BRAKE]⟩,
  ⟨0x604, 1, 0, [SP_SPEED_SET, SP_SPEED_TARGET]⟩,
  ⟨0x608, 1, 0, [SP_STATUS_STATE, SP_STATUS_DIR, SP_STATUS_REGION, SP_STATUS_SHUNT_BLIND, SP_STATUS_CAUGHT, SP_STATUS_LOST_SEEN, SP_STATUS_SET_REFUSED, SP_STATUS_START_FAIL, SP_STATUS_OVERCURRENT, SP_STATUS_RUN_OVER, SP_STATUS_SUSPENDED]⟩,
  ⟨0x60C, 1, 0, [SP_MEAS_SPEED, SP_MEAS_STEP, SP_MEAS_CURRENT_MA]⟩,
  ⟨0x610, 1, 0, [SP_POWER_POWER, SP_POWER_GRANT]⟩]

def portRegs1 : List RegDesc := [
  ⟨0x614, 1, 0, [SP_LIMITS_N_LO, SP_LIMITS_N_HI]⟩,
  ⟨0x618, 1, 0, [SP_PWM_PERIOD, SP_PWM_DEAD]⟩,
  ⟨0x61C, 1, 0, [SP_SHUNT_SETTLE, SP_SHUNT_ACQ, SP_SHUNT_MIN_PULSE]⟩,
  ⟨0x620, 1, 0, [SP_COMM_ADVANCE, SP_COMM_ZC_WIN, SP_COMM_BLANK, SP_COMM_MISS_MAX]⟩,
  ⟨0x624, 1, 0, [SP_START_MEASURE_MS, SP_START_CATCH_MIN, SP_START_ALIGN_MS, SP_START_EMF_MIN]⟩,
  ⟨0x628, 1, 0, [SP_OPEN_ALIGN_MA, SP_OPEN_OPEN_TMO, SP_OPEN_HANDOFF_RPM]⟩,
  ⟨0x62C, 1, 0, [SP_RETRY_RETRY_WAIT, SP_RETRY_RETRIES, SP_RETRY_START_TRIES]⟩,
  ⟨0x630, 1, 0, [SP_COUNTS_A_STARTS, SP_COUNTS_A_CATCHES]⟩,
  ⟨0x634, 1, 0, [SP_COUNTS_B_LOSSES, SP_COUNTS_B_RECATCHES]⟩,
  ⟨0x638, 1, 0, [SP_COUNTS_C_MISSED_ZC, SP_COUNTS_C_OVERCURRENTS]⟩,
  ⟨0x100, 64, 4, [HDA_ID_COPY_WORD]⟩]

/-- The registers of the port block. -/
def portRegs : List RegDesc := portRegs0 ++ portRegs1

def actuatorRegs0 : List RegDesc := [
  ⟨0x0, 1, 0, [CH_CTL_PRI_ON, CH_CTL_CHK_ON, CH_CTL_DUAL_READ, CH_CTL_PROFILE_FORCE, CH_CTL_PROFILE, CH_CTL_TA_EN]⟩,
  ⟨0x4, 1, 0, [CH_STATUS_LOCKED, CH_STATUS_FROZEN, CH_STATUS_TA_ACTIVE, CH_STATUS_PROFILE_IN_USE, CH_STATUS_SOFT_SLOTS, CH_STATUS_RAW_Q_FULL_SEEN]⟩,
  ⟨0x8, 1, 0, [CH_FE_CUTOFF, CH_FE_BOOST, CH_FE_VGA_GAIN]⟩,
  ⟨0xC, 1, 0, [CH_ADAPT_MU_GAIN, CH_ADAPT_MU_OFFSET, CH_ADAPT_MU_ASYM, CH_ADAPT_MU_FIR, CH_ADAPT_GAIN_EN, CH_ADAPT_OFFSET_EN, CH_ADAPT_ASYM_EN, CH_ADAPT_FIR_EN]⟩,
  ⟨0x10, 1, 0, [CH_TIMING_ACQ_KP, CH_TIMING_ACQ_KI, CH_TIMING_TRK_KP, CH_TIMING_TRK_KI, CH_TIMING_ACQ_BITS]⟩,
  ⟨0x14, 1, 0, [CH_WPC_SHIFT_NEAR, CH_WPC_SHIFT_FAR]⟩,
  ⟨0x18, 1, 0, [CH_CHK_DELAY_DELAY]⟩,
  ⟨0x20, 1, 0, [CH_LAST_SECTOR_MARK1_POS, CH_LAST_SECTOR_MARK1_FOUND, CH_LAST_SECTOR_MARK1_DIST, CH_LAST_SECTOR_MARK2_POS, CH_LAST_SECTOR_MARK2_FOUND, CH_LAST_SECTOR_MARK2_DIST, CH_LAST_SECTOR_RESULT, CH_LAST_SECTOR_ITERATIONS, CH_LAST_SECTOR_FROM_MARK2]⟩,
  ⟨0x24, 1, 0, [CH_ITER_AVG_AVG]⟩,
  ⟨0x28, 1, 0, [CH_COUNT_A_REFRAMES, CH_COUNT_A_SYNC_FAILS]⟩,
  ⟨0x2C, 1, 0, [CH_COUNT_B_DEEP_OK, CH_COUNT_B_DECODE_FAILS]⟩,
  ⟨0x30, 1, 0, [CH_COUNT_C_CRC_FAILS, CH_COUNT_C_TAG_MISMATCHES]⟩]

def actuatorRegs1 : List RegDesc := [
  ⟨0x34, 1, 0, [CH_COUNT_D_TA_EVENTS, CH_COUNT_D_RAW_FAILS]⟩,
  ⟨0x38, 1, 0, [CH_COUNT_E_RAW_PAUSES, CH_COUNT_E_REFUSED]⟩,
  ⟨0x40, 1, 0, [CH_RAW_CFG_ITER_LIMIT, CH_RAW_CFG_FLIP_LIMIT]⟩,
  ⟨0x44, 1, 0, [CH_RAW_Q_DEPTH]⟩,
  ⟨0x50, 1, 0, [CH_FIR_NOW0_TAPS_0_3]⟩,
  ⟨0x54, 1, 0, [CH_FIR_NOW1_TAPS_4_7]⟩,
  ⟨0x58, 1, 0, [CH_FIR_NOW2_TAPS_8_9]⟩,
  ⟨0x100, 1, 0, [SV_CTL_ENABLE, SV_CTL_RETRACT, SV_CTL_XCOUPLE]⟩,
  ⟨0x104, 1, 0, [SV_TARGET_TRACK]⟩,
  ⟨0x108, 1, 0, [SV_STATE_STATE, SV_STATE_LOCKED, SV_STATE_WR_OK, SV_STATE_REGION, SV_STATE_ZONE, SV_STATE_WEDGE]⟩,
  ⟨0x10C, 1, 0, [SV_EVENTS_LOCK_LOST, SV_EVENTS_RETRACTED, SV_EVENTS_PARK_UNCONFIRMED, SV_EVENTS_SETTLE_TIMEOUT, SV_EVENTS_LOAD_FAIL, SV_EVENTS_INDEX_SLIP, SV_EVENTS_FLY_LOW, SV_EVENTS_SEEK_REFUSED]⟩,
  ⟨0x110, 1, 0, [SV_POS_FRACTION, SV_POS_TRACK, SV_POS_PREDICTED]⟩]

def actuatorRegs2 : List RegDesc := [
  ⟨0x114, 1, 0, [SV_PES_PES, SV_PES_VELOCITY]⟩,
  ⟨0x118, 1, 0, [SV_INTERVAL_F_SUM]⟩,
  ⟨0x11C, 1, 0, [SV_INTERVAL_REF_SUM]⟩,
  ⟨0x120, 1, 0, [SV_INTERVAL_K_SUM]⟩,
  ⟨0x124, 1, 0, [SV_SETTLE_SETTLE_RD, SV_SETTLE_SETTLE_WR, SV_SETTLE_RD_WEDGES, SV_SETTLE_WR_WEDGES, SV_SETTLE_WR_LIMIT]⟩,
  ⟨0x128, 1, 0, [SV_SEEK_VMAX, SV_SEEK_AMAX, SV_SEEK_KA, SV_SEEK_HANDOFF_TRACKS, SV_SEEK_SETTLE_TMO]⟩,
  ⟨0x12C, 1, 0, [SV_SEEK_USED_AMAX_USED]⟩,
  ⟨0x130, 7, 4, [SV_REGION_BOUND_TRACK]⟩,
  ⟨0x150, 1, 0, [SV_SAFETY_FLY_PCT, SV_SAFETY_RETRACT_MV, SV_SAFETY_LOAD_MV]⟩,
  ⟨0x154, 1, 0, [SV_JOG_JOG]⟩,
  ⟨0x160, 1, 0, [SV_COUNTS_A_MISSED_WEDGES, SV_COUNTS_A_GRAY_ERRS]⟩,
  ⟨0x164, 1, 0, [SV_COUNTS_B_WR_INHIBITS, SV_COUNTS_B_LOCK_LOSSES]⟩]

def actuatorRegs3 : List RegDesc := [
  ⟨0x168, 1, 0, [SV_COUNTS_C_RETRACTS, SV_COUNTS_C_LOAD_FAILS]⟩,
  ⟨0x200, 32, 8, [SV_ZONE_START_TRACK]⟩,
  ⟨0x204, 32, 8, [SV_ZONE_RATE_BITS_PER_WEDGE]⟩,
  ⟨0x600, 1, 0, [AS_CTL_RUN, AS_CTL_TEST, AS_CTL_RECOVER]⟩,
  ⟨0x604, 1, 0, [AS_STATUS_MODE, AS_STATUS_WAITING, AS_STATUS_WAIT_COND, AS_STATUS_STACK, AS_STATUS_GRANTED, AS_STATUS_WORK_DEPTH, AS_STATUS_DONE_DEPTH, AS_STATUS_ILLEGAL, AS_STATUS_TIMEOUT, AS_STATUS_VIOLATION, AS_STATUS_WORK_FULL, AS_STATUS_TRAPPED]⟩,
  ⟨0x608, 1, 0, [AS_PC_MICRO_PC, AS_PC_HORIZ_PC, AS_PC_IN_CUSTOMER]⟩,
  ⟨0x60C, 1, 0, [AS_CURSOR_SECTOR, AS_CURSOR_HEAD]⟩,
  ⟨0x610, 1, 0, [AS_CURSOR_TRACK_TRACK]⟩,
  ⟨0x614, 1, 0, [AS_CUR_WORK_TAG, AS_CUR_WORK_REACH]⟩,
  ⟨0x618, 1, 0, [AS_LOOP_COUNTER, AS_LOOP_CUST_FLAG]⟩,
  ⟨0x620, 8, 4, [AS_WAIT_TMO_HANDLER, AS_WAIT_TMO_UNIT]⟩,
  ⟨0x640, 8, 4, [AS_WORK_WORD]⟩]

def actuatorRegs4 : List RegDesc := [
  ⟨0x660, 1, 0, [AS_WORK_GO_GO]⟩,
  ⟨0x664, 1, 0, [AS_DONE_TAG, AS_DONE_STATUS, AS_DONE_VALID]⟩,
  ⟨0x668, 1, 0, [AS_WITHDRAW_TAG]⟩,
  ⟨0x66C, 1, 0, [AS_READ_DEADLINE_DEADLINE]⟩,
  ⟨0x670, 1, 0, [AS_CUST_ARM, AS_CUST_ARMED, AS_CUST_DISARM, AS_CUST_ARM_FAILED]⟩,
  ⟨0x674, 1, 0, [AS_CUST_CRC_EXPECT]⟩,
  ⟨0x678, 1, 0, [AS_FLAGS_SW_FLAG]⟩,
  ⟨0x680, 12, 8, [AS_HEAD_0_WR_CUR, AS_HEAD_0_HEAT]⟩,
  ⟨0x684, 12, 8, [AS_HEAD_4_JOG]⟩,
  ⟨0x6E0, 1, 0, [AS_COUNTS_A_ITEMS, AS_COUNTS_A_TIMEOUTS]⟩,
  ⟨0x6E4, 1, 0, [AS_COUNTS_B_VIOLATIONS, AS_COUNTS_B_ILLEGALS]⟩]

/-- The registers of the actuator block. -/
def actuatorRegs : List RegDesc := actuatorRegs0 ++ actuatorRegs1 ++ actuatorRegs2 ++ actuatorRegs3 ++ actuatorRegs4

def decodeRegs0 : List RegDesc := [
  ⟨0x0, 1, 0, [DP_CTL_FIRST_ITER, DP_CTL_DEEP_ITER, DP_CTL_DEEP_LANES, DP_CTL_DEEP_FLOOR, DP_CTL_COMBINE_MAX]⟩,
  ⟨0x4, 1, 0, [DP_LANE_EN_ENABLE]⟩,
  ⟨0x8, 1, 0, [DP_LANE_UP_IN_SERVICE]⟩,
  ⟨0xC, 1, 0, [DP_QUEUES_FIRST_DEPTH, DP_QUEUES_DEEP_DEPTH, DP_QUEUES_DEEP_RUNNING, DP_QUEUES_COMBINE_HELD]⟩,
  ⟨0x10, 1, 0, [DP_COUNTS_A_DEEP_STARTED, DP_COUNTS_A_DEEP_EXHAUSTED]⟩,
  ⟨0x14, 1, 0, [DP_COUNTS_B_REFUSED, DP_COUNTS_B_WITHDRAWN]⟩,
  ⟨0x18, 1, 0, [DP_CODEWORDS_LO_COUNT_LO]⟩,
  ⟨0x1C, 1, 0, [DP_CODEWORDS_HI_COUNT_HI]⟩,
  ⟨0x20, 1, 0, [DP_ITERS_LO_COUNT_LO]⟩,
  ⟨0x24, 1, 0, [DP_ITERS_HI_COUNT_HI]⟩,
  ⟨0x400, 16, 4, [DP_PROFILE_MAP_ENTRY_0, DP_PROFILE_MAP_ENTRY_1, DP_PROFILE_MAP_ENTRY_2, DP_PROFILE_MAP_ENTRY_3]⟩,
  ⟨0x800, 512, 4, [DP_PROFILE_WORD]⟩]

/-- The registers of the decode block. -/
def decodeRegs : List RegDesc := decodeRegs0

def loopRegs0 : List RegDesc := [
  ⟨0x300, 1, 0, [LE_CTL_ENABLE, LE_CTL_MANUAL, LE_CTL_HOLD_SET, LE_CTL_RELOAD, LE_CTL_TUNE_START, LE_CTL_TUNE_STOP, LE_CTL_TUNE_RULE]⟩,
  ⟨0x304, 1, 0, [LE_STATUS_SET_IN_USE, LE_STATUS_REGION, LE_STATUS_OUT_SAT, LE_STATUS_I_SAT, LE_STATUS_RAMPING, LE_STATUS_TUNING, LE_STATUS_NOTCH1_BYP, LE_STATUS_NOTCH2_BYP, LE_STATUS_SWAP_CLAMPED, LE_STATUS_SET_INVALID, LE_STATUS_TUNE_DONE, LE_STATUS_TUNE_ABORTED, LE_STATUS_TUNE_REFUSED, LE_STATUS_OVERRUN, LE_STATUS_ABORT_CAUSE]⟩,
  ⟨0x308, 1, 0, [LE_MANUAL_VALUE]⟩,
  ⟨0x30C, 1, 0, [LE_DEMAND_DEMAND, LE_DEMAND_INTEG]⟩,
  ⟨0x310, 1, 0, [LE_SETPOINT_WORKING]⟩,
  ⟨0x314, 1, 0, [LE_RAMP_RATE]⟩,
  ⟨0x318, 1, 0, [LE_TUNE_CFG_AMP, LE_TUNE_CFG_CYCLES, LE_TUNE_CFG_TMO]⟩,
  ⟨0x31C, 1, 0, [LE_TUNE_BAND_HYST, LE_TUNE_BAND_LIMIT]⟩,
  ⟨0x320, 1, 0, [LE_TUNE_PERIOD_PU_NS]⟩,
  ⟨0x324, 1, 0, [LE_TUNE_AMPL_A]⟩,
  ⟨0x328, 1, 0, [LE_TUNE_KU_WORD]⟩,
  ⟨0x32C, 1, 0, [LE_TUNE_KP_WORD]⟩]

def loopRegs1 : List RegDesc := [
  ⟨0x330, 1, 0, [LE_TUNE_KI_WORD]⟩,
  ⟨0x334, 1, 0, [LE_TUNE_KD_WORD]⟩,
  ⟨0x338, 1, 0, [LE_COUNTS_OVERRUNS, LE_COUNTS_SWAP_CLAMPS]⟩,
  ⟨0x380, 8, 4, [LE_REGION_MAP_ENTRY_0, LE_REGION_MAP_ENTRY_1, LE_REGION_MAP_ENTRY_2, LE_REGION_MAP_ENTRY_3]⟩,
  ⟨0x400, 16, 32, [LE_SET_0_KP]⟩,
  ⟨0x404, 16, 32, [LE_SET_4_KI]⟩,
  ⟨0x408, 16, 32, [LE_SET_8_KD]⟩,
  ⟨0x40C, 16, 32, [LE_SET_C_TF]⟩,
  ⟨0x410, 16, 32, [LE_SET_10_OUT_LO, LE_SET_10_OUT_HI]⟩,
  ⟨0x414, 16, 32, [LE_SET_14_I_LO, LE_SET_14_I_HI]⟩,
  ⟨0x418, 16, 32, [LE_SET_18_N1_F0, LE_SET_18_N1_ZETA_Z, LE_SET_18_N1_ZETA_P]⟩,
  ⟨0x41C, 16, 32, [LE_SET_1C_NOTCH2]⟩]

/-- The registers of the loop block. -/
def loopRegs : List RegDesc := loopRegs0 ++ loopRegs1

def sluiceRegs0 : List RegDesc := [
  ⟨0x0, 1, 0, [SLUICE_BUDGET_CEILING, SLUICE_BUDGET_GUARD]⟩,
  ⟨0x4, 1, 0, [SLUICE_RUN_RUN_ALLOW, SLUICE_RUN_RUN_REF]⟩,
  ⟨0x8, 1, 0, [SLUICE_SPINUP_SPINUP_W, SLUICE_SPINUP_FLOOR_W, SLUICE_SPINUP_MAX_SPINUPS]⟩,
  ⟨0xC, 1, 0, [SLUICE_PLAN_HOLD]⟩,
  ⟨0x10, 1, 0, [SLUICE_STATUS_ACTIVE, SLUICE_STATUS_QUEUED, SLUICE_STATUS_HOLDUP_WAIT, SLUICE_STATUS_CAP_REACHED, SLUICE_STATUS_SHRUNK, SLUICE_STATUS_SUSPENDED]⟩,
  ⟨0x14, 1, 0, [SLUICE_POWER_OTHER, SLUICE_POWER_HEADROOM]⟩,
  ⟨0x18, 1, 0, [SLUICE_RESERVED_RUN_SUM, SLUICE_RESERVED_GRANT_SUM]⟩,
  ⟨0x1C, 1, 0, [SLUICE_COUNTS_ADMITTED, SLUICE_COUNTS_SUSPENSIONS]⟩]

/-- The registers of the sluice block. -/
def sluiceRegs : List RegDesc := sluiceRegs0

def ledgerRegs0 : List RegDesc := [
  ⟨0x0, 1, 0, [LEDGER_CTL_AGE_EN, LEDGER_CTL_INVENTORY, LEDGER_CTL_PORT]⟩,
  ⟨0x4, 1, 0, [LEDGER_STATUS_INV_BUSY, LEDGER_STATUS_MIRROR_BEHIND, LEDGER_STATUS_REBUILDING, LEDGER_STATUS_RELOADED, LEDGER_STATUS_REFUSED]⟩,
  ⟨0x10, 1, 0, [LEDGER_CMD_REACH, LEDGER_CMD_ACTUATOR, LEDGER_CMD_OP]⟩,
  ⟨0x14, 1, 0, [LEDGER_CMD_RESULT_RESULT, LEDGER_CMD_RESULT_DONE]⟩,
  ⟨0x20, 1, 0, [LEDGER_CFG_VERIFY_DAYS, LEDGER_CFG_TAIL, LEDGER_CFG_JOURNAL_AGE]⟩,
  ⟨0x24, 1, 0, [LEDGER_GEOM_FIRST_TRACK, LEDGER_GEOM_GUARD, LEDGER_GEOM_SKEW]⟩,
  ⟨0x28, 1, 0, [LEDGER_MARGIN_MARGIN_TALLY, LEDGER_MARGIN_RETIRE_TALLY]⟩,
  ⟨0x40, 6, 4, [LEDGER_COUNT_ENTRIES]⟩,
  ⟨0x58, 1, 0, [LEDGER_DUE_ENTRIES]⟩,
  ⟨0x5C, 1, 0, [LEDGER_REWRITE_ENTRIES]⟩,
  ⟨0x80, 1, 0, [LEDGER_DEF_A_ACTUATOR, LEDGER_DEF_A_REACH]⟩,
  ⟨0x84, 1, 0, [LEDGER_DEF_B_SLOT]⟩]

def ledgerRegs1 : List RegDesc := [
  ⟨0x88, 1, 0, [LEDGER_DEF_C_FIRST_BIT, LEDGER_DEF_C_LENGTH]⟩,
  ⟨0x8C, 1, 0, [LEDGER_DEF_GO_OP]⟩,
  ⟨0x90, 1, 0, [LEDGER_DEF_STATUS_WINDOWS, LEDGER_DEF_STATUS_FULL, LEDGER_DEF_STATUS_NOT_FOUND]⟩,
  ⟨0x100, 96, 4, [LEDGER_SERIAL_SERIAL]⟩]

/-- The registers of the ledger block. -/
def ledgerRegs : List RegDesc := ledgerRegs0 ++ ledgerRegs1

def stripeRegs0 : List RegDesc := [
  ⟨0x0, 1, 0, [SR_CTL_ENGINE_EN, SR_CTL_LANE_EN]⟩,
  ⟨0x4, 1, 0, [SR_STATUS_ENGINE_UP, SR_STATUS_LANE_UP, SR_STATUS_JOBS_WAITING]⟩,
  ⟨0x10, 4, 8, [SR_CLASS_0_K, SR_CLASS_0_M, SR_CLASS_0_WMIN, SR_CLASS_0_VALID]⟩,
  ⟨0x14, 4, 8, [SR_CLASS_4_HDAS]⟩,
  ⟨0x40, 1, 0, [SR_RA_EXTRA, SR_RA_ENABLE, SR_RA_START_MS, SR_RA_DEADLINE]⟩,
  ⟨0x50, 1, 0, [SR_REBUILD_MOVER, SR_REBUILD_SHARE, SR_REBUILD_PAUSE]⟩,
  ⟨0x54, 1, 0, [SR_REBUILD_STATUS_PORTS, SR_REBUILD_STATUS_DONE]⟩,
  ⟨0x58, 1, 0, [SR_LEFT_LO_BYTES_LO]⟩,
  ⟨0x5C, 1, 0, [SR_LEFT_HI_BYTES_HI]⟩,
  ⟨0x60, 1, 0, [SR_DEBT_ENTRIES]⟩,
  ⟨0x70, 1, 0, [SR_AUDIT_AUDIT_DAYS, SR_AUDIT_SHARE, SR_AUDIT_ENABLE]⟩,
  ⟨0x74, 1, 0, [SR_AUDIT_POS_LO_OBJECT_LO]⟩]

def stripeRegs1 : List RegDesc := [
  ⟨0x78, 1, 0, [SR_AUDIT_POS_HI_OBJECT_HI]⟩,
  ⟨0x80, 1, 0, [SR_COUNTS_A_RA_SECTORS, SR_COUNTS_A_RA_LOST]⟩,
  ⟨0x84, 1, 0, [SR_COUNTS_B_LATE_DECODES, SR_COUNTS_B_STRIPES_REBUILT]⟩,
  ⟨0x88, 1, 0, [SR_COUNTS_C_PARITY_MISMATCH, SR_COUNTS_C_DAMAGED_OBJECTS, SR_COUNTS_C_REFUSED_STORES]⟩,
  ⟨0x100, 1, 0, [HASH_BYTES_LO_COUNT_LO]⟩,
  ⟨0x104, 1, 0, [HASH_BYTES_HI_COUNT_HI]⟩,
  ⟨0x108, 1, 0, [HASH_MISMATCH_FETCHES, HASH_MISMATCH_AUDITS]⟩]

/-- The registers of the stripe block. -/
def stripeRegs : List RegDesc := stripeRegs0 ++ stripeRegs1

def poolRegs0 : List RegDesc := [
  ⟨0x0, 1, 0, [POOL_STATUS_READY, POOL_STATUS_SCRUBBING, POOL_STATUS_LOG_USED, POOL_STATUS_CE_SEEN, POOL_STATUS_UE_SEEN, POOL_STATUS_LOG_OVERFLOW]⟩,
  ⟨0x4, 1, 0, [POOL_CTL_SCRUB_EN, POOL_CTL_SCRUB_HOURS, POOL_CTL_LOG_CLEAR]⟩,
  ⟨0x8, 1, 0, [POOL_ERR_COUNTS_CE, POOL_ERR_COUNTS_UE]⟩,
  ⟨0xC, 1, 0, [POOL_SPARE_ROWS, POOL_SPARE_LANES, POOL_SPARE_SPARE_FAIL]⟩,
  ⟨0x20, 1, 0, [POOL_DIR_CTL_MODE, POOL_DIR_CTL_CARVE, POOL_DIR_CTL_MOVER, POOL_DIR_CTL_SEQ_CELLS, POOL_DIR_CTL_SEQ_WAYS, POOL_DIR_CTL_OFFER_CLEAN]⟩,
  ⟨0x24, 1, 0, [POOL_DIR_STATUS_MODE_IN_FORCE, POOL_DIR_STATUS_CARVE_IN_FORCE, POOL_DIR_STATUS_SEGMENTS]⟩,
  ⟨0x28, 1, 0, [POOL_DIR_SEQ_LO_ACTIVE_LO]⟩,
  ⟨0x2C, 1, 0, [POOL_DIR_SEQ_HI_ACTIVE_HI]⟩,
  ⟨0x30, 1, 0, [POOL_DIR_HITS_HITS]⟩,
  ⟨0x34, 1, 0, [POOL_DIR_MISSES_MISSES]⟩,
  ⟨0x38, 1, 0, [POOL_DIR_COUNTS_WRITE_STALLS, POOL_DIR_COUNTS_ALLOC_WAITS]⟩,
  ⟨0x3C, 1, 0, [POOL_DIR_OFFERS_DECLINED, POOL_DIR_OFFERS_SEQ_DISCARDS]⟩]

def poolRegs1 : List RegDesc := [
  ⟨0x40, 1, 0, [POOL_DIR_RATE_SHARE, POOL_DIR_RATE_DEPTH]⟩,
  ⟨0x100, 32, 16, [POOL_LOG_0_ADDR]⟩,
  ⟨0x104, 32, 16, [POOL_LOG_4_SYNDROME, POOL_LOG_4_COUNT, POOL_LOG_4_UE, POOL_LOG_4_ADDR_SUSPECT, POOL_LOG_4_VALID]⟩,
  ⟨0x108, 32, 16, [POOL_LOG_8_LAST]⟩]

/-- The registers of the pool block. -/
def poolRegs : List RegDesc := poolRegs0 ++ poolRegs1

def moverRegs0 : List RegDesc := [
  ⟨0x0, 1, 0, [MV_SRC_LO_ADDR_LO]⟩,
  ⟨0x4, 1, 0, [MV_SRC_HI_ADDR_HI, MV_SRC_HI_SPACE]⟩,
  ⟨0x8, 1, 0, [MV_DST_LO_ADDR_LO]⟩,
  ⟨0xC, 1, 0, [MV_DST_HI_ADDR_HI, MV_DST_HI_SPACE]⟩,
  ⟨0x10, 1, 0, [MV_COUNT_BYTES]⟩,
  ⟨0x14, 1, 0, [MV_CTL_PRIO, MV_CTL_HASH_EN, MV_CTL_HASH_LANE, MV_CTL_IRQ_EN]⟩,
  ⟨0x18, 1, 0, [MV_GO_GO, MV_GO_WITHDRAW]⟩,
  ⟨0x1C, 1, 0, [MV_STATUS_RUNNING, MV_STATUS_QUEUED, MV_STATUS_LAST, MV_STATUS_DONE, MV_STATUS_ERROR, MV_STATUS_REFUSED_SEEN]⟩,
  ⟨0x20, 1, 0, [MV_ERR_LO_ADDR_LO]⟩,
  ⟨0x24, 1, 0, [MV_ERR_HI_ADDR_HI]⟩,
  ⟨0x28, 1, 0, [MV_RATE_SHARE, MV_RATE_DEPTH]⟩,
  ⟨0x2C, 1, 0, [MV_BYTES_LO_COUNT_LO]⟩]

def moverRegs1 : List RegDesc := [
  ⟨0x30, 1, 0, [MV_BYTES_HI_COUNT_HI]⟩]

/-- The registers of the mover block. -/
def moverRegs : List RegDesc := moverRegs0 ++ moverRegs1

def moverBlockRegs0 : List RegDesc := [
  ⟨0xF000, 1, 0, [MV_SUMMARY_BUSY]⟩]

/-- The registers of the moverBlock block. -/
def moverBlockRegs : List RegDesc := moverBlockRegs0

def reservoirRegs0 : List RegDesc := [
  ⟨0x0, 1, 0, [RSV_STATUS_READY, RSV_STATUS_OUT_OF_SERVICE, RSV_STATUS_READ_ONLY, RSV_STATUS_STAGING_LOW, RSV_STATUS_GC_ACTIVE, RSV_STATUS_THROTTLED, RSV_STATUS_DIES_FAILED, RSV_STATUS_PARITY_USED, RSV_STATUS_UE_SEEN]⟩,
  ⟨0x4, 1, 0, [RSV_CTL_GC_LOW, RSV_CTL_GC_HIGH, RSV_CTL_WL_INTERVAL]⟩,
  ⟨0x8, 1, 0, [RSV_SPACE_STAGE_FREE_GIB, RSV_SPACE_CLEAN_FREE_GIB]⟩,
  ⟨0xC, 1, 0, [RSV_PACE_STAGE_PACE_GIB, RSV_PACE_STAGE_RESUME_GIB]⟩,
  ⟨0x10, 1, 0, [RSV_BUDGET_CLEAN_GIB_DAY, RSV_BUDGET_CLEAN_GIB_TODAY]⟩,
  ⟨0x14, 1, 0, [RSV_READ_VERIFY_BITS, RSV_READ_RETRY_STEPS, RSV_READ_THROTTLE_C]⟩,
  ⟨0x18, 1, 0, [RSV_HEALTH_SPARE_PCT, RSV_HEALTH_WEAR_PCT, RSV_HEALTH_TEMP_MAX]⟩,
  ⟨0x1C, 1, 0, [RSV_WARN_SPARE_WARN, RSV_WARN_WEAR_WARN, RSV_WARN_TEMP_WARN]⟩,
  ⟨0x20, 1, 0, [RSV_EVENTS_SPARE_LOW, RSV_EVENTS_WEAR_HIGH, RSV_EVENTS_TEMP_HIGH, RSV_EVENTS_DIE_LOST, RSV_EVENTS_UE_CLOSED, RSV_EVENTS_PROGRAM_FAIL, RSV_EVENTS_OUT]⟩,
  ⟨0x24, 1, 0, [RSV_COUNTS_A_PARITY_REBUILDS, RSV_COUNTS_A_RETRIES_OK]⟩,
  ⟨0x28, 1, 0, [RSV_COUNTS_B_UNCORRECTABLE, RSV_COUNTS_B_PROGRAM_FAILS]⟩,
  ⟨0x2C, 1, 0, [RSV_COUNTS_C_ERASE_FAILS, RSV_COUNTS_C_BLOCKS_RETIRED]⟩]

def reservoirRegs1 : List RegDesc := [
  ⟨0x30, 1, 0, [RSV_DECLINES_DECLINED_FULL, RSV_DECLINES_DECLINED_BUDGET]⟩,
  ⟨0x40, 1, 0, [RSV_DIES_LO_FAILED_LO]⟩,
  ⟨0x44, 1, 0, [RSV_DIES_HI_FAILED_HI]⟩,
  ⟨0x48, 1, 0, [RSV_PROG_LO_COUNT_LO]⟩,
  ⟨0x4C, 1, 0, [RSV_PROG_HI_COUNT_HI]⟩,
  ⟨0x50, 1, 0, [RSV_ACCEPT_LO_COUNT_LO]⟩,
  ⟨0x54, 1, 0, [RSV_ACCEPT_HI_COUNT_HI]⟩,
  ⟨0x60, 1, 0, [RSV_DISCARD_LO_TU_LO]⟩,
  ⟨0x64, 1, 0, [RSV_DISCARD_HI_TU_HI]⟩,
  ⟨0x68, 1, 0, [RSV_DISCARD_LEN_TUS]⟩,
  ⟨0x6C, 1, 0, [RSV_DISCARD_GO_GO]⟩,
  ⟨0x400, 64, 8, [RSV_VT_SET_0_LEVELS_1_4]⟩]

def reservoirRegs2 : List RegDesc := [
  ⟨0x404, 64, 8, [RSV_VT_SET_4_LEVELS_5_7]⟩]

/-- The registers of the reservoir block. -/
def reservoirRegs : List RegDesc := reservoirRegs0 ++ reservoirRegs1 ++ reservoirRegs2

def hostRegs0 : List RegDesc := [
  ⟨0x0, 1, 0, [HP_LINK_UP, HP_LINK_MTU_JUMBO, HP_LINK_CHANGED]⟩,
  ⟨0x4, 1, 0, [HP_CONN_IO_QUEUES, HP_CONN_ADMIN, HP_CONN_ENABLED, HP_CONN_READY, HP_CONN_PROCESSING_PAUSED]⟩,
  ⟨0x8, 1, 0, [HP_ERRS_RX_DROPS, HP_ERRS_DIGEST_ERRS]⟩,
  ⟨0x10, 1, 0, [HP_CMDS_LO_COUNT_LO]⟩,
  ⟨0x14, 1, 0, [HP_CMDS_HI_COUNT_HI]⟩]

/-- The registers of the host block. -/
def hostRegs : List RegDesc := hostRegs0

def queueRegs0 : List RegDesc := [
  ⟨0x0, 1, 0, [QE_CTL_IOQ_MAX, QE_CTL_DEPTH_MAX]⟩,
  ⟨0x4, 1, 0, [QE_LOCKS_IN_USE, QE_LOCKS_WAITING]⟩,
  ⟨0x8, 1, 0, [QE_LOCK_COUNTS_STALLS, QE_LOCK_COUNTS_FULL_WAITS]⟩,
  ⟨0x10, 1, 0, [QE_COMMIT_LO_SEQ_LO]⟩,
  ⟨0x14, 1, 0, [QE_COMMIT_HI_SEQ_HI]⟩,
  ⟨0x18, 1, 0, [QE_DURABLE_LO_SEQ_LO]⟩,
  ⟨0x1C, 1, 0, [QE_DURABLE_HI_SEQ_HI]⟩]

/-- The registers of the queue block. -/
def queueRegs : List RegDesc := queueRegs0

def assayRegs0 : List RegDesc := [
  ⟨0x0, 1, 0, [ASY_STATUS_TIME_VALID, ASY_STATUS_DISAGREE, ASY_STATUS_SLEWING, ASY_STATUS_LONG_SLEW, ASY_STATUS_SEAL_BROKEN, ASY_STATUS_CELL_LOW, ASY_STATUS_BANK_LOST, ASY_STATUS_SOURCE]⟩,
  ⟨0x4, 1, 0, [ASY_OFFSET_D]⟩,
  ⟨0x8, 1, 0, [ASY_RATE_RATE_PPB]⟩,
  ⟨0xC, 1, 0, [ASY_UTC_TAI_UTC, ASY_UTC_FROM_PTP]⟩,
  ⟨0x10, 1, 0, [ASY_SW_VERSION]⟩,
  ⟨0x14, 1, 0, [ASY_SW_CRC_CRC]⟩,
  ⟨0x18, 1, 0, [ASY_PARAM_INTERVAL_S, ASY_PARAM_STEP_AFTER_H]⟩,
  ⟨0x1C, 1, 0, [ASY_CELL_CELL_MV]⟩,
  ⟨0x20, 1, 0, [ASY_METER_SEQ_SEQ]⟩,
  ⟨0x24, 1, 0, [ASY_MARK_SEQ_SEQ]⟩,
  ⟨0x100, 26, 8, [ASY_ENERGY_LO_MJ_LO]⟩,
  ⟨0x104, 26, 8, [ASY_ENERGY_HI_MJ_HI]⟩]

def assayRegs1 : List RegDesc := [
  ⟨0x200, 26, 4, [ASY_POWER_POWER, ASY_POWER_OVERRANGE]⟩,
  ⟨0x300, 16, 4, [ASY_BANK_WORD]⟩]

/-- The registers of the assay block. -/
def assayRegs : List RegDesc := assayRegs0 ++ assayRegs1

def resetRegs0 : List RegDesc := [
  ⟨0x0, 1, 0, [RST_STATUS_LAST_CAUSE, RST_STATUS_PHASE, RST_STATUS_WDOG_STOPPED, RST_STATUS_EARLY_RELEASE, RST_STATUS_WDOG_FIRED, RST_STATUS_IGNORED_RESET]⟩,
  ⟨0x4, 1, 0, [RST_CTL_WARM, RST_CTL_COLD]⟩,
  ⟨0x8, 1, 0, [RST_COUNT_COUNT]⟩,
  ⟨0xC, 1, 0, [RST_TIME_LO_TIME_LO]⟩,
  ⟨0x10, 1, 0, [RST_TIME_HI_TIME_HI]⟩,
  ⟨0x14, 1, 0, [RST_WDOG_PERIOD_MS, RST_WDOG_ACTION, RST_WDOG_ENABLE]⟩,
  ⟨0x18, 1, 0, [RST_WDOG_KICK_KEY]⟩,
  ⟨0x20, 1, 0, [RST_BLOCK_REQ_KIND, RST_BLOCK_REQ_INSTANCE, RST_BLOCK_REQ_HOLD, RST_BLOCK_REQ_GO]⟩,
  ⟨0x24, 1, 0, [RST_BLOCK_RESULT_DONE, RST_BLOCK_RESULT_TIMED_OUT, RST_BLOCK_RESULT_STILL_FAULTED, RST_BLOCK_RESULT_BUSY, RST_BLOCK_RESULT_REFUSED]⟩,
  ⟨0x28, 1, 0, [RST_RELEASE_KIND, RST_RELEASE_INSTANCE, RST_RELEASE_GO]⟩,
  ⟨0x40, 8, 4, [RST_BLOCK_TMO_TMO_MS]⟩,
  ⟨0x60, 1, 0, [RST_BLOCK_COUNTS_BLOCK_RESETS, RST_BLOCK_COUNTS_TIMEOUTS]⟩]

def resetRegs1 : List RegDesc := [
  ⟨0x80, 1, 0, [RST_CLK_LOCK_HOST, RST_CLK_LOCK_MGMT, RST_CLK_LOCK_DDR, RST_CLK_LOCK_NAND, RST_CLK_LOCK_MOTOR, RST_CLK_LOCK_LOW_SPEED]⟩,
  ⟨0x84, 1, 0, [RST_ACT_LOCK_LO_ACT_LO]⟩,
  ⟨0x88, 1, 0, [RST_ACT_LOCK_HI_ACT_HI]⟩,
  ⟨0xA0, 1, 0, [RST_GRAVE_MOTION, RST_GRAVE_ASSAY, RST_GRAVE_FEEDS, RST_GRAVE_LOADER, RST_GRAVE_FABRIC, RST_GRAVE_WIRE, RST_GRAVE_ALIVE_STOPPED]⟩]

/-- The registers of the reset block. -/
def resetRegs : List RegDesc := resetRegs0 ++ resetRegs1

def loaderRegs0 : List RegDesc := [
  ⟨0x0, 1, 0, [CFG_STATUS_STATE, CFG_STATUS_COPY_USED, CFG_STATUS_COPY0_VALID, CFG_STATUS_COPY1_VALID, CFG_STATUS_NO_FIRMWARE, CFG_STATUS_FLASH_BAD, CFG_STATUS_FALLBACK, CFG_STATUS_COMMIT_DONE, CFG_STATUS_COMMIT_FAILED]⟩,
  ⟨0x4, 1, 0, [CFG_RUNNING_SEQ]⟩,
  ⟨0x8, 1, 0, [CFG_COPY0_SEQ]⟩,
  ⟨0xC, 1, 0, [CFG_COPY1_SEQ]⟩,
  ⟨0x10, 1, 0, [CFG_ERROR_CAUSE, CFG_ERROR_SECTION]⟩,
  ⟨0x14, 1, 0, [CFG_NO_MODEL_PORTS]⟩,
  ⟨0x18, 1, 0, [CFG_FLASH_SIZE_MIB]⟩,
  ⟨0x20, 4, 4, [CFG_SHELF_SHELF]⟩]

/-- The registers of the loader block. -/
def loaderRegs : List RegDesc := loaderRegs0

def faultRegs0 : List RegDesc := [
  ⟨0x0, 1, 0, [FLT_STATUS_FAULTED, FLT_STATUS_ALIVE_STOPPED, FLT_STATUS_EVENT, FLT_STATUS_TRANSIENT_SEEN, FLT_STATUS_LASTING_SEEN, FLT_STATUS_RECOVERED, FLT_STATUS_CE_SEEN, FLT_STATUS_UE_SEEN, FLT_STATUS_REACT_REFUSED]⟩,
  ⟨0x4, 1, 0, [FLT_UNITS_IN_FAULT]⟩,
  ⟨0x8, 1, 0, [FLT_IRQ_EN_ENABLE]⟩,
  ⟨0xC, 1, 0, [FLT_REACT_IRQ, FLT_REACT_TRAP, FLT_REACT_ACTION, FLT_REACT_ALIVE_STOP]⟩,
  ⟨0x10, 1, 0, [FLT_QUIET_QUIET_S, FLT_QUIET_BACKOFF]⟩,
  ⟨0x14, 1, 0, [FLT_WARN_WARN_EVERY]⟩,
  ⟨0x18, 1, 0, [FLT_HIST_CTL_NEXT, FLT_HIST_CTL_CLEAR, FLT_HIST_CTL_TOTAL]⟩,
  ⟨0x1C, 1, 0, [FLT_MEM_SEL_MEM, FLT_MEM_SEL_MEMS, FLT_MEM_SEL_LOG_CLEAR]⟩,
  ⟨0x20, 1, 0, [FLT_MEM_COUNTS_CE, FLT_MEM_COUNTS_UE]⟩,
  ⟨0x40, 32, 4, [FLT_UNIT_COUNT_RECOVERIES, FLT_UNIT_COUNT_TRANSIENTS]⟩,
  ⟨0x100, 16, 32, [FLT_HIST_0_TIME_LO]⟩,
  ⟨0x104, 16, 32, [FLT_HIST_4_TIME_HI]⟩]

def faultRegs1 : List RegDesc := [
  ⟨0x108, 16, 32, [FLT_HIST_8_SOURCE, FLT_HIST_8_SEQUENCE]⟩,
  ⟨0x10C, 16, 32, [FLT_HIST_C_CODE, FLT_HIST_C_UNIT, FLT_HIST_C_CLASS, FLT_HIST_C_REACTION, FLT_HIST_C_PATH, FLT_HIST_C_VALID]⟩,
  ⟨0x110, 16, 32, [FLT_HIST_10_DETAIL]⟩,
  ⟨0x114, 16, 32, [FLT_HIST_14_DETAIL_HI]⟩,
  ⟨0x300, 32, 8, [FLT_MEM_LOG_0_ADDR]⟩,
  ⟨0x304, 32, 8, [FLT_MEM_LOG_4_SYNDROME, FLT_MEM_LOG_4_COUNT, FLT_MEM_LOG_4_UE, FLT_MEM_LOG_4_ADDR_SUSPECT, FLT_MEM_LOG_4_VALID]⟩]

/-- The registers of the fault block. -/
def faultRegs : List RegDesc := faultRegs0 ++ faultRegs1

def daybookRegs0 : List RegDesc := [
  ⟨0x0, 1, 0, [DB_CTL_MIRROR_MS, DB_CTL_SEQ_SEV, DB_CTL_FREEZE_MAX_S]⟩,
  ⟨0x4, 1, 0, [DB_STATUS_FROZEN, DB_STATUS_MIRROR_BEHIND, DB_STATUS_HELD]⟩,
  ⟨0x8, 1, 0, [DB_SEQ_NEWEST]⟩,
  ⟨0xC, 1, 0, [DB_DROPS_DROPPED, DB_DROPS_HOLD_DROPPED]⟩,
  ⟨0x10, 1, 0, [DB_SNAP_MAP_SET_0, DB_SNAP_MAP_SET_1, DB_SNAP_MAP_SET_2, DB_SNAP_MAP_SET_3, DB_SNAP_MAP_SET_4, DB_SNAP_MAP_SET_5, DB_SNAP_MAP_SET_6, DB_SNAP_MAP_SET_7]⟩,
  ⟨0x100, 21, 4, [DB_SNAP1_ADDR]⟩,
  ⟨0x180, 21, 4, [DB_SNAP2_ADDR]⟩,
  ⟨0x200, 21, 4, [DB_SNAP3_ADDR]⟩,
  ⟨0x280, 21, 4, [DB_SNAP4_ADDR]⟩,
  ⟨0x300, 21, 4, [DB_SNAP5_ADDR]⟩,
  ⟨0x380, 21, 4, [DB_SNAP6_ADDR]⟩,
  ⟨0x400, 21, 4, [DB_SNAP7_ADDR]⟩]

def daybookRegs1 : List RegDesc := [
  ⟨0x40, 4, 4, [DB_WRITE_DATA_DATA]⟩,
  ⟨0x50, 1, 0, [DB_WRITE_GO_TRIGGER, DB_WRITE_GO_SEVERITY]⟩]

/-- The registers of the daybook block. -/
def daybookRegs : List RegDesc := daybookRegs0 ++ daybookRegs1

def bursarRegs0 : List RegDesc := [
  ⟨0x0, 1, 0, [BUR_STATUS_RUNNING, BUR_STATUS_BOOT_ROM, BUR_STATUS_MGMT_UP, BUR_STATUS_EID, BUR_STATUS_SMB_ADDR]⟩,
  ⟨0x4, 1, 0, [BUR_HEALTH_HEALTH_MODE, BUR_HEALTH_SYSLOG_SEV, BUR_HEALTH_HDA_TEMP_WARN]⟩,
  ⟨0x8, 1, 0, [BUR_WARN_PENDING]⟩,
  ⟨0xC, 1, 0, [BUR_FW_RUNNING_SLOT, BUR_FW_NEXT_SLOT]⟩,
  ⟨0x10, 1, 0, [BUR_FW_VAL1_VALUE]⟩,
  ⟨0x14, 1, 0, [BUR_FW_VAL2_VALUE]⟩]

/-- The registers of the bursar block. -/
def bursarRegs : List RegDesc := bursarRegs0

def spindleLoopRegs0 : List RegDesc := [
  ⟨0x300, 1, 0, [LE_CTL_ENABLE, LE_CTL_MANUAL, LE_CTL_HOLD_SET, LE_CTL_RELOAD, LE_CTL_TUNE_START, LE_CTL_TUNE_STOP, LE_CTL_TUNE_RULE]⟩,
  ⟨0x304, 1, 0, [LE_STATUS_SET_IN_USE, LE_STATUS_REGION, LE_STATUS_OUT_SAT, LE_STATUS_I_SAT, LE_STATUS_RAMPING, LE_STATUS_TUNING, LE_STATUS_NOTCH1_BYP, LE_STATUS_NOTCH2_BYP, LE_STATUS_SWAP_CLAMPED, LE_STATUS_SET_INVALID, LE_STATUS_TUNE_DONE, LE_STATUS_TUNE_ABORTED, LE_STATUS_TUNE_REFUSED, LE_STATUS_OVERRUN, LE_STATUS_ABORT_CAUSE]⟩,
  ⟨0x308, 1, 0, [LE_MANUAL_VALUE]⟩,
  ⟨0x30C, 1, 0, [LE_DEMAND_DEMAND, LE_DEMAND_INTEG]⟩,
  ⟨0x310, 1, 0, [LE_SETPOINT_WORKING]⟩,
  ⟨0x314, 1, 0, [LE_RAMP_RATE]⟩,
  ⟨0x318, 1, 0, [LE_TUNE_CFG_AMP, LE_TUNE_CFG_CYCLES, LE_TUNE_CFG_TMO]⟩,
  ⟨0x31C, 1, 0, [LE_TUNE_BAND_HYST, LE_TUNE_BAND_LIMIT]⟩,
  ⟨0x320, 1, 0, [LE_TUNE_PERIOD_PU_NS]⟩,
  ⟨0x324, 1, 0, [LE_TUNE_AMPL_A]⟩,
  ⟨0x328, 1, 0, [LE_TUNE_KU_WORD]⟩,
  ⟨0x32C, 1, 0, [LE_TUNE_KP_WORD]⟩]

def spindleLoopRegs1 : List RegDesc := [
  ⟨0x330, 1, 0, [LE_TUNE_KI_WORD]⟩,
  ⟨0x334, 1, 0, [LE_TUNE_KD_WORD]⟩,
  ⟨0x338, 1, 0, [LE_COUNTS_OVERRUNS, LE_COUNTS_SWAP_CLAMPS]⟩,
  ⟨0x380, 1, 4, [LE_REGION_MAP_ENTRY_0, LE_REGION_MAP_ENTRY_1, LE_REGION_MAP_ENTRY_2, LE_REGION_MAP_ENTRY_3]⟩,
  ⟨0x400, 4, 32, [LE_SET_0_KP]⟩,
  ⟨0x404, 4, 32, [LE_SET_4_KI]⟩,
  ⟨0x408, 4, 32, [LE_SET_8_KD]⟩,
  ⟨0x40C, 4, 32, [LE_SET_C_TF]⟩,
  ⟨0x410, 4, 32, [LE_SET_10_OUT_LO, LE_SET_10_OUT_HI]⟩,
  ⟨0x414, 4, 32, [LE_SET_14_I_LO, LE_SET_14_I_HI]⟩,
  ⟨0x418, 4, 32, []⟩,
  ⟨0x41C, 4, 32, []⟩]

/-- The registers of a spindle loop-engine instance (R140): sets 0-3, map entries 0-3, notch words that read as 0. -/
def spindleLoopRegs : List RegDesc := spindleLoopRegs0 ++ spindleLoopRegs1

end Sys2Proof.Machine
end

