-- ==== Sys2Proof/Machine/State.lean ====
section
/-!
DEFINITION. Sys2Proof/Machine/State.lean: the state of the module as plain data: every register (through the register map),
every FIFO, queue, table, memory and hidden state that the spec names, what the module sends out, and the queue of waiting
commands; the state right after a power-on reset; the reasons a step can stop.
-/
namespace Sys2Proof.Machine

/-- The faults of the model. No command of the table stops the module: what the spec calls a fault is a state of a unit. -/
inductive Fault
  /-- No meaning raises this. Safe. -/
  | none
  deriving DecidableEq, Repr

/-- The refusals of the model. -/
inductive Refusal
  /-- An arm of exec whose command has no meaning yet. Safe: nothing is claimed of it. -/
  | notModelled (mnemonic : String)
  deriving DecidableEq, Repr

/-- What a command answers. -/
abbrev Res (σ : Type) := Host.Outcome σ Fault Refusal

/-- A full stamp (R9): 64-bit time, source ID, source sequence. -/
structure Stamp where
  time : Nat
  src : Nat
  seq : Nat
  deriving DecidableEq, Repr

/-- One source's stamp counter (R64, R66): its next sequence, its last stamp's time and how many stamps it has at that time. -/
structure StampSrc where
  seq : Nat
  last : Nat
  run : Nat
  deriving DecidableEq, Repr

/-- The stamp unit (R64-R66). `assay` is the Assay section's time in ticks, `unit` the stamp unit's time, which never falls. -/
structure TimeState where
  assay : Nat
  unit : Nat
  srcs : Table StampSrc
  deriving DecidableEq, Repr

/-- What the module keeps of one feed for R41 and R47: since when it is not good, whether it has been not good for 1 s since
its converter was marked, since when it is good, since when its converter is clean as standby. -/
structure FeedState where
  badSince : Option Nat
  cycled : Bool
  goodSince : Option Nat
  cleanSince : Option Nat
  deriving DecidableEq, Repr

/-- Feeds, converters, hold-up store and feed exercise beyond the block's registers (R41-R53). -/
structure PowerState where
  powered : Bool
  failing : Bool
  gap : Bool
  gapForced : Bool
  charged : Bool
  feedA : FeedState
  feedB : FeedState
  convTarget : Nat
  convLimit : Nat
  allPhasesUntil : Nat
  exerBase : Nat
  exerHalted : Bool
  exerEnd : Nat
  exerHome : Feed
  deferFrom : Option Nat
  lastSwap : Option Nat
  deriving DecidableEq, Repr

/-- Pace, governor, receive windows and the frames that the management port dropped (R55-R61): `low` is the lowest pace index since the
governor's last evaluation. -/
structure FabricState where
  seen : Bool
  low : Option Nat
  highRun : Nat
  shrunk : List Nat
  mgmtDrops : Nat
  deriving DecidableEq, Repr

/-- A preamplifier frame in flight or waiting on a head link (R75, R77, R87): `back` marks a write frame's read-back. -/
structure Frame where
  read : Bool
  addr : Nat
  data : Nat
  sw : Bool
  again : Bool
  deriving DecidableEq, Repr

/-- A work descriptor (R183). `combine` marks a re-read that the read-around asks to combine (R237). -/
structure Item where
  tag : Nat
  entry : Nat
  reach : Nat
  sector : Nat
  count : Nat
  deadline : Nat
  pool : Nat
  mover : Nat
  resultMap : Nat
  wseq : Nat
  combine : Bool
  withdrawn : Bool
  deriving DecidableEq, Repr

/-- A wait in progress (R192). `horiz` names the words to go to in horizontal mode (next, alt). -/
structure Wait where
  cond : Nat
  sense : Bool
  until_ : Nat
  handler : Nat
  horiz : Option (Nat × Nat)
  wedge : Bool
  index : Bool
  deriving DecidableEq, Repr

/-- An entry of the rewrite queue (R115): sector index (logical slot), its physical slot, result code, write sequence. -/
structure Rewrite where
  sector : Nat
  slot : Nat
  code : Nat
  wseq : Nat
  deriving DecidableEq, Repr

/-- A defect window (R221): actuator, reach, slot, first bit, length. -/
structure Defect where
  act : Nat
  reach : Nat
  slot : Nat
  bit : Nat
  len : Nat
  deriving DecidableEq, Repr

/-- The last sector run of the current item (R187, R191): its reach, sectors issued, results in by slot, relocated copies still to read
(logical slot, new slot), written sectors whose check-reader samples are due (R113), oldest first; `test` marks a horizontal word's test
sector, `angle` the wedge at which the run began, `windows` the defect windows of its slots (R94), `last` the sector being written,
`wasCut` a write cut that still holds the run (R61). -/
structure SecRun where
  op : Nat
  reach : Nat
  test : Bool
  angle : Nat
  windows : List Defect
  last : Option Rewrite
  wasCut : Bool
  count : Nat
  start : Nat
  raw : Bool
  wseqChk : Bool
  combine : Bool
  advance : Bool
  deadline : Nat
  began : Nat
  issued : Nat
  results : Table Nat
  relocated : Nat
  verifying : Bool
  paused : Bool
  verifyQ : List Rewrite
  relocQ : List (Nat × Nat)
  deriving DecidableEq, Repr

/-- A path's adapted values in a run (R91, R92, R95): the FIR taps as values, a, o, the gain in VGA steps, the timing loop's frequency in
1/64 bit, the target taps and GAIN_TARGET, LLR_SCALE, TA_THRESHOLD of the profile loaded, and the detector's noise predictors. -/
structure Chan91 where
  taps : List Rat
  asym : Rat
  offset : Rat
  gain : Rat
  freq : Rat
  target : List Int
  gainTarget : Nat
  llrScale : Nat
  taLimit : Nat
  noise : List Rat
  deriving DecidableEq, Repr

/-- A decoder's state between slices (R108): the posterior of every codeword bit and every check's messages. -/
structure DecSt where
  post : List Int
  msgs : List (List Int)
  deriving DecidableEq, Repr

/-- The inhibit causes of R73, each true while it holds the write output idle. -/
structure Gates where
  reset : Bool
  power : Bool
  offTrack : Bool
  fly : Bool
  flt : Bool
  shock : Bool
  presence : Bool
  deriving DecidableEq, Repr

/-- What a VCM bridge drives (R135, R136, R154): a demand in mA, Motion Safety's retract toward the ramp (a back-EMF in mV, a current
limit in mA), or nothing. -/
inductive Vcm
  | demand (ma : Rat)
  | toRamp (mv ma : Nat)
  | highZ
  deriving DecidableEq, Repr

/-- What an unload belongs to (R134, R138, R176, R86). -/
inductive UnloadFor
  | sequencer | stop | release | loadRetry
  deriving DecidableEq, Repr

/-- One actuator beyond its registers: head link, write gate, servo, read channel, sequencer. `pre` holds the preamplifier's registers as
last written or read, `chn` and `chk` the two reader paths, `fifo` the user bytes that the write path holds (R55, R194), `itemPos` how
many sectors the item has written and `itemFirst` the slot of the first, `lostAt` and `settleAt` the count of wedges at the entry to Lost
and at the hand-off, `retractAt` when a retract or the drive of an unload began, `unloadSeek` an unload on its seek to track 0, `vcm` what the
VCM bridge drives, `vcmMax` the VCM_IMAX_MA of before a reset, `resetHold` a demand that a reset holds until its retract, `coldCut` the
retract of a cold reset, `zones` the zone table in force since the last seek, `backlog` the
firmware's read items that found the work queue full, `curCodes` the item's final codes by sector (R184), `curReach` the cursor's reach, `rwWait` the failed
sectors that found the rewrite queue full, `hEntry` the horizontal word that the present horizontal run entered at (R190), `disarm` a
DISARM that waits for the customer item to end (R199). -/
structure Act where
  pre : Table Nat
  statusRead : Nat
  frames : List Frame
  frameFailed : Bool
  gates : Gates
  configured : Bool
  writing : Bool
  fltTried : Bool
  y : Rat
  vel : Rat
  invalidRun : Nat
  validRun : Nat
  lostAt : Nat
  periods : List Nat
  wedgeCount : Nat
  seekNs : Nat
  seekLen : Rat
  seekUp : Bool
  settleAt : Nat
  settleGood : Nat
  settleTries : Nat
  wrGood : Nat
  loadTries : Nat
  loadAt : Nat
  unloadFor : UnloadFor
  unloadSeek : Bool
  retractWait : Bool
  retractAt : Nat
  vcm : Vcm
  vcmMax : Nat
  resetHold : Bool
  coldCut : Bool
  zones : List (Nat × Nat)
  band : Nat
  work : List Item
  backlog : List Item
  cur : Option Item
  curMoverErr : Bool
  curViolation : Bool
  curIllegal : Bool
  curTimeout : Bool
  curFull : Bool
  curRewritten : Bool
  curCodes : Table Nat
  curFault : Bool
  doneQ : List (Nat × Nat)
  stack : List Nat
  wait : Option Wait
  run : Option SecRun
  rw : List Rewrite
  rwWait : List Rewrite
  chn : Chan91
  chk : Chan91
  fifo : List Byte
  itemPos : Nat
  itemFirst : Nat
  curReach : Nat
  postQ : List (Nat × Nat)
  wgReq : Bool
  transfer : Nat
  ranCold : Bool
  ranSince : Bool
  hEntry : Nat
  disarm : Bool
  deriving DecidableEq, Repr

/-- The spindle controller's purpose in braking (R172, R176, R86). -/
inductive BrakeFor
  | start | stop | release | lost
  deriving DecidableEq, Repr

/-- What a braking bridge does (R86, R172, R175, R176): nothing, the plug brake, the short brake. -/
inductive BrakePhase
  | coast | plug | short
  deriving DecidableEq, Repr

/-- One HDA port beyond its registers: presence, sensor link and spindle controller (R84-R87, R160-R177). `window` is the speed window
(R161), `zcAt` and `zcIval` Motion Safety's own last crossing and interval (R137), `brakeAt` when the short brake was last engaged, `duty`
the duty in force from `dutyAt` on and `dutyWas` the one before (R165), `powers` the bridge power in mW at the last samples (R166). -/
structure Port where
  settleEnd : Nat
  sensFails : Nat
  sensBad : Bool
  envInvalid : Bool
  releaseAt : Nat
  swFrame : Bool
  grant : Nat
  reserved : Nat
  times : List Nat
  lastCross : Nat
  lastComm : Nat
  misses : Nat
  ocRun : Nat
  ocAt : Nat
  fails : Nat
  lostRetries : Nat
  lostPend : Bool
  reachedAt : Option Nat
  catchUntil : Nat
  catching : Bool
  brakeFor : BrakeFor
  brake : BrakePhase
  brakeAt : Nat
  retryAt : Nat
  openAt : Nat
  cmdRpm : Nat
  goodCross : Nat
  deferStop : Bool
  flyRef : Nat
  window : Option (Nat × Nat)
  zcAt : Nat
  zcIval : Nat
  duty : Int
  dutyWas : Int
  dutyAt : Nat
  powers : List Rat
  deriving DecidableEq, Repr

/-- The Sluice beyond its registers (R178-R180): the request queue, and the spin-ups in order of admission with the evaluation
at which each was admitted. -/
structure SluiceState where
  queue : List Nat
  fresh : List Nat
  active : List (Nat × Nat)
  evals : Nat
  deriving DecidableEq, Repr

/-- A relay tune in progress (R155). -/
structure Tune where
  b : Rat
  out : Rat
  cycles : Nat
  lastUp : Option Rat
  periods : List Rat
  peak : Rat
  peaks : List Rat
  elapsed : Rat
  since : Nat
  deriving DecidableEq, Repr

/-- A notch's two past inputs and outputs. -/
structure Notch where
  x1 : Rat
  x2 : Rat
  y1 : Rat
  y2 : Rat
  deriving DecidableEq, Repr

/-- One loop-engine instance beyond its registers (R143-R158). `set` is the working copy of the coefficient set, eight words, `rampStart` a
start of the working setpoint from the measured value, `tuneEnd` the reference of the load that ends a tune, `span` the time in s of the
samples skipped since the last computed one. -/
structure LoopSt where
  z : Rat
  i : Rat
  prevM : Rat
  prevD : Rat
  working : Rat
  fresh : Bool
  rampStart : Bool
  tuneEnd : Option Rat
  span : Rat
  lastMode : Nat
  set : List Nat
  n1 : Notch
  n2 : Notch
  hUsed : Rat
  reload : Bool
  manualEnd : Bool
  gapLoad : Bool
  satHi : Bool
  satLo : Bool
  tune : Option Tune
  deriving DecidableEq, Repr

/-- The class of a decode job (R106). -/
inductive JobClass
  | first | deep | verify
  deriving DecidableEq, Repr

/-- A decode job (R106-R110). `m1`, `m2` are the marks found (offset, distance), `word` the soft codeword that it decodes, `alt` the one
framed from the second mark where that mark lies elsewhere (R100), `dec` the decoder's state after the slices so far. -/
structure Job where
  act : Nat
  tag : Nat
  cls : JobClass
  sector : Nat
  slot : Nat
  reach : Nat
  wseq : Option Nat
  budget : Nat
  deadline : Nat
  iters : Nat
  slice : Nat
  m1 : Option (Int × Nat)
  m2 : Option (Int × Nat)
  fromMark2 : Bool
  reframed : Bool
  wentDeep : Bool
  combine : Bool
  reads : Nat
  withdrawn : Bool
  word : List Int
  alt : List Int
  dec : Option DecSt
  deriving DecidableEq, Repr

/-- The decode pool: the shared queue of verify and first-pass jobs, the deep store, the jobs the lanes run, the combining
slots (R106-R112). -/
structure DecodeState where
  first : List Job
  deep : List Job
  lanes : Table Job
  sums : List Job
  iterHist : Table (List Nat)
  deriving DecidableEq, Repr

/-- A Reach Ledger entry (R214). `flags` is word 1 bits [55:48]. -/
structure LedEntry where
  openTime : Nat
  wp : Nat
  state : Nat
  temp : Nat
  profile : Nat
  days : Nat
  tally : Nat
  flags : Nat
  gen : Nat
  deriving DecidableEq, Repr

/-- An entry of a pending index journal (R211): kind, key, a cell's k, m and member index, first words, stripe identifier, stamp, and
when it became pending (R212). -/
structure JEntry where
  kind : Nat
  key : List Byte
  geom : List Nat
  a : Nat
  b : Nat
  sid : Nat
  stamp : Stamp
  since : Nat
  deriving DecidableEq, Repr

/-- The latched inputs of an actuator's band layout (R205). -/
structure Layout where
  zones : List (Nat × Nat)
  first : Nat
  guard : Nat
  skew : Nat
  surfaces : List Nat
  reaches : Nat
  deriving DecidableEq, Repr

/-- A verifying pass in progress (R219): the reach, the next slot, slots without a passing copy seen. -/
structure Pass where
  reach : Nat
  next : Nat
  lost : Bool
  deriving DecidableEq, Repr

/-- What the Reservoir mirror partition holds of the ledger and the start (R190, R218, R223). `calib` lists calibrations: actuator,
SERIAL, the AS_HEAD words of its heads. -/
structure Mirror where
  led : Table LedEntry
  serials : Table Nat
  defects : List Defect
  calib : List (Nat × Nat × List Nat)
  lastTick : Nat
  valid : Bool
  deriving DecidableEq, Repr

/-- A cell that is being copied out (R216, R220): the member, where it lies, where its copy is written. -/
structure Copy where
  sid : Nat
  member : Nat
  source : CellPlace
  target : CellPlace
  deriving DecidableEq, Repr

/-- The Reach Ledger beyond its registers (R205-R224). `chains` holds the entries of the journal sectors written on each reach, oldest
first, `jslot` the slot of the last of those sectors, `provData` the bytes of the provenance sectors written (R325), by place. `relocs` holds each reach's relocations (logical slot, new slot), `openStamps` the
stamps that the headers still to be written take (R215), `tas` where a read slot has shown a thermal asperity (R221), `copying` the cells
that are being copied out. -/
structure LedgerState where
  entries : Table LedEntry
  journals : Table (List JEntry)
  chains : Table (List JEntry)
  jslot : Table Nat
  provData : Table (List Byte)
  layouts : Table Layout
  defects : List Defect
  passes : Table Pass
  relocs : Table (List (Nat × Nat))
  invSerial : Table Nat
  openStamps : Table Stamp
  tas : List Defect
  copying : List Copy
  lastTick : Nat
  mirror : Mirror
  deriving DecidableEq, Repr

/-- Where the members of one stripe lie (R228, R229): stripe number, data cells, parity cells, one place per member (none: not
written). -/
structure StripeRec where
  sid : Nat
  j : Nat
  m : Nat
  places : List (Option CellPlace)
  deriving DecidableEq, Repr

/-- One span of an object (R297, R321): offset, length, SHA-256. -/
structure Span where
  offset : Nat
  len : Nat
  hash : List Byte
  deriving DecidableEq, Repr

/-- One provenance event (R324). `info` is its last 32 bytes. -/
structure ProvEvent where
  kind : Nat
  len : Nat
  offset : Nat
  stamp : Stamp
  commit : Nat
  info : List Byte
  deriving DecidableEq, Repr

/-- An object: namespace, key, value bytes, spans, hashes, midstate (R322: state words, length, pending bytes), stripes,
provenance events, the places of its latest provenance sector's copies and that sector's PREV (R325). -/
structure Obj where
  ns : Nat
  key : List Byte
  value : List Byte
  spans : List Span
  hash : List Byte
  midState : List Nat
  midLen : Nat
  midPending : List Byte
  stripes : List StripeRec
  events : List ProvEvent
  damaged : Bool
  provs : List CellPlace
  prev : Option CellPlace
  deriving DecidableEq, Repr

/-- One entry of the object index: namespace, key, object number. -/
structure IdxEntry where
  ns : Nat
  key : List Byte
  obj : Nat
  deriving DecidableEq, Repr

/-- What a commit replaced (R312): commit number, key, the object number and record before it (none: absent). -/
structure Undo where
  num : Nat
  ns : Nat
  key : List Byte
  before : Option (Nat × Obj)
  deriving DecidableEq, Repr

/-- A read that a fetch has asked for (R235): the member, its first sector, when its item was queued. -/
structure Asked where
  sid : Nat
  member : Nat
  first : Nat
  since : Nat
  deriving DecidableEq, Repr

/-- A fetch's reads (R235): its tag, the command, the object, the range to send, the data cells it needs (stripe, member), the
members asked, bad, good and rebuilt sectors as (stripe, member, sector), exhausted positions (stripe, sector), the combined re-reads that
are on their way and the sectors whose combined reads are used up (R237). -/
structure Fetch where
  tag : Nat
  cmd : Sqe
  obj : Nat
  offset : Nat
  len : Nat
  need : List (Nat × Nat)
  asked : List Asked
  bad : List (Nat × Nat × Nat)
  good : List (Nat × Nat × Nat)
  rebuilt : List (Nat × Nat × Nat)
  exhausted : List (Nat × Nat)
  rereads : List (Nat × Nat × Nat)
  spent : List (Nat × Nat × Nat)
  deriving DecidableEq, Repr

/-- The work of a stripe engine job (R232). -/
inductive EngineWork
  | readAround (tag stripe sector : Nat)
  | encode (obj : Nat)
  | rebuild (sid member : Nat)
  | audit (obj : Nat)
  deriving DecidableEq, Repr

/-- A stripe engine job: priority 1 to 3 (R232) and its work. -/
structure EngineJob where
  prio : Nat
  work : EngineWork
  deriving DecidableEq, Repr

/-- Stripe engines, fetches, debt and rebuild beyond their registers (R226-R243). `missing` lists members (stripe identifier,
member, port) to rebuild, `lost` the stripes recorded as lost (R242), `auditFrom` when the present audit cycle
began (R243). -/
structure StripeState where
  jobs : List EngineJob
  running : Table EngineJob
  grants : Table Nat
  fetches : List Fetch
  debt : List (Nat × Nat × Nat)
  missing : List (Nat × Nat × Nat)
  lost : List Nat
  auditPos : Nat
  auditFrom : Nat
  deriving DecidableEq, Repr

/-- State of a directory entry (R253). -/
inductive SegState
  | filling | clean | dirty | draining | staged
  deriving DecidableEq, Repr

/-- A directory entry that is not Invalid: its tag, its state, what a Draining segment was, when it was last used. -/
structure Seg where
  act : Nat
  reach : Nat
  slot : Nat
  state : SegState
  wasDirty : Bool
  used : Nat
  obj : Nat
  deriving DecidableEq, Repr

/-- A sequential-store detector (R256): the object and stripe of the last cell allocated, the run's length, when. -/
structure SeqDet where
  obj : Nat
  last : Nat
  run : Nat
  at_ : Nat
  on : Bool
  deriving DecidableEq, Repr

/-- The Pool: bytes, poisoned codewords (address div 16, stored syndrome), directory, detectors (R244-R258), how far the scrub pass in
progress has read, and when it began (R249). -/
structure PoolState where
  mem : Table (BitVec 8)
  poison : Table Nat
  segs : Table Seg
  dets : Table SeqDet
  useClock : Nat
  waiting : List Seg
  scrubPos : Nat
  scrubFrom : Nat
  deriving DecidableEq, Repr

/-- A mover request (R261). `owner` is 0 for software, 1 + n for the sequencer of An. -/
structure MvReq where
  srcSpace : Nat
  src : Nat
  dstSpace : Nat
  dst : Nat
  count : Nat
  left : Nat
  prio : Nat
  hash : Option Nat
  withdrawn : Bool
  err : Option Nat
  owner : Nat
  deriving DecidableEq, Repr

/-- One mover channel: the running request first, then the queue; its limiter's tokens in 1/2^40 of a token and when they were
last counted. -/
structure Chan where
  reqs : List MvReq
  tokens : Nat
  at_ : Nat
  deriving DecidableEq, Repr

/-- The movers: channels, the channel last granted per priority level (R262), the bytes hashed per lane, streams into and
out of the Pool that have no store of their own here (R261). -/
structure MoverState where
  chans : Table Chan
  turns : Table Nat
  hashed : Table (List Byte)
  deriving DecidableEq, Repr

/-- A Reservoir block's table entry (R273). -/
structure BlkEntry where
  erases : Nat
  programTime : Nat
  temp : Int
  hint : Nat
  retired : Bool
  deriving DecidableEq, Repr

/-- A band (R268, R270): group, what it is open for (0 staging, 1 clean, 2 and 3 the metadata copies, 4 collection), blocks, TUs
programmed, open, verified, erase pending, under parity. -/
structure Band where
  group : Nat
  kind : Nat
  blocks : List Nat
  next : Nat
  isOpen : Bool
  verified : Bool
  erasePending : Bool
  parity : Bool
  deriving DecidableEq, Repr

/-- Garbage collection in progress (R277): victim band, TUs copied with their entry noted at the copy. -/
structure GcState where
  victim : Nat
  copies : List (Nat × Nat × Nat)
  mapped : Bool
  deriving DecidableEq, Repr

/-- The Reservoir beyond its registers (R266-R285). `map` maps a TU (second copies at 2^40 + TU) to its entry of R272, `tus` holds TU
bytes by entry, `journal` counts the map journal's records, `unprogrammed` lists the TUs whose record is not programmed yet, `discards`
the TUs to unmap with the next record, `dropped` keeps the last entry of a discarded TU (R274), `parity` the die parity of the open bands
by band, page and slot (R269), `deadDies` the dies out of service, `staged` and `clean` the cells held with their first TU (clean ones oldest first), `stageFree` and
`cleanFree` the free places in cells. -/
structure RsvState where
  map : Table Nat
  tus : Table (List Byte)
  blocks : Table BlkEntry
  bands : Table Band
  freeBands : Nat
  gc : Option GcState
  victims : Nat
  journal : Nat
  unprogrammed : List (Nat × Nat)
  discards : List Nat
  dropped : Table Nat
  parity : Table (List Byte)
  deadDies : List Nat
  dieTemps : Table Int
  spare : Nat
  staged : List (Nat × Nat)
  clean : List (Nat × Nat)
  stageFree : Nat
  cleanFree : Nat
  cleanBytes : Nat
  deriving DecidableEq, Repr

/-- An import or export stream of a controller (R301, R328-R330): open, the stream's bytes so far (received, or laid out for delivery),
how many were accepted or delivered, how many of an import were checked, objects committed, conflicts, records, damaged records, the
next and the last object of an export, whether its trailer is laid out, the object whose record is carried, the last use. -/
structure Stream where
  isOpen : Bool
  bytes : List Byte
  offset : Nat
  parsed : Nat
  objects : Nat
  conflicts : Nat
  records : Nat
  damaged : Nat
  nextObj : Nat
  lastObj : Nat
  ended : Bool
  carried : Option Nat
  carriedTo : Nat
  foreign : Bool
  lastUse : Nat
  deriving DecidableEq, Repr

/-- One NVMe controller (R288-R290, R294): association, queues connected (queue, depth) with those quiescing, keep-alive,
features, outstanding Asynchronous Event Requests, events not yet delivered, error log. -/
structure Ctrl where
  hostNqn : Option Nat
  queues : List (Nat × Nat)
  quiescing : List (Nat × Nat)
  ioqMax : Nat
  depthMax : Nat
  kato : Nat
  lastAlive : Nat
  tempOver : Nat
  tempUnder : Nat
  asyncCfg : Nat
  aers : List Sqe
  events : List (Nat × Nat × Nat)
  errors : List (Sqe × Nat × Nat)
  errCount : Nat
  discovery : Nat
  deriving DecidableEq, Repr

/-- A command that waits for its range lock (R307), with the object number that a Store took at its admission (R228). -/
structure Waiting where
  ticket : Nat
  cmd : Instr
  num : Nat
  ns : Nat
  key : List Byte
  write : Bool
  lo : Nat
  hi : Nat
  deriving DecidableEq, Repr

/-- A lock held (R306): by a ticket, on a key, over an extent. -/
structure Lock where
  ticket : Nat
  port : Nat
  qid : Nat
  ns : Nat
  key : List Byte
  write : Bool
  lo : Nat
  hi : Nat
  deriving DecidableEq, Repr

/-- A Flush that waits (R310): the command, its namespace, the commit sequence it read. -/
structure FlushWait where
  cmd : Sqe
  ns : Nat
  upTo : Nat
  deriving DecidableEq, Repr

/-- The object service (R286-R320): controllers, objects, the objects found on Foreign reaches (R332), index, commits, locks, flushes, streams, image and firmware
buffers, accounts of log page 0x02. -/
structure ObjectState where
  ctrls : Table Ctrl
  objs : Table Obj
  foreign : Table Obj
  index : List IdxEntry
  nextObj : Nat
  commit : Nat
  durable : Nat
  undo : List Undo
  locks : List Lock
  waiting : List Waiting
  unadmitted : List Instr
  paceCells : Nat
  nextTicket : Nat
  flushes : List FlushWait
  imports : Table Stream
  exports : Table Stream
  image : Option (Nat × List Byte)
  fwBuf : List Byte
  commitCmd : Option Sqe
  activating : Option (Nat × Nat)
  fwCommitted : Bool
  rebuilding : Bool
  readBytes : Nat
  writeBytes : Nat
  readCmds : Nat
  writeCmds : Nat
  mediaErrs : Nat
  unsafeDowns : Nat
  powerCycles : Nat
  deriving DecidableEq, Repr

/-- A continuity mark (R341). -/
structure Mark where
  stamp : Stamp
  kind : Nat
  source : Nat
  before : Nat
  after : Nat
  d : Int
  rate : Int
  seq : Nat
  deriving DecidableEq, Repr

/-- A meter record (R343). -/
structure Meter where
  stamp : Stamp
  length : Nat
  flags : Nat
  energy : List Nat
  seq : Nat
  deriving DecidableEq, Repr

/-- The Assay tile beyond its window (R333-R351): groups of offers by source code, the last PTP offer, slew (rate in ppm, source)
with its start, hourly limits of mark 6, since when an offset has stood at 100 ms or more, the meter interval with the stamp of its start, the
sealed log, the time of the last PPS_IN edge, the part of a tick that the rate adjustment has gathered in 10^-9 tick, the sealed TAI_UTC, the
serial number. -/
structure AssayState where
  groups : Table (List Int)
  lastOffer : Table Nat
  lastPtp : Option Nat
  slew : Option (Int × Nat)
  lastMark6 : Table Nat
  bigSince : Option Nat
  intStart : Nat
  intStamp : Stamp
  intFlags : Nat
  marks : Table Mark
  meters : Table Meter
  marksOver : Nat
  metersOver : Nat
  sealed : Bool
  lastPps : Option Nat
  rateAcc : Int
  taiUtc : Nat
  serial : Nat
  deriving DecidableEq, Repr

/-- A kind of module reset, ranked (R363). -/
inductive ResetKind
  | warm | cold | halt
  deriving DecidableEq, Repr

/-- A block reset in progress (R375): kind and instance, when its timeout passes, HOLD, who asked. -/
structure BlockReset where
  kind : Nat
  inst : Nat
  until_ : Nat
  hold : Bool
  timedOut : Bool
  by_ : Option Path
  cmd : Option Sqe
  deriving DecidableEq, Repr

/-- The reset controller beyond its registers (R363-R379). `pllLost` lists the clocked domains whose PLL lost its lock while it ran. -/
structure ResetState where
  asserted : Option ResetKind
  pinLow : Option Nat
  pinTaken : Option Stamp
  ctlPending : List (ResetKind × Nat)
  wdogArmed : Bool
  lastKick : Nat
  wdogRuns : Nat
  blocks : List BlockReset
  held : List (Nat × Nat)
  aliveStop : Bool
  pllLost : List Nat
  deriving DecidableEq, Repr

/-- The configuration as the loader holds it (R353-R361): the flash, the running copy's bytes, the image that is being written, whether
a write was cut off since the last start (R361). -/
structure LoaderState where
  flash : Option Flash
  running : List Byte
  committing : Option (List Byte)
  cut : Bool
  deriving DecidableEq, Repr

/-- A unit's fault state (R385-R387). -/
structure FaultUnit where
  inFault : Bool
  quietEnd : Nat
  r : Nat
  lastExit : Option Nat
  cause : Nat
  deriving DecidableEq, Repr

/-- One entry of an on-die memory's log (R397). -/
structure MemEntry where
  addr : Nat
  syndrome : Nat
  count : Nat
  ue : Bool
  suspect : Bool
  deriving DecidableEq, Repr

/-- The counts and the log of one on-die memory (R397). -/
structure MemLog where
  ce : Nat
  ue : Nat
  log : List MemEntry
  deriving DecidableEq, Repr

/-- The fault network: units by (fault set base) * 64 + unit, memory logs by (fault set base) * 16 + memory, the syndromes of the poisoned
control-store words by 2^28 times that and the word address (R396). -/
structure FaultState where
  units : Table FaultUnit
  mems : Table MemLog
  poison : Table Nat
  traps : Nat
  deriving DecidableEq, Repr

/-- A Daybook record (R408). `d` are the four words of trigger data. -/
structure DayRec where
  stamp : Stamp
  trig : Nat
  sev : Nat
  set : Nat
  snap : List Nat
  d0 : Nat
  d1 : Nat
  d2 : Nat
  d3 : Nat
  dseq : Nat
  deriving DecidableEq, Repr

/-- The Daybook: SRAM ring and Reservoir ring by slot, hold queue, records pending for the Reservoir ring, the end of the freeze window and
the records that this freeze has dropped (R411-R413). -/
structure DayState where
  sram : Table DayRec
  ring : Table DayRec
  ringDropped : Nat
  hold : List DayRec
  pending : List DayRec
  nextSeq : Nat
  freezeEnd : Nat
  holdDrops : Nat
  deriving DecidableEq, Repr

/-- A sensor's PDR thresholds (R404, R407). -/
structure Threshold where
  mask : Nat
  warnLo : Int
  warnHi : Int
  critLo : Int
  critHi : Int
  deriving DecidableEq, Repr

/-- The Bursar (R400-R419): PLDM receiver, event waiting, thresholds, the last value reported of each sensor, counts of early-warnings,
temperature history by slot with its hour, hours with a feed good (key 24) and spindle hours (key n), minutes at or above WCTEMP and CCTEMP. -/
structure BursarState where
  receiver : Option Byte
  eventsWaiting : List (Nat × Int)
  thresholds : Table Threshold
  zone : Table Int
  warnCounts : Table Nat
  lastWarn : Nat
  history : Table (Nat × TempHour)
  newest : Nat
  hours : Table Nat
  warnTicks : Nat
  critTicks : Nat
  hourWarn : Nat
  hourNow : TempHour
  trackK : Option Nat
  trackAt : Nat
  mgmtAddr : List Byte
  collector : List Byte
  collectorPort : Nat
  deriving DecidableEq, Repr

/-- What the module sends out: completions, data, register values, management responses, events, the bits that it drives on an actuator's
preamplifier control link (R75: how many, and their value), the bits of a slot that it writes with their late shifts in 1/64 bit (R97,
R98), the answer of a Pool access with the lane that serves it (R245; none: a bus error). -/
inductive Response
  | cqe (c : Sqe) (status : Nat) (dnr : Bool) (dw0 dw1 : Nat)
  | data (c : Sqe) (bytes : List Byte)
  | value (p : Path) (addr : Nat) (v : Word)
  | busError (p : Path) (addr : Nat)
  | mi (status : Nat) (bytes : List Byte)
  | event (c : Sqe) (type info page : Nat)
  | pldm (sensor : Nat) (value : Int)
  | syslog (src dst : List Byte) (port severity dseq : Nat)
  | net (port : Option HostId)
  | frame (act bits value : Nat)
  | slot (act : Nat) (bits shifts : List Nat)
  | irq (fb : Nat)
  | trap
  | pool (addr lane : Nat) (bytes : Option (List Byte))
  | page (die block page levels14 levels57 : Nat)
  deriving DecidableEq, Repr

/-- The module. `regs` holds every register field whose value differs from its reset value, `copies` the per-writer copies of
R70, R183, R225, R274, R375 and the DB_WRITE registers, `pairs` the live 64-bit value behind each low half, `free` counts the
free values taken, `out` is what the module has sent. -/
structure State where
  regs : Table Nat
  copies : Table Nat
  pairs : Table Nat
  time : TimeState
  pwr : PowerState
  fab : FabricState
  ports : Table Port
  acts : Table Act
  stores : Table Nat
  sluice : SluiceState
  loops : Table LoopSt
  dec : DecodeState
  led : LedgerState
  str : StripeState
  pool : PoolState
  mov : MoverState
  rsv : RsvState
  obj : ObjectState
  asy : AssayState
  rst : ResetState
  cfg : LoaderState
  flt : FaultState
  day : DayState
  bur : BursarState
  out : List Response
  free : Nat
  pending : List Instr
  deriving DecidableEq, Repr

/-! ### Reset values: 0, false, none or empty unless the spec gives another (notes/assumptions/2.md) -/

def feedState0 : FeedState where
  badSince := none
  cycled := false
  goodSince := none
  cleanSince := none

def gates0 : Gates where
  reset := true
  power := false
  offTrack := false
  fly := false
  flt := false
  shock := false
  presence := false

def chan91 : Chan91 where
  taps := []
  asym := 0
  offset := 0
  gain := 0
  freq := 0
  target := []
  gainTarget := 0
  llrScale := 0
  taLimit := 0
  noise := []

def act0 : Act where
  pre := []
  statusRead := 0
  frames := []
  frameFailed := false
  gates := gates0
  configured := false
  writing := false
  fltTried := false
  y := 0
  vel := 0
  invalidRun := 0
  validRun := 0
  lostAt := 0
  periods := []
  wedgeCount := 0
  seekNs := 0
  seekLen := 0
  seekUp := false
  settleAt := 0
  settleGood := 0
  settleTries := 0
  wrGood := 0
  loadTries := 0
  loadAt := 0
  unloadFor := .sequencer
  unloadSeek := false
  retractWait := false
  retractAt := 0
  vcm := .demand 0
  vcmMax := 0
  resetHold := false
  coldCut := false
  zones := []
  band := 0
  work := []
  backlog := []
  cur := none
  curMoverErr := false
  curViolation := false
  curIllegal := false
  curTimeout := false
  curFull := false
  curRewritten := false
  curCodes := []
  curFault := false
  doneQ := []
  stack := []
  wait := none
  run := none
  rw := []
  rwWait := []
  chn := chan91
  chk := chan91
  fifo := []
  itemPos := 0
  itemFirst := 0
  curReach := 0
  postQ := []
  wgReq := false
  transfer := 0
  ranCold := false
  ranSince := false
  hEntry := 0
  disarm := false

def port0 : Port where
  settleEnd := 0
  sensFails := 0
  sensBad := false
  envInvalid := false
  releaseAt := 0
  swFrame := false
  grant := 0
  reserved := 0
  times := []
  lastCross := 0
  lastComm := 0
  misses := 0
  ocRun := 0
  ocAt := 0
  fails := 0
  lostRetries := 0
  lostPend := false
  reachedAt := none
  catchUntil := 0
  catching := false
  brakeFor := .start
  brake := .coast
  brakeAt := 0
  retryAt := 0
  openAt := 0
  cmdRpm := 0
  goodCross := 0
  deferStop := false
  flyRef := 0
  window := none
  zcAt := 0
  zcIval := 0
  duty := 0
  dutyWas := 0
  dutyAt := 0
  powers := []

def notch0 : Notch where
  x1 := 0
  x2 := 0
  y1 := 0
  y2 := 0

def loopSt0 : LoopSt where
  z := 0
  i := 0
  prevM := 0
  prevD := 0
  working := 0
  fresh := false
  rampStart := false
  tuneEnd := none
  span := 0
  lastMode := 0
  set := []
  n1 := notch0
  n2 := notch0
  hUsed := 0
  reload := false
  manualEnd := false
  gapLoad := false
  satHi := false
  satLo := false
  tune := none

def decodeState0 : DecodeState where
  first := []
  deep := []
  lanes := []
  sums := []
  iterHist := []

def ledEntry0 : LedEntry where
  openTime := 0
  wp := 0
  state := 4
  temp := 0
  profile := 0
  days := 0
  tally := 0
  flags := 16
  gen := 0

def mirror0 : Mirror where
  led := []
  serials := []
  defects := []
  calib := []
  lastTick := 0
  valid := false

def ledgerState0 : LedgerState where
  entries := []
  journals := []
  chains := []
  jslot := []
  provData := []
  layouts := []
  defects := []
  passes := []
  relocs := []
  invSerial := []
  openStamps := []
  tas := []
  copying := []
  lastTick := 0
  mirror := mirror0

def timeState0 : TimeState where
  assay := 1
  unit := 1
  srcs := []

def stampSrc0 : StampSrc where
  seq := 0
  last := 0
  run := 0

def powerState0 : PowerState where
  powered := true
  failing := false
  gap := false
  gapForced := false
  charged := false
  feedA := feedState0
  feedB := feedState0
  convTarget := 12
  convLimit := 8
  allPhasesUntil := 0
  exerBase := 0
  exerHalted := false
  exerEnd := 0
  exerHome := .a
  deferFrom := none
  lastSwap := none

def fabricState0 : FabricState where
  seen := false
  low := none
  highRun := 0
  shrunk := []
  mgmtDrops := 0

def sluiceState0 : SluiceState where
  queue := []
  fresh := []
  active := []
  evals := 0

def stripeState0 : StripeState where
  jobs := []
  running := []
  grants := []
  fetches := []
  debt := []
  missing := []
  lost := []
  auditPos := 0
  auditFrom := 0

def poolState0 : PoolState where
  mem := []
  poison := []
  segs := []
  dets := []
  useClock := 0
  waiting := []
  scrubPos := 0
  scrubFrom := 0

def seqDet0 : SeqDet where
  obj := 0
  last := 0
  run := 0
  at_ := 0
  on := false

def chan0 : Chan where
  reqs := []
  tokens := 0
  at_ := 0

def moverState0 : MoverState where
  chans := []
  turns := []
  hashed := []

def blkEntry0 : BlkEntry where
  erases := 0
  programTime := 0
  temp := 0
  hint := 0xFF
  retired := false

def band0 : Band where
  group := 0
  kind := 0
  blocks := []
  next := 0
  isOpen := false
  verified := false
  erasePending := false
  parity := false

def rsvState0 : RsvState where
  map := []
  tus := []
  blocks := []
  bands := []
  freeBands := 43712
  gc := none
  victims := 0
  journal := 0
  unprogrammed := []
  discards := []
  dropped := []
  parity := []
  deadDies := []
  dieTemps := []
  spare := 2048
  staged := []
  clean := []
  stageFree := 3145728
  cleanFree := 1048576
  cleanBytes := 0

def stream0 : Stream where
  isOpen := false
  bytes := []
  offset := 0
  parsed := 0
  objects := 0
  conflicts := 0
  records := 0
  damaged := 0
  nextObj := 0
  lastObj := 0
  ended := false
  carried := none
  carriedTo := 0
  foreign := false
  lastUse := 0

def ctrl0 : Ctrl where
  hostNqn := none
  queues := []
  quiescing := []
  ioqMax := 128
  depthMax := 1024
  kato := 0
  lastAlive := 0
  tempOver := 358
  tempUnder := 0
  asyncCfg := 0
  aers := []
  events := []
  errors := []
  errCount := 0
  discovery := 0

def objectState0 : ObjectState where
  ctrls := []
  objs := []
  foreign := []
  index := []
  nextObj := 1
  commit := 0
  durable := 0
  undo := []
  locks := []
  waiting := []
  unadmitted := []
  paceCells := 0
  nextTicket := 0
  flushes := []
  imports := []
  exports := []
  image := none
  fwBuf := []
  commitCmd := none
  activating := none
  fwCommitted := false
  rebuilding := false
  readBytes := 0
  writeBytes := 0
  readCmds := 0
  writeCmds := 0
  mediaErrs := 0
  unsafeDowns := 0
  powerCycles := 0

def assayState0 : AssayState where
  groups := []
  lastOffer := []
  lastPtp := none
  slew := none
  lastMark6 := []
  bigSince := none
  intStart := 0
  intStamp := ⟨0, 0, 0⟩
  intFlags := 0
  marks := []
  meters := []
  marksOver := 0
  metersOver := 0
  sealed := true
  lastPps := none
  rateAcc := 0
  taiUtc := 37
  serial := 0

def resetState0 : ResetState where
  asserted := none
  pinLow := none
  pinTaken := none
  ctlPending := []
  wdogArmed := false
  lastKick := 0
  wdogRuns := 0
  blocks := []
  held := []
  aliveStop := false
  pllLost := []

def loaderState0 : LoaderState where
  flash := none
  running := []
  committing := none
  cut := false

def faultUnit0 : FaultUnit where
  inFault := false
  quietEnd := 0
  r := 0
  lastExit := none
  cause := 0

def memLog0 : MemLog where
  ce := 0
  ue := 0
  log := []

def faultState0 : FaultState where
  units := []
  mems := []
  poison := []
  traps := 0

def dayState0 : DayState where
  sram := []
  ring := []
  ringDropped := 0
  hold := []
  pending := []
  nextSeq := 0
  freezeEnd := 0
  holdDrops := 0

def bursarState0 : BursarState where
  receiver := none
  eventsWaiting := []
  thresholds := []
  zone := []
  warnCounts := []
  lastWarn := 0
  history := []
  newest := 0
  hours := []
  warnTicks := 0
  critTicks := 0
  hourWarn := 0
  hourNow := ⟨-128, 127, -128, -128, 127, 0, 0, 0⟩
  trackK := none
  trackAt := 0
  mgmtAddr := []
  collector := []
  collectorPort := 0

def layout0 : Layout where
  zones := []
  first := 0
  guard := 0
  skew := 0
  surfaces := []
  reaches := 0

/-- The key of PWR_STATUS.FEEDA_GOOD in `regs` (Machine/Ops.lean, fieldKey). -/
def resetFeedKey : Nat := 0x2000000

/-- The module right after a power-on cold reset with Feed A good (notes/assumptions/3.md): every register field at its reset value
(the register map), no memory listed, the queue empty. -/
def State.reset : State where
  regs := [(resetFeedKey, 1)]
  copies := []
  pairs := []
  time := timeState0
  pwr := { powerState0 with feedA := { feedState0 with goodSince := some 0 } }
  fab := fabricState0
  ports := []
  acts := []
  stores := []
  sluice := sluiceState0
  loops := []
  dec := decodeState0
  led := ledgerState0
  str := stripeState0
  pool := poolState0
  mov := moverState0
  rsv := rsvState0
  obj := objectState0
  asy := assayState0
  rst := resetState0
  cfg := loaderState0
  flt := faultState0
  day := dayState0
  bur := bursarState0
  out := []
  free := 0
  pending := []

end Sys2Proof.Machine
end

