-- ==== Sys2Proof/Machine/Ops.lean ====
section
/-!
DEFINITION. Sys2Proof/Machine/Ops.lean: the named operations over registers, tables, time, stamps, the history queues, the
Daybook, the early-warnings and the service state that the commands share.
-/
namespace Sys2Proof.Machine
open Reg

/-! ### The blocks of R24 -/

/-- Base of port Hn's block (R6). -/
def portBase (n : Nat) : Nat := 0x80000 + n * 0x1000
/-- Base of actuator An's block (R6). -/
def actBase (a : Nat) : Nat := 0x100000 + a * 0x1000
/-- Base of mover channel n's registers (R6). -/
def moverBase (c : Nat) : Nat := 0x180000 + c * 0x100
/-- Base of host port Pn's block (R6). -/
def hostBase (h : Nat) : Nat := 0x1A0000 + h * 0x4000
/-- Base of the loop-engine instance `i` of 0-71, actuators first (R140: a spindle's registers are shifted by 0x500). -/
def leBase (i : Nat) : Nat := if i < 48 then actBase i else portBase (i - 48) + 0x500

def idB : Nat := 0
def rstB : Nat := 0x10000
def pwrB : Nat := 0x20000
def fabB : Nat := 0x30000
def slB : Nat := 0x40000
def dpB : Nat := 0x140000
def srB : Nat := 0x150000
def ledB : Nat := 0x160000
def poolB : Nat := 0x170000
def mvSumB : Nat := 0x180000
def rsvB : Nat := 0x190000
def qeB : Nat := 0x1B0000
def dbB : Nat := 0x1C0000
def burB : Nat := 0x1D0000
def asyB : Nat := 0x1E0000
def cfgB : Nat := 0x1F0000

/-- Base of the fault register set that ends the 4 KiB, 16 KiB, 64 KiB or 256 KiB range of the block at `b` (R380). -/
def fbAt : Block → Nat
  | .identity => 0xFC00
  | .reset => 0x1FC00
  | .power => 0x2FC00
  | .fabric => 0x3FC00
  | .sluice => 0x7FC00
  | .port n => portBase n.val + 0xC00
  | .act a => actBase a.val + 0xC00
  | .decode => 0x14FC00
  | .stripe => 0x15FC00
  | .ledger => 0x16FC00
  | .pool => 0x17FC00
  | .mover => 0x18FC00
  | .reservoir => 0x19FC00
  | .host h => hostBase h.val + 0x3C00
  | .queue => 0x1BFC00
  | .daybook => 0x1CFC00
  | .bursar => 0x1DFC00
  | .assay => 0x1EFC00
  | .loader => 0x1FFC00

def fbAct (a : Nat) : Nat := actBase a + 0xC00
def fbPort (n : Nat) : Nat := portBase n + 0xC00
def fbHost (h : Nat) : Nat := hostBase h + 0x3C00

/-- Where an address lies: its block's or instance's base, registers, and fault register set. -/
structure BlockLoc where
  base : Nat
  regs : List RegDesc
  fb : Nat
  deriving DecidableEq, Repr

/-- The block or instance of R24 that contains an address, the table window and control stores apart. -/
def blockAt (addr : Nat) : Option BlockLoc :=
  if addr < 0x10000 then some ⟨0, identityRegs, 0xFC00⟩
  else if addr < 0x20000 then some ⟨rstB, resetRegs, 0x1FC00⟩
  else if addr < 0x30000 then some ⟨pwrB, powerRegs, 0x2FC00⟩
  else if addr < 0x40000 then some ⟨fabB, fabricRegs, 0x3FC00⟩
  else if addr < 0x80000 then some ⟨slB, sluiceRegs, 0x7FC00⟩
  else if addr < 0x98000 then
    let b := addr - addr % 0x1000
    if 0x800 ≤ addr % 0x1000 ∧ addr % 0x1000 < 0xA00 then some ⟨b + 0x500, spindleLoopRegs, b + 0xC00⟩
    else some ⟨b, portRegs, b + 0xC00⟩
  else if addr < 0x100000 then none
  else if addr < 0x130000 then
    let b := addr - addr % 0x1000
    some ⟨b, actuatorRegs ++ loopRegs, b + 0xC00⟩
  else if addr < 0x140000 then none
  else if addr < 0x150000 then some ⟨dpB, decodeRegs, 0x14FC00⟩
  else if addr < 0x160000 then some ⟨srB, stripeRegs, 0x15FC00⟩
  else if addr < 0x170000 then some ⟨ledB, ledgerRegs, 0x16FC00⟩
  else if addr < 0x180000 then some ⟨poolB, poolRegs, 0x17FC00⟩
  else if addr < 0x182000 then some ⟨addr - addr % 0x100, moverRegs, 0x18FC00⟩
  else if addr < 0x190000 then some ⟨mvSumB, moverBlockRegs, 0x18FC00⟩
  else if addr < 0x1A0000 then some ⟨rsvB, reservoirRegs, 0x19FC00⟩
  else if addr < 0x1B0000 then
    let b := addr - addr % 0x4000
    some ⟨b, hostRegs, b + 0x3C00⟩
  else if addr < 0x1C0000 then some ⟨qeB, queueRegs, 0x1BFC00⟩
  else if addr < 0x1D0000 then some ⟨dbB, daybookRegs, 0x1CFC00⟩
  else if addr < 0x1E0000 then some ⟨burB, bursarRegs, 0x1DFC00⟩
  else if addr < 0x1F0000 then some ⟨asyB, assayRegs, 0x1EFC00⟩
  else if addr < 0x200000 then some ⟨cfgB, loaderRegs, 0x1FFC00⟩
  else none

/-- The Reach Ledger table window (R24). -/
def inLedgerWindow (addr : Nat) : Bool := decide (0x40000000 ≤ addr ∧ addr < 0x40780000)
/-- The sequencer control stores (R24). -/
def inControlStores (addr : Nat) : Bool := decide (0x50000000 ≤ addr ∧ addr < 0x50600000)
/-- R27: a multiple of 4 inside a range of R24. -/
def addrOk (addr : Nat) : Bool :=
  decide (addr % 4 = 0) && (decide (addr < 0x200000) || inLedgerWindow addr || inControlStores addr)

/-- The element of an array of registers at an address, as the base to which the field offsets count. -/
def descHit (base addr : Nat) (d : RegDesc) : Option Nat :=
  if addr < base + d.off then none
  else
    let k := addr - base - d.off
    if k = 0 then some base
    else if d.stride = 0 then none
    else if k % d.stride = 0 ∧ k / d.stride < d.cnt then some (base + k) else none

/-- The register at an address within a list of registers. -/
def findIn (base addr : Nat) : List RegDesc → Option (Nat × RegDesc)
  | [] => none
  | d :: ds => match descHit base addr d with
    | some b => some (b, d)
    | none => findIn base addr ds

/-- The register that occupies an address, with the base to which its field offsets count. -/
def findReg (addr : Nat) : Option (Nat × RegDesc) :=
  match blockAt addr with
  | none => none
  | some l => match findIn l.base addr l.regs with
    | some r => some r
    | none => if l.fb ≤ addr then findIn l.fb addr faultRegs else none

/-! ### Register fields -/

/-- Element `i` of a field in an array of registers. -/
def Field.ix (f : Field) (i : Nat) : Field := { f with off := f.off + i * f.stride }

/-- A spindle loop-engine instance's base (R140: its RW fields are RWS there). -/
def isSpindleLe (b : Nat) : Bool := decide (0x80000 ≤ b ∧ b < 0x98000) && decide (b % 0x1000 = 0x500 ∨ (0x500 < b % 0x1000 ∧ b % 0x1000 < 0xA00))

/-- The type of a field at a base. -/
def tyAt (b : Nat) (f : Field) : RegType :=
  match f.ty with
  | .rw => if isSpindleLe b && decide (0x300 ≤ f.off) then .rws else .rw
  | t => t

def tyCode : RegType → Nat
  | .ro => 0 | .rw => 1 | .w1c => 2 | .wo => 3 | .rws => 4

/-- The home of a field in the register table: its address, its lowest bit, its type. -/
def fieldKey (b : Nat) (f : Field) : Nat := ((b + f.off) * 32 + f.lo) * 8 + tyCode (tyAt b f)

/-- A fault register set's base: the last 1 KiB of a block's range (R380), a mover channel's registers apart. -/
def isFb (b : Nat) : Bool := decide (b % 0x1000 = 0xC00) && !decide (0x180000 ≤ b ∧ b < 0x182000)

/-- FLT_REACT's reset value by block (R392), as IRQ + 2 TRAP + 4 ACTION. -/
def reactReset (fb : Nat) : Nat :=
  if fb = 0x1BFC00 then 8
  else if fb = 0x1DFC00 then 10
  else if fb = 0x1EFC00 ∨ fb = 0x2FC00 ∨ fb = 0x1FFC00 ∨ fb = 0x3FC00 then 0
  else 1

/-- The blocks whose source is dual-rail (R391, R392): Assay window, feeds, loader, fabric. The Motion Safety block has no block
of its own (R380). -/
def dualRail (fb : Nat) : Bool := decide (fb = 0x1EFC00 ∨ fb = 0x2FC00 ∨ fb = 0x1FFC00 ∨ fb = 0x3FC00)

/-- A field's value at a cold reset: the table's, but where the tables give one per block or per element (R392, SR_CLASS,
R140's LE_RAMP of a spindle). -/
def resetOf (b : Nat) (f : Field) : Nat :=
  if f.off = 0x00C ∧ isFb b = true then reactReset b / 2 ^ f.lo % 2 ^ f.len
  else if f.off = 0x01C ∧ f.lo = 8 ∧ isFb b = true then Config.memories b % 16
  else if b + f.off = srB + 0x18 ∨ b + f.off = srB + 0x1C ∨ b + f.off = srB + 0x20 ∨ b + f.off = srB + 0x24
    ∨ b + f.off = srB + 0x28 ∨ b + f.off = srB + 0x2C then 0
  else if f.off = 0x314 ∧ isSpindleLe b = true then 0x190
  else f.reset

/-- Read a field. -/
def rd (s : State) (b : Nat) (f : Field) : Nat := tget (resetOf b f) s.regs (fieldKey b f)

/-- Write a field, whatever its type: the module's own write. -/
def wr (b : Nat) (f : Field) (v : Nat) (s : State) : State :=
  { s with regs := tput (resetOf b f) s.regs (fieldKey b f) (v % 2 ^ f.len) }

/-- Read a one-bit field. -/
def flag (s : State) (b : Nat) (f : Field) : Bool := decide (rd s b f = 1)

/-- Set or clear a one-bit field. -/
def setF (b : Nat) (f : Field) (v : Bool) (s : State) : State := wr b f (b2n v) s

/-- Add 1 to a counter field, saturating at its largest value. -/
def incF (b : Nat) (f : Field) (s : State) : State := wr b f (satInc (2 ^ f.len - 1) (rd s b f)) s

/-- Add `n` to a counter field, saturating. -/
def addF (b : Nat) (f : Field) (n : Nat) (s : State) : State := wr b f (min (2 ^ f.len - 1) (rd s b f + n)) s

/-- Two's complement of an integer in `n` bits. -/
def toBits (n : Nat) (v : Int) : Nat := (v % (2 ^ n : Int)).toNat

/-- The signed value of `n` bits. -/
def ofBits (n : Nat) (v : Nat) : Int := if v < 2 ^ (n - 1) then (v : Int) else (v : Int) - 2 ^ n

/-- A signed number in a field of `n` bits; what the field shows of a number outside its range is open (notes/assumptions/7.md). -/
def fitBits (n : Nat) (v : Int) : Nat :=
  if -(2 ^ (n - 1) : Int) ≤ v ∧ v < (2 ^ (n - 1) : Int) then toBits n v else Config.outOfRange v % 2 ^ n

/-- An unsigned number in a field of `n` bits, likewise. -/
def fitNat (n : Nat) (v : Int) : Nat := if 0 ≤ v ∧ v < (2 ^ n : Int) then v.toNat else Config.outOfRange v % 2 ^ n

/-- A number in whole units; the rounding of one that is no whole number is open (notes/assumptions/7.md). -/
def showRat (q : Rat) : Int := if (q.floor : Rat) = q then q.floor else if Config.roundDemand q then q.floor + 1 else q.floor

/-! ### Substates by instance -/

def actOf (s : State) (a : Nat) : Act := tget act0 s.acts a
def modAct (a : Nat) (f : Act → Act) (s : State) : State := { s with acts := tmod act0 s.acts a f }
def portOf (s : State) (n : Nat) : Port := tget port0 s.ports n
def modPort (n : Nat) (f : Port → Port) (s : State) : State := { s with ports := tmod port0 s.ports n f }
def loopOf (s : State) (i : Nat) : LoopSt := tget loopSt0 s.loops i
def modLoop (i : Nat) (f : LoopSt → LoopSt) (s : State) : State := { s with loops := tmod loopSt0 s.loops i f }
def ctrlOf (s : State) (h : Nat) : Ctrl := tget ctrl0 s.obj.ctrls h
def modCtrl (h : Nat) (f : Ctrl → Ctrl) (s : State) : State :=
  { s with obj := { s.obj with ctrls := tmod ctrl0 s.obj.ctrls h f } }
def unitOf (s : State) (fb u : Nat) : FaultUnit := tget faultUnit0 s.flt.units (fb * 64 + u)
def modUnit (fb u : Nat) (f : FaultUnit → FaultUnit) (s : State) : State :=
  { s with flt := { s.flt with units := tmod faultUnit0 s.flt.units (fb * 64 + u) f } }
def chanOf (s : State) (c : Nat) : Chan := tget chan0 s.mov.chans c
def modChan (c : Nat) (f : Chan → Chan) (s : State) : State :=
  { s with mov := { s.mov with chans := tmod chan0 s.mov.chans c f } }

/-- Apply an operation to each element in turn. -/
def forEach {α : Type} : List α → (α → State → State) → State → State
  | [], _, s => s
  | x :: xs, f, s => forEach xs f (f x s)

/-- Apply an operation if a condition holds. -/
def when (c : Bool) (f : State → State) (s : State) : State := if c then f s else s

/-- Send a response. -/
def send (r : Response) (s : State) : State := { s with out := s.out ++ [r] }

/-- Take a free value (notes/assumptions/7.md). -/
def takeFree (s : State) : Nat × State := (Config.freeValue s.free, { s with free := s.free + 1 })

/-! ### Live registers -/

/-- The low halves of the latching pairs (R30): the high half follows at the next address. -/
def isPairLo (addr : Nat) : Bool :=
  decide (addr = 0x8 ∨ addr = 0x1000C ∨ addr = 0x2002C ∨ addr = 0x30020 ∨ addr = 0x140018 ∨ addr = 0x140020
    ∨ addr = 0x150058 ∨ addr = 0x150074 ∨ addr = 0x150100 ∨ addr = 0x190048 ∨ addr = 0x190050
    ∨ addr = 0x1B0010 ∨ addr = 0x1B0018)
  || (decide (0x180000 ≤ addr ∧ addr < 0x182000) && decide (addr % 0x100 = 0x2C))
  || (decide (0x1A0000 ≤ addr ∧ addr < 0x1B0000) && decide (addr % 0x4000 = 0x10))
  || (decide (0x1E0100 ≤ addr ∧ addr < 0x1E01D0) && decide (addr % 8 = 0))

/-- The 64-bit value behind a low half. -/
def pairLive (s : State) (addr : Nat) : Nat :=
  if addr = 0x30020 then s.time.unit
  else if addr = 0x1B0010 then s.obj.commit
  else if addr = 0x1B0018 then s.obj.durable
  else if addr = 0x150074 then s.str.auditPos
  else tget 0 s.pairs addr

/-- Set the 64-bit value behind a low half. -/
def pairSet (addr v : Nat) (s : State) : State := { s with pairs := tput 0 s.pairs addr (v % 2 ^ 64) }
/-- Add to the 64-bit value behind a low half. -/
def pairAdd (addr v : Nat) (s : State) : State := pairSet addr (tget 0 s.pairs addr + v) s

/-- Whole seconds until the feed exercise is due (PWR_EXER_DUE, R52, R53). -/
def exerDue (s : State) : Nat :=
  if rd s pwrB PWR_EXERCISE_ENABLE = 0 then 0xFFFFFFFF
  else if s.pwr.exerHalted || s.pwr.deferFrom.isSome || flag s pwrB PWR_STATUS_EXERCISE_ON then 0
  else
    let due := s.pwr.exerBase + secs (rd s pwrB PWR_EXERCISE_PERIOD_DAYS * 86400)
    (due - s.time.unit) / 2 ^ 24

/-- The log of the memory that FLT_MEM_SEL selects (R397). -/
def memSelected (s : State) (fb : Nat) : MemLog := tget memLog0 s.flt.mems (fb * 16 + rd s fb FLT_MEM_SEL_MEM)

/-- A register's fields put together; WO fields read as 0. -/
def assemble (s : State) (b : Nat) : List Field → Nat
  | [] => 0
  | f :: fs => (match f.ty with | .wo => 0 | _ => rd s b f * 2 ^ f.lo) + assemble s b fs

/-- A memory log word (FLT_MEM_LOG). -/
def memLogWord (m : MemLog) (k : Nat) : Nat :=
  match m.log[k / 8]? with
  | none => 0
  | some e =>
    if k % 8 = 0 then e.addr
    else e.syndrome + e.count * 2 ^ 8 + b2n e.ue * 2 ^ 16 + b2n e.suspect * 2 ^ 17 + 2 ^ 31

/-- The value at an address of an occupied register, with no side effect. -/
def regValue (s : State) (addr : Nat) : Nat :=
  match findReg addr with
  | none => 0
  | some (b, d) =>
    if isPairLo addr then pairLive s addr % 2 ^ 32
    else if addr = pwrB + 0x14 then exerDue s
    else if isFb b && decide (addr = b + 0x20) then
      let m := memSelected s b
      m.ce + m.ue * 2 ^ 16
    else if isFb (addr - addr % 0x400) && decide (0x300 ≤ addr % 0x400) then
      memLogWord (memSelected s (addr - addr % 0x400)) (addr % 0x100)
    else if 0x100000 ≤ addr ∧ addr < 0x130000 ∧ addr % 0x1000 = 0x114 then
      rd s b SV_PES_PES + fitBits 16 (showRat ((tget act0 s.acts ((addr - 0x100000) / 0x1000)).vel / 16)) * 2 ^ 16
    else if addr = 0x30028 ∨ addr = 0x3002C ∨ addr = 0x30030 then 0
    else assemble s b d.fields

/-- A snapshot read (R410): no side effect; 0 where R27 fails and in the two windows. -/
def peek (s : State) (addr : Nat) : Nat :=
  if addrOk addr && decide (addr < 0x200000) then regValue s addr else 0

/-! ### Software writes of a register -/

/-- The value a software write leaves in one field: the nearer limit for RW and RWS, bits cleared for W1C. -/
def writeField (b v : Nat) (f : Field) (s : State) : State :=
  match f.ty with
  | .rw | .rws => wr b f (clampTo f.mn f.mx (bitsOf v f.lo f.len)) s
  | .w1c => wr b f (rd s b f &&& (2 ^ f.len - 1 - bitsOf v f.lo f.len)) s
  | .ro | .wo => s

/-- A software write of a register by the types of its fields (00_scope.md). -/
def writeFields (b v : Nat) : List Field → State → State
  | [], s => s
  | f :: fs, s => writeFields b v fs (writeField b v f s)

/-- A software write at an occupied address, by type only. -/
def plainWrite (addr v : Nat) (s : State) : State :=
  match findReg addr with
  | none => s
  | some (b, d) => writeFields b v d.fields s

/-! ### Time and stamps -/

/-- Move the Assay time to `t` (R66: the stamp unit's time never decreases; a hold lasts until the Assay time passes it). -/
def setAssay (t : Nat) (s : State) : State :=
  let was := flag s fabB STAMP_STATUS_HOLDING
  let hold := if was then decide (t ≤ s.time.unit) else decide (t < s.time.unit)
  let s := { s with time := { s.time with assay := t, unit := max s.time.unit t } }
  let s := setF fabB STAMP_STATUS_HOLDING hold s
  when (hold && !was) (setF fabB STAMP_STATUS_HELD true) s

/-- Let `dt` ticks pass. -/
def pass (dt : Nat) (s : State) : State := setAssay (s.time.assay + dt) s

/-- Move the clock forward to at least `t` (notes/assumptions/4.md). -/
def reach (t : Nat) (s : State) : State := when (decide (s.time.unit < t)) (setAssay t) s

/-- The stamp unit's present time. -/
def now (s : State) : Nat := s.time.unit

/-- Issue a stamp to a source (R64-R67): its time, its sequence, never more than 16 at one time value. A source that has crept ahead
under R66 does not carry other sources along: an event that it causes at another source takes that source's own time of R66 (DESIGN
CHOICE, notes/assumptions/20.md). -/
def stamp (src : Nat) (s : State) : Stamp × State :=
  let c := tget stampSrc0 s.time.srcs src
  let t := max s.time.unit c.last
  let full := decide (t = c.last) && decide (16 ≤ c.run)
  let t' := if full then t + 1 else t
  let run := if full then 1 else if t = c.last then c.run + 1 else 1
  (⟨t', src, c.seq⟩,
   { s with time := { s.time with srcs := tput stampSrc0 s.time.srcs src ⟨(c.seq + 1) % 65536, t', run⟩ } })

/-- A Teller's source ID. Which Teller serves a command is open (notes/assumptions/30.md). -/
def tellerSrc (s : State) : Nat × State := let (v, s) := takeFree s; (0x10 + v % 16, s)

/-- A stamp of the Teller that serves a command. -/
def tellerStamp (s : State) : Stamp × State := let (src, s) := tellerSrc s; stamp src s

/-- R68's order of stamps. -/
def stampLt (a b : Stamp) : Bool :=
  decide (a.time < b.time) || (decide (a.time = b.time) && (decide (a.src < b.src) ||
    (decide (a.src = b.src) && decide (1 ≤ (b.seq + 65536 - a.seq) % 65536 ∧ (b.seq + 65536 - a.seq) % 65536 ≤ 32767))))

/-- R11: extend a short stamp by the reference time; its bits [63:32] are a 32-bit number. -/
def extendShort (short ref : Nat) : Nat :=
  let high := ref / 2 ^ 32 % 2 ^ 32
  if short ≤ ref % 2 ^ 32 then high * 2 ^ 32 + short else (high + (2 ^ 32 - 1)) % 2 ^ 32 * 2 ^ 32 + short

/-- R3, R69: an event belongs to the half-open window [start, start + len). -/
def inWindow (t start len : Nat) : Bool := decide (start ≤ t ∧ t < start + len)

/-- Source IDs of R12. -/
def srcAssay : Nat := 0
def srcBursar : Nat := 1
def srcTeller (n : Nat) : Nat := 0x10 + n
def srcAct (a : Nat) : Nat := 0x100 + a
def srcPort (n : Nat) : Nat := 0x200 + n
def srcHost (h : Nat) : Nat := 0x300 + h
def srcMover (c : Nat) : Nat := 0x400 + c
def srcRsv : Nat := 0x500
def srcLoader : Nat := 0x600
def srcReset : Nat := 0x700

/-! ### The Daybook (R408-R413) -/

/-- The oldest record of severity `sev` or lower in a ring: its slot and DAYBOOK_SEQ. -/
def oldestLow (sev : Nat) : Table DayRec → Option (Nat × Nat)
  | [] => none
  | (k, r) :: t =>
    let rest := oldestLow sev t
    if r.sev ≤ sev then
      match rest with
      | none => some (k, r.dseq)
      | some (k', q) => if r.dseq ≤ q then some (k, r.dseq) else some (k', q)
    else rest

/-- The lowest slot that is not listed, from `i` on. -/
def firstGap {α : Type} : Nat → Table α → Nat
  | i, [] => i
  | i, (k, _) :: t => if k = i then firstGap (i + 1) t else i

/-- R411's overwrite rule: an empty slot, else the oldest record of the new record's severity or lower, else not stored. -/
def ringPut (cap : Nat) (ring : Table DayRec) (r : DayRec) : Option (Table DayRec) :=
  if ring.length < cap then some (tins ring (firstGap 0 ring) r)
  else match oldestLow r.sev ring with
    | some (k, _) => some (tins ring k r)
    | none => none

/-- The records of the hold queue as a ring (R413). -/
def holdRing : Nat → List DayRec → Table DayRec
  | _, [] => []
  | i, r :: t => (i, r) :: holdRing (i + 1) t

/-- The addresses that a snapshot set lists: up to its last non-zero one (R407, R410). -/
def snapField : Nat → Field
  | 1 => DB_SNAP1_ADDR | 2 => DB_SNAP2_ADDR | 3 => DB_SNAP3_ADDR | 4 => DB_SNAP4_ADDR
  | 5 => DB_SNAP5_ADDR | 6 => DB_SNAP6_ADDR | _ => DB_SNAP7_ADDR

def mapField : Nat → Field
  | 0 => DB_SNAP_MAP_SET_0 | 1 => DB_SNAP_MAP_SET_1 | 2 => DB_SNAP_MAP_SET_2 | 3 => DB_SNAP_MAP_SET_3
  | 4 => DB_SNAP_MAP_SET_4 | 5 => DB_SNAP_MAP_SET_5 | 6 => DB_SNAP_MAP_SET_6 | _ => DB_SNAP_MAP_SET_7

/-- Drop trailing zeros. -/
def trimZeros (l : List Nat) : List Nat := (l.reverse.dropWhile (fun v => decide (v = 0))).reverse

/-- The register values of a snapshot set (R410). -/
def snapshot (s : State) (set : Nat) : List Nat :=
  if set = 0 then []
  else (trimZeros ((List.range 21).map (fun i => rd s dbB ((snapField set).ix i)))).map (peek s)

/-- Store a record in the SRAM ring and queue it for the Reservoir ring. -/
def dayStore (r : DayRec) (s : State) : State :=
  let s := match ringPut 16384 s.day.sram r with
    | some t => { s with day := { s.day with sram := t } }
    | none => incF dbB DB_DROPS_DROPPED s
  let s := { s with day := { s.day with pending := s.day.pending ++ [r] } }
  setF dbB DB_STATUS_MIRROR_BEHIND true s

/-- Hold a record while the Daybook is frozen: 256 places under R411's rule (R413). -/
def dayHold (r : DayRec) (s : State) : State :=
  let s := match ringPut 256 (holdRing 0 s.day.hold) r with
    | some t =>
      let held := t.map Prod.snd
      { s with day := { s.day with hold := held.filter (fun x => decide (x.dseq ≠ r.dseq)) ++ [r] } }
    | none => incF dbB DB_DROPS_HOLD_DROPPED { s with day := { s.day with holdDrops := s.day.holdDrops + 1 } }
  wr dbB DB_STATUS_HELD s.day.hold.length s

/-- Write a Daybook record with a stamp already issued (R408-R413); syslog at SYSLOG_SEV or above (R406). -/
def dayRecord (st : Stamp) (trig sev d0 d1 d2 d3 : Nat) (s : State) : State :=
  let set := rd s dbB (mapField sev)
  let snap := snapshot s set
  let r : DayRec := ⟨st, trig, sev, set, snap, d0, d1, d2, d3, s.day.nextSeq⟩
  let s := { s with day := { s.day with nextSeq := (s.day.nextSeq + 1) % 2 ^ 32 } }
  let s := wr dbB DB_SEQ_NEWEST r.dseq s
  let s := if flag s dbB DB_STATUS_FROZEN then dayHold r s else dayStore r s
  when (decide (rd s burB BUR_HEALTH_SYSLOG_SEV ≤ sev) && flag s burB BUR_STATUS_MGMT_UP && decide (s.bur.collector ≠ []))
    (send (.syslog s.bur.mgmtAddr s.bur.collector s.bur.collectorPort (7 - sev) r.dseq)) s

/-- Write a Daybook record stamped by a source. -/
def dayEvent (src trig sev d0 d1 d2 d3 : Nat) (s : State) : State :=
  let (st, s) := stamp src s
  dayRecord st trig sev d0 d1 d2 d3 s

/-- R16: a record about the firmware's work in progress bears the source of the Teller that does it; which Teller that is is open
(notes/assumptions/30.md). -/
def tellerEvent (trig sev d0 d1 d2 d3 : Nat) (s : State) : State :=
  let (src, s) := tellerSrc s
  dayEvent src trig sev d0 d1 d2 d3 s

/-! ### History queues (R394) -/

/-- Severity of a history entry's record by class (R394). -/
def classSev : Nat → Nat
  | 0 => 1 | 1 => 3 | 2 => 5 | 3 => 6 | _ => 7

/-- The block base of a fault register set. -/
def fbBlockBase (fb : Nat) : Nat :=
  if 0x80000 ≤ fb ∧ fb < 0x130000 then fb - 0xC00
  else if 0x1A0000 ≤ fb ∧ fb < 0x1B0000 then fb - 0x3C00
  else if fb = 0x7FC00 then 0x40000
  else fb - 0xFC00

/-- The source ID that stamps an entry of a block's queue (R12, R380, R394): the block's own, or 0x0700. -/
def fbSource (fb unit : Nat) : Nat :=
  if 0x80000 ≤ fb ∧ fb < 0x98000 then srcPort ((fb - 0x80000) / 0x1000)
  else if 0x100000 ≤ fb ∧ fb < 0x130000 then srcAct ((fb - 0x100000) / 0x1000)
  else if 0x1A0000 ≤ fb ∧ fb < 0x1B0000 then srcHost ((fb - 0x1A0000) / 0x4000)
  else if fb = 0x1DFC00 then (if unit < 16 then srcTeller unit else srcBursar)
  else if fb = 0x19FC00 then srcRsv
  else if fb = 0x1FFC00 then srcLoader
  else if fb = 0x1EFC00 then srcAssay
  else srcReset

/-- R16: the source of an entry about a decode lane, a stripe engine or a hash lane that has work in hand: the sequencer or the Teller
that issued it; which Teller that is is open (notes/assumptions/30.md). An entry about an idle unit bears 0x0700 (R394). -/
def histSource (s : State) (fb unit : Nat) : Nat × State :=
  if fb = 0x14FC00 then
    match tfind s.dec.lanes unit with
    | some j => (srcAct j.act, s)
    | none => (srcReset, s)
  else if fb = 0x15FC00 ∧ (tfind s.str.running unit).isSome = true then tellerSrc s
  else (fbSource fb unit, s)

/-- PATH of a history entry. -/
def pathCode : Path → Nat
  | .teller _ => 1 | .bursar => 2 | .window _ => 3 | .mi => 4 | .loader => 5

/-- What a history entry says beside its stamp. -/
structure HistArgs where
  unit : Nat := 0
  code : Nat
  cls : Nat := 0
  react : Nat := 0
  path : Nat := 0
  detail : Nat := 0
  hi : Nat := 0
  deriving DecidableEq, Repr

/-- The event bit of FLT_STATUS that a code sets beside EVENT. -/
def histBit (code : Nat) : Option Field :=
  if code = 6 then some FLT_STATUS_TRANSIENT_SEEN
  else if code = 7 then some FLT_STATUS_LASTING_SEEN
  else if code = 9 then some FLT_STATUS_RECOVERED
  else if code = 4 then some FLT_STATUS_CE_SEEN
  else if code = 5 then some FLT_STATUS_UE_SEEN
  else none

/-- Put an entry into a slot of a history queue. -/
def histSlot (fb i : Nat) (st : Stamp) (h : HistArgs) (s : State) : State :=
  let f (x : Field) := x.ix i
  let s := wr fb (f FLT_HIST_0_TIME_LO) (st.time % 2 ^ 32) s
  let s := wr fb (f FLT_HIST_4_TIME_HI) (st.time / 2 ^ 32) s
  let s := wr fb (f FLT_HIST_8_SOURCE) st.src s
  let s := wr fb (f FLT_HIST_8_SEQUENCE) st.seq s
  let s := wr fb (f FLT_HIST_C_CODE) h.code s
  let s := wr fb (f FLT_HIST_C_UNIT) h.unit s
  let s := wr fb (f FLT_HIST_C_CLASS) h.cls s
  let s := wr fb (f FLT_HIST_C_REACTION) h.react s
  let s := wr fb (f FLT_HIST_C_PATH) h.path s
  let s := wr fb (f FLT_HIST_C_VALID) 1 s
  let s := wr fb (f FLT_HIST_10_DETAIL) h.detail s
  wr fb (f FLT_HIST_14_DETAIL_HI) h.hi s

/-- Write an entry into the history queue of the fault register set `fb`, and its Daybook record (R394, R409). -/
def hist (fb : Nat) (h : HistArgs) (s : State) : State :=
  let (src, s) := histSource s fb h.unit
  let (st, s) := stamp src s
  let i := rd s fb FLT_HIST_CTL_NEXT
  let s := histSlot fb i st h s
  let s := wr fb FLT_HIST_CTL_NEXT (i + 1) s
  let s := incF fb FLT_HIST_CTL_TOTAL s
  let s := wr fb FLT_STATUS_EVENT 1 s
  let s := match histBit h.code with
    | some b => wr fb b 1 s
    | none => s
  let w := assemble s fb [FLT_HIST_C_CODE.ix i, FLT_HIST_C_UNIT.ix i, FLT_HIST_C_CLASS.ix i, FLT_HIST_C_REACTION.ix i,
    FLT_HIST_C_PATH.ix i, FLT_HIST_C_VALID.ix i]
  dayRecord st (0x100 + h.code) (classSev h.cls) w h.detail h.hi (fbBlockBase fb) s

/-- R381: the block's interrupt line. -/
def irqLine (s : State) (fb : Nat) : Bool :=
  [FLT_STATUS_EVENT, FLT_STATUS_TRANSIENT_SEEN, FLT_STATUS_LASTING_SEEN, FLT_STATUS_RECOVERED, FLT_STATUS_CE_SEEN,
    FLT_STATUS_UE_SEEN, FLT_STATUS_REACT_REFUSED].any
    (fun f => flag s fb f && bitOf (rd s fb FLT_IRQ_EN_ENABLE) (f.lo - 16))

/-- R381: the interrupt source number of a block. -/
def irqNumber (base : Nat) : Nat := base / 4096 + 1

/-- A write that the spec calls ignored and recorded: code 0x03, the address, the path. -/
def recordIgnored (fb addr : Nat) (p : Path) (s : State) : State :=
  hist fb { code := 3, path := pathCode p, detail := addr } s

/-! ### Early-warnings (R416, R417) -/

/-- Deliver an event to a controller: complete its oldest Asynchronous Event Request, or keep the event for the next one. -/
def aerDeliver (h type info page : Nat) (s : State) : State :=
  match (ctrlOf s h).aers with
  | c :: rest =>
    let s := modCtrl h (fun x => { x with aers := rest }) s
    let s := pairAdd (hostBase h + 0x10) 1 s
    send (.cqe c 0 false (type + info * 256 + page * 65536) 0) (send (.event c type info page) s)
  | [] => modCtrl h (fun x => { x with events := if (type, info, page) ∈ x.events then x.events else x.events ++ [(type, info, page)] }) s

/-- A bit of the Critical Warning has become set: the event of page 0x02 for each controller whose event configuration asks for it
(R417; the event's codes are those of the NVMe specification, notes/assumptions/40.md). -/
def critWarn (bit info : Nat) (s : State) : State :=
  forEach (List.range 4) (fun h => when ((ctrlOf s h).hostNqn.isSome && bitOf (ctrlOf s h).asyncCfg bit) (aerDeliver h 1 info 2)) s

/-- Raise early-warning `w` for a unit with a value: pending bit, count, record, and in mode 1 the event. -/
def earlyWarn (w sev unit value : Nat) (s : State) : State :=
  let pend := rd s burB BUR_WARN_PENDING
  let was := bitOf pend w
  let s := wr burB BUR_WARN_PENDING (setBit pend w true) s
  let s := { s with bur := { s.bur with warnCounts := tput 0 s.bur.warnCounts w (satInc 0xFFFF (tget 0 s.bur.warnCounts w)) } }
  let s := { s with bur := { s.bur with lastWarn := now s } }
  let s := dayEvent srcBursar (0x400 + w) sev unit value 0 0 s
  when (flag s burB BUR_HEALTH_HEALTH_MODE && !was)
    (forEach (List.range 4) (fun h => when (decide ((ctrlOf s h).hostNqn.isSome)) (aerDeliver h 7 w 0xC1))) s

/-! ### Service state (R28, R29) -/

/-- The port of an actuator: A(2n) and A(2n + 1) belong to Hn. -/
def portOfAct (a : Nat) : Nat := a / 2
def actU (n : Nat) : Nat := 2 * n
def actL (n : Nat) : Nat := 2 * n + 1

def portState (s : State) (n : Nat) : Nat := rd s (portBase n) HDA_STATUS_STATE
def svState (s : State) (a : Nat) : Nat := rd s (actBase a) SV_STATE_STATE
def spState (s : State) (n : Nat) : Nat := rd s (portBase n) SP_STATUS_STATE
def service (s : State) : Nat := rd s idB GLB_SERVICE_STATE

/-- The configuration is applied: the loader is done, or commits another image beside it (CFG_STATUS.STATE 4 or 6). -/
def cfgApplied (s : State) : Bool := decide (rd s cfgB CFG_STATUS_STATE = 4 ∨ rd s cfgB CFG_STATUS_STATE = 6)

/-- A configured HDA: a port that some valid class's HDAS lists (notes/assumptions/12.md). -/
def configured (s : State) (n : Nat) : Bool :=
  (List.range 4).any (fun q => flag s srB (SR_CLASS_0_VALID.ix q) && bitOf (rd s srB (SR_CLASS_4_HDAS.ix q)) n)

/-- R28: an actuator is in service unless it is in its fault state or its port is not Online. -/
def actInService (s : State) (a : Nat) : Bool :=
  decide (portState s (portOfAct a) = 4) && !(unitOf s (fbAct a) 0).inFault

/-- An HDA counts as missing: configured, and it or one of its actuators is out of service (01_the_shelf.md, the block table and R28). -/
def hdaMissing (s : State) (n : Nat) : Bool :=
  configured s n && !(decide (portState s n = 4) && !(unitOf s (fbPort n) 0).inFault && actInService s (actU n) && actInService s (actL n))

/-- R28's conditions. -/
def degraded (s : State) : Bool :=
  (List.range 24).any (hdaMissing s)
  || decide (rd s srB SR_REBUILD_STATUS_PORTS ≠ 0) || decide (rd s srB SR_DEBT_ENTRIES ≠ 0) || !s.str.lost.isEmpty
  || flag s rsvB RSV_STATUS_OUT_OF_SERVICE

/-- Change GLB_SERVICE.STATE: CHANGED, the time, the Daybook record (trigger 0x0200), CSTS.RDY of enabled controllers, the
early-warning of entering Degraded. -/
def changeService (st : Nat) (s : State) : State :=
  let old := service s
  let s := wr idB GLB_SERVICE_STATE st s
  let s := wr idB GLB_SERVICE_CHANGED 1 s
  let (t, s) := stamp srcReset s
  let s := pairSet 0x8 t.time s
  let s := dayRecord t 0x200 (if st = 4 then 7 else if st = 2 ∨ st = 3 then 5 else 3) old st 0 0 s
  let s := forEach (List.range 4) (fun h s =>
    setF (hostBase h) HP_CONN_READY (flag s (hostBase h) HP_CONN_ENABLED && decide (st = 1 ∨ st = 2)) s) s
  let s := when (decide ((st = 2 ∨ st = 4) ∧ old ≠ 2 ∧ old ≠ 4)) (critWarn 2 0) s
  let s := when (decide (st = 1 ∨ st = 2)) (fun s => { s with rst := { s.rst with wdogRuns := 0 } }) s
  when (decide (st = 2)) (earlyWarn 14 4 0 old) s

/-- The same where the state is another one than before. -/
def setService (st : Nat) (s : State) : State := if service s = st then s else changeService st s

/-- Bring GLB_SERVICE up to date with R28. -/
def evalService (s : State) : State :=
  let s := setF idB GLB_SERVICE_RESERVOIR_OUT (flag s rsvB RSV_STATUS_OUT_OF_SERVICE) s
  let s := wr idB GLB_SERVICE_HDA_MISSING ((List.range 24).countP (fun n => hdaMissing s n)) s
  let s := wr idB GLB_SERVICE_HDA_REBUILDING (popCount 24 (rd s srB SR_REBUILD_STATUS_PORTS)) s
  if service s = 1 ∨ service s = 2 then setService (if degraded s then 2 else 1) s else s

/-! ### Power domains and outcomes -/

/-- What a command needs to act: power alone (the feeds, the reset controller, the Assay link: R362, R364), the Motion Safety
domain (which a warm reset leaves running and a cold reset or a halt stops), the core (not held by a reset or a halt), or the
management core, which a warm reset and a halt leave running (R364, R400). -/
inductive Dom
  | always | motion | core | mgmt
  deriving DecidableEq, Repr

/-- Whether a domain is live. -/
def live (s : State) : Dom → Bool
  | .always => s.pwr.powered
  | .motion => s.pwr.powered && decide (service s ≠ 4) && decide (s.rst.asserted ≠ some .cold)
  | .core => s.pwr.powered && decide (service s ≠ 4) && s.rst.asserted.isNone
  | .mgmt => s.pwr.powered && decide (s.rst.asserted ≠ some .cold)

/-- A command's effect: its own, then GLB_SERVICE follows R28; the queue of waiting commands stays as it is. -/
def settleUp (f : State → State) (s : State) : State := { evalService (f s) with pending := s.pending }

/-- A command's outcome under a condition: its effect where the condition holds, no effect otherwise. -/
def runIf (c : Bool) (f : State → State) (s : State) : Res State := .next (if c then settleUp f s else s)

/-- A command's outcome: its effect where its domain is live, no effect otherwise. -/
def run (d : Dom) (f : State → State) (s : State) : Res State := runIf (live s d) f s

/-- Bytes of 4-byte words. -/
def wordsBytes : List Nat → List Byte
  | [] => []
  | w :: ws => leBytes 4 w ++ wordsBytes ws

end Sys2Proof.Machine
end

