-- ==== Sys2Proof/Machine/MotionOps.lean ====
section
/-!
DEFINITION. Sys2Proof/Machine/MotionOps.lean: operations of the Motion Safety block, the servo, the spindle controllers and the
sequencers that several families share: write gates (R73, R195), retract, park, unload (R133-R138), bridge states and spindle
stops (R172-R177), the end of a sequencer item (R184), the loop engine's set loads are in Loop.lean.
-/
namespace Sys2Proof.Machine
open Reg

/-! ### Ledger entries (R214) -/

def ledKey (a r : Nat) : Nat := a * 10240 + r
def ledEntry (s : State) (a r : Nat) : LedEntry := tget ledEntry0 s.led.entries (ledKey a r)

/-- Flags of word 1, bits 48 to 55. -/
def fVerified : Nat := 0
def fVerifyDue : Nat := 1
def fRewriteDue : Nat := 2
def fRelocated : Nat := 3
def fAbsent : Nat := 4
def fFormat1 : Nat := 5
def fRetiring : Nat := 6
def fFull : Nat := 7

/-- A change of the ledger that the mirror is to follow (R223). -/
def ledDirty (s : State) : State := setF ledB LEDGER_STATUS_MIRROR_BEHIND true s

/-- Change a count register by one entry leaving and one entering. -/
def bump (f : Field) (was is : Bool) (s : State) : State :=
  if was = is then s else wr ledB f (if is then rd s ledB f + 1 else rd s ledB f - 1) s

/-- Set an entry, with the counts of R225's registers. -/
def setEntry (a r : Nat) (e : LedEntry) (s : State) : State :=
  let o := ledEntry s a r
  let cnt (x : LedEntry) (i : Nat) := decide (x.state = i) && !bitOf x.flags fAbsent
  let s := forEach (List.range 6) (fun i s => bump (LEDGER_COUNT_ENTRIES.ix i) (cnt o i) (cnt e i) s) s
  let s := bump LEDGER_DUE_ENTRIES (bitOf o.flags fVerifyDue) (bitOf e.flags fVerifyDue) s
  let s := bump LEDGER_REWRITE_ENTRIES (bitOf o.flags fRewriteDue) (bitOf e.flags fRewriteDue) s
  ledDirty { s with led := { s.led with entries := tput ledEntry0 s.led.entries (ledKey a r) e } }

def modEntry (a r : Nat) (f : LedEntry → LedEntry) (s : State) : State := setEntry a r (f (ledEntry s a r)) s

/-- Set or clear a flag of an entry. -/
def LedEntry.flagSet (e : LedEntry) (i : Nat) (v : Bool) : LedEntry := { e with flags := setBit e.flags i v }

/-! ### Write gates -/

/-- Some cause of R73 holds. -/
def Gates.any (g : Gates) : Bool := g.reset || g.power || g.offTrack || g.fly || g.flt || g.shock || g.presence

/-- R115: writing pauses while the rewrite queue is full. A drain of the queue goes on. -/
def rewritePaused (x : Act) : Bool :=
  match x.run with
  | some r => decide (r.op = 2) && r.paused && decide (64 ≤ x.rw.length)
  | none => false

/-- R195, R115: the conditions of a grant. -/
def gateOk (s : State) (a : Nat) : Bool :=
  (actOf s a).configured && !rewritePaused (actOf s a) && !(actOf s a).gates.any && flag s (actBase a) SV_STATE_WR_OK
    && !flag s (leBase a) LE_STATUS_TUNING && flag s (actBase a) AS_CTL_RUN

/-- R115: a full rewrite queue pauses the writing: the gate closes at the end of the sector in progress. -/
def pauseIfFull (a : Nat) (s : State) : State :=
  match (actOf s a).run with
  | some r =>
    if 64 ≤ (actOf s a).rw.length ∧ r.op = 2 ∧ r.paused = false ∧ r.issued < r.count then
      let s := modAct a (fun x => { x with run := some { r with paused := true }, writing := false }) s
      let s := setF (actBase a) AS_STATUS_GRANTED false s
      incF (actBase a) CH_COUNT_E_RAW_PAUSES (wr (actBase a) CH_STATUS_RAW_Q_FULL_SEEN 1 s)
    else s
  | none => s

/-- R114, R115: a sector fails read-after-write: it counts, once in the tally of an Open reach too, and joins the rewrite queue. One that
finds all 64 entries taken waits for a place (DESIGN CHOICE, notes/assumptions/22.md). -/
def rewriteAdd (a reach : Nat) (w : Rewrite) (s : State) : State :=
  let s := incF (actBase a) CH_COUNT_D_RAW_FAILS s
  let s := modEntry a reach (fun e => if e.state = 1 then { e with tally := satInc 0xFFFF e.tally } else e) s
  let s := modAct a (fun x => if x.rw.length < 64 then { x with rw := x.rw ++ [w] } else { x with rwWait := x.rwWait ++ [w] }) s
  let s := wr (actBase a) CH_RAW_Q_DEPTH (actOf s a).rw.length s
  pauseIfFull a s

/-- An entry leaves the rewrite queue; one that waited takes its place. -/
def rewriteTake (x : Act) : Act := { x with rw := x.rw.drop 1 ++ x.rwWait.take 1, rwWait := x.rwWait.drop 1 }

/-- R114, R115, R202: a cause that cuts the sector being written, verified or not: it fails read-after-write, as a sector without a
decode that converged (code 9), and joins the rewrite queue. The power-fail sequence lets the sector end (R49). -/
def cutSector (a : Nat) (s : State) : State :=
  let x := actOf s a
  let g := x.gates
  match x.run with
  | some r =>
    match r.last with
    | some w =>
      if x.writing && (g.reset || g.offTrack || g.fly || g.flt || g.shock || g.presence) then
        let r := { r with verifyQ := r.verifyQ.filter (fun v => decide (v ≠ w)), results := tins r.results w.slot 9, last := none }
        rewriteAdd a r.reach { w with code := 9 } (modAct a (fun x => { x with run := some r, writing := false }) s)
      else s
    | none => s
  | none => s

/-- Bring AS_STATUS.GRANTED in line with the standing request and R195; a withdrawn grant makes the write output idle. The reset's own
inhibit ends when a configured actuator's sequencer opens a write (R73). -/
def gateUpdate (a : Nat) (s : State) : State :=
  let s := when ((actOf s a).wgReq && (actOf s a).configured) (modAct a (fun x => { x with gates := { x.gates with reset := false } })) s
  let g := (actOf s a).wgReq && gateOk s a
  let s := setF (actBase a) AS_STATUS_GRANTED g s
  if g then s else modAct a (fun x => { x with writing := false }) (cutSector a s)

/-- Change the inhibit causes of an actuator and act on the gate (R73). -/
def setGates (a : Nat) (f : Gates → Gates) (s : State) : State :=
  gateUpdate a (modAct a (fun x => { x with gates := f x.gates }) s)

/-- Bring the derived sequencer and rewrite-queue fields in line with the actuator. -/
def syncAct (a : Nat) (s : State) : State :=
  let x := actOf s a
  let b := actBase a
  let s := wr b AS_STATUS_STACK x.stack.length s
  let s := wr b AS_STATUS_WORK_DEPTH x.work.length s
  let s := wr b AS_STATUS_DONE_DEPTH x.doneQ.length s
  let s := setF b AS_STATUS_WAITING x.wait.isSome s
  let s := wr b AS_STATUS_WAIT_COND (match x.wait with | some w => w.cond | none => 0) s
  let s := wr b AS_CUR_WORK_TAG (match x.cur with | some i => i.tag | none => 0) s
  let s := wr b AS_CUR_WORK_REACH (match x.cur with | some i => i.reach | none => 0) s
  wr b CH_RAW_Q_DEPTH x.rw.length s

/-! ### Sequencer items -/

/-- Post one completion to AS_DONE (R184); with AS_DONE full the POST waits (R202). -/
def post (a tag status : Nat) (s : State) : State :=
  if (actOf s a).doneQ.length < 16 then
    let s := modAct a (fun x => { x with doneQ := x.doneQ ++ [(tag, status)] }) s
    let s := incF (actBase a) AS_COUNTS_A_ITEMS s
    syncAct a (send (.irq (fbAct a)) s)
  else modAct a (fun x => { x with postQ := x.postQ ++ [(tag, status)] }) s

/-- Clear what belongs to the current item. -/
def clearItem (x : Act) : Act :=
  let x := { x with cur := none, curMoverErr := false, curViolation := false, curIllegal := false, curTimeout := false }
  let x := { x with curFull := false, curRewritten := false, curCodes := [], curFault := false, run := none, rw := [], rwWait := [] }
  { x with fifo := [], itemPos := 0, itemFirst := 0, wait := none, wgReq := false, transfer := 0 }

/-- R184's status: the first code of the list that applies. -/
def itemStatus (x : Act) : Nat :=
  if x.curIllegal then 6
  else if x.curViolation then 7
  else if x.curFault then 4
  else if x.curMoverErr then 0xA
  else if (match x.cur with | some i => i.withdrawn | none => false) then 5
  else if x.curTimeout then 9
  else if x.curFull then 3
  else if x.curCodes.any (fun e => decide (8 ≤ e.2)) || !x.rw.isEmpty then 2
  else if x.curRewritten then 1
  else 0

/-- End the running item with its one completion. -/
def endItem (a : Nat) (s : State) : State :=
  let x := actOf s a
  match x.cur with
  | none => s
  | some i =>
    let st := itemStatus x
    let s := modAct a clearItem s
    let s := when x.disarm (fun s => modAct a (fun x => { x with disarm := false }) (wr (actBase a) AS_CUST_ARMED 0 s)) s
    post a i.tag st (gateUpdate a s)

/-- Post every queued item with a status, without starting it. -/
def postQueued (a status : Nat) (s : State) : State :=
  let q := (actOf s a).work
  let s := modAct a (fun x => { x with work := [], backlog := [] }) s
  syncAct a (forEach q (fun i => post a i.tag status) s)

/-- R202: a lasting data-path fault of An ends the current and the queued items with status 0x04. -/
def faultItems (a : Nat) (s : State) : State :=
  let s := modAct a (fun x => { x with curFault := true }) s
  postQueued a 4 (endItem a s)

/-- Discard every item without a completion (R184, R202), and every frame of the head link: the first write to HDA_PA_GO afterwards is
accepted (R87). -/
def dropItems (a : Nat) (s : State) : State :=
  let s := when ((actOf s a).frames.any (fun f => f.sw)) (modPort (portOfAct a) (fun p => { p with swFrame := false })) s
  let s := modAct a (fun x => { clearItem x with work := [], backlog := [], doneQ := [], stack := [], postQ := [], frames := [], disarm := false }) s
  syncAct a (gateUpdate a s)

/-- Enter a horizontal word (R190): the gate request ends. -/
def enterHoriz (a w : Nat) (s : State) : State :=
  let b := actBase a
  let s := wr b AS_STATUS_MODE 2 s
  let s := wr b AS_PC_HORIZ_PC w s
  let s := setF b AS_PC_IN_CUSTOMER false s
  syncAct a (gateUpdate a (modAct a (fun x => { x with wgReq := false, wait := none, hEntry := w }) s))

/-- Go to a microword. -/
def goMicro (a pc : Nat) (s : State) : State :=
  let b := actBase a
  let s := wr b AS_STATUS_MODE 1 s
  let s := wr b AS_PC_MICRO_PC pc s
  let s := setF b AS_PC_IN_CUSTOMER (decide (6144 ≤ pc ∧ pc ≤ 8191)) s
  let s := modAct a (fun x => { x with wait := none }) s
  syncAct a (if pc = 0 then modAct a (fun x => { x with stack := [] }) s else s)

/-! ### The identity record -/

/-- The identity record's fields, from HDA_ID_COPY (R82). -/
def idBytes (s : State) (n o len : Nat) : Nat :=
  (List.range len).foldr (fun i acc =>
    bitsOf (rd s (portBase n) (HDA_ID_COPY_WORD.ix ((o + i) / 4))) (8 * ((o + i) % 4)) 8 + 256 * acc) 0

def idPoles (s : State) (n : Nat) : Nat := idBytes s n 0x1F 1
def idRpmMin (s : State) (n : Nat) : Nat := idBytes s n 0x28 2
def idRpmMax (s : State) (n : Nat) : Nat := idBytes s n 0x2A 2
def idRes (s : State) (n : Nat) : Nat := idBytes s n 0x2E 2
def idKe (s : State) (n : Nat) : Nat := idBytes s n 0x30 2
def idImax (s : State) (n : Nat) : Nat := idBytes s n 0x32 2
def idVcmRes (s : State) (n : Nat) : Nat := idBytes s n 0x34 2
def idVcmImax (s : State) (n : Nat) : Nat := idBytes s n 0x36 2
def idSurfaces (s : State) (n : Nat) : Nat := idBytes s n 0x20 4
def idSerial (s : State) (n : Nat) : Nat := idBytes s n 0x0C 16
def idReaches (s : State) (a : Nat) : Nat := idBytes s (portOfAct a) (if a % 2 = 0 then 0x24 else 0x26) 2

/-! ### Demands and their limits (R143, R146, R169, R180) -/

def setWord (w : List Nat) (k : Nat) : Nat := w.getD k 0
def sLow (v : Nat) : Int := ofBits 16 (v % 65536)
def sHigh (v : Nat) : Int := ofBits 16 (v / 65536 % 65536)

/-- The present intermediate-bus voltage in V: the monitor's, or the set-point where no monitor value has come (log entry 14). -/
def busVolts (s : State) : Rat :=
  let mv := rd s pwrB PWR_IB_MON_ACTIVE_MV
  if mv = 0 then 12 else (mv : Rat) / 1000

/-- R180: the current in A at which a motor draws `g` mW at a speed, from E in V and R in Ω. -/
def grantCurrent (e r : Rat) (g : Nat) : Rat := (ratSqrt (e * e + 4 * r * g / 1000) - e) / (2 * r)

/-- Back-EMF in V at a speed in rpm (R169). -/
def emfV (s : State) (n : Nat) (rpm : Rat) : Rat := (idKe s n : Rat) * rpm / 1000000

/-- R169: the largest duty at a speed: the motor's limit, or the Sluice's in a spin-up, whichever is lower. -/
def dutyMax (s : State) (n : Nat) (rpm : Rat) : Rat :=
  let e := emfV s n rpm
  let r : Rat := (idRes s n : Rat) / 1000
  let imax : Rat := (idImax s n : Rat) / 1000
  let up := s.sluice.active.any (fun x => decide (x.1 = n))
  let lim := if up then min imax (grantCurrent e r (portOf s n).grant) else imax
  4096 * (e + lim * r) / busVolts s

/-- The output limits in force: the set's, narrowed by the motor (R143, R169). -/
def outLimits (s : State) (i : Nat) (w : List Nat) (m : Rat) : Rat × Rat :=
  let lo : Rat := (sLow (setWord w 4) : Rat)
  let hi : Rat := (sHigh (setWord w 4) : Rat)
  if i < 48 then
    let v : Rat := (idVcmImax s (portOfAct i) : Rat)
    (max lo (-v), min hi v)
  else
    let lo := if flag s (portBase (i - 48)) SP_CTL_ACTIVE_BRAKE then lo else max lo 0
    (lo, min hi (dutyMax s (i - 48) m))

def clampR (lo hi v : Rat) : Rat := if hi < v then hi else if v < lo then lo else v

/-- Show the demand, the integrator and the saturation bits; the VCM bridge of an actuator carries the demand. -/
def showLoop (i : Nat) (s : State) : State :=
  let b := leBase i
  let l := loopOf s i
  let ilo : Rat := (sLow (setWord l.set 5) : Rat)
  let ihi : Rat := (sHigh (setWord l.set 5) : Rat)
  let s := when (decide (i < 48)) (modAct i (fun x => { x with vcm := .demand l.prevD })) s
  let s := wr b LE_DEMAND_DEMAND (fitBits 16 (showRat l.prevD)) s
  let s := wr b LE_DEMAND_INTEG (fitBits 16 (showRat l.i)) s
  let s := setF b LE_STATUS_OUT_SAT (l.satHi || l.satLo) s
  setF b LE_STATUS_I_SAT (decide (l.i ≤ ilo) || decide (ihi ≤ l.i)) s

/-- A demand that does not come from the law (R154, R176): OUT_SAT follows it too (R146). An instance that has loaded no set has no limit. -/
def setDemand (i : Nat) (d : Rat) (s : State) : State :=
  let l := loopOf s i
  let (lo, hi) := outLimits s i l.set l.prevM
  let known := !l.set.isEmpty
  showLoop i (modLoop i (fun l => { l with prevD := d, satHi := known && decide (hi ≤ d), satLo := known && decide (d ≤ lo) }) s)

/-! ### Zones in force (R126) -/

/-- R126: the entries of a zone table up to the first whose start is not greater than the previous one. -/
def zonesFrom (s : State) (a : Nat) : Nat → Nat → Option Nat → List (Nat × Nat)
  | 0, _, _ => []
  | n + 1, z, prev =>
    let st := rd s (actBase a) (SV_ZONE_START_TRACK.ix z)
    let bpw := rd s (actBase a) (SV_ZONE_RATE_BITS_PER_WEDGE.ix z)
    match prev with
    | some p => if st ≤ p then [] else (st, bpw) :: zonesFrom s a n (z + 1) (some st)
    | none => (st, bpw) :: zonesFrom s a n (z + 1) (some st)

/-- The zones in force of an actuator: (first track, bits per wedge). -/
def zonesOf (s : State) (a : Nat) : List (Nat × Nat) := zonesFrom s a 32 0 none

/-! ### Retract, park and unload -/

/-- An actuator is loaded unless Parked. -/
def loaded (s : State) (a : Nat) : Bool := decide (svState s a ≠ 0)

/-- Raise the off-track write inhibit (R132); a write that it meets counts. -/
def raiseOff (a : Nat) (s : State) : State :=
  let s := when (!(actOf s a).gates.offTrack && (actOf s a).writing) (incF (actBase a) SV_COUNTS_B_WR_INHIBITS) s
  let s := setF (actBase a) SV_STATE_WR_OK false s
  let s := modAct a (fun x => { x with wrGood := 0 }) s
  setGates a (fun g => { g with offTrack := true }) s

/-- End a tune early (R157); an actuator's write inhibit counts afresh from the end (R155). -/
def tuneAbort (i cause : Nat) (s : State) : State :=
  match (loopOf s i).tune with
  | none => s
  | some t =>
    let s := modLoop i (fun l => { l with tune := none, tuneEnd := some t.b }) s
    let s := wr (leBase i) LE_STATUS_TUNING 0 s
    let s := wr (leBase i) LE_STATUS_TUNE_ABORTED 1 s
    let s := wr (leBase i) LE_STATUS_ABORT_CAUSE cause s
    when (decide (i < 48)) (raiseOff i) s

/-- A block is under a block reset or held by one (R375): it takes no new work. -/
def underReset (s : State) (kind inst : Nat) : Bool :=
  s.rst.blocks.any (fun b => decide (b.kind = kind) && decide (b.inst = inst)) || s.rst.held.contains (kind, inst)

/-- The current that Motion Safety's retract may drive: VCM_IMAX_MA, which a cold reset's retract takes from before the reset. -/
def retractLimit (s : State) (a : Nat) : Nat :=
  if (actOf s a).resetHold then (actOf s a).vcmMax else idVcmImax s (portOfAct a)

/-- Start the emergency retract of a loaded actuator (R135): the VCM drives toward the ramp. A load under way counts as failed, but where a
reset ends it (R138). -/
def retract (a : Nat) (s : State) : State :=
  let st := svState s a
  if st = 0 ∨ st = 6 then s
  else
    let b := actBase a
    let s := tuneAbort a 3 s
    let reset := s.rst.asserted.isSome || decide (service s = 4) || underReset s 1 a || (actOf s a).resetHold
    let s := when (decide (st = 1) && !reset) (fun s => incF b SV_COUNTS_C_LOAD_FAILS (wr b SV_EVENTS_LOAD_FAIL 1 s)) s
    let s := wr b SV_STATE_STATE 6 s
    let s := incF b SV_COUNTS_C_RETRACTS s
    let drive := Vcm.toRamp (10 * rd s b SV_SAFETY_RETRACT_MV) (retractLimit s a)
    let s := modAct a (fun x => { x with retractWait := false, retractAt := now s, loadTries := 0, unloadSeek := false, vcm := drive }) s
    raiseOff a s

/-- Show an actuator as Parked (R135): the demand is zero, and after a cold reset's retract the bridge is at high impedance (R136). -/
def park (a : Nat) (s : State) : State :=
  let s := wr (actBase a) SV_STATE_STATE 0 s
  let s := raiseOff a (setDemand a 0 (wr (actBase a) SV_STATE_LOCKED 0 s))
  modAct a (fun x => { x with vcm := if x.coldCut then .highZ else x.vcm, resetHold := false, unloadSeek := false }) s

/-- R135: when the park condition holds, in µs from the drive's beginning: the back-EMF (µs, mV) has stayed below 10 % of RETRACT_MV for 1 ms, at
least 2 ms after the beginning. `since` is when it last fell below. -/
def parkTime (limit : Nat) : Option Nat → List (Nat × Int) → Option Nat
  | _, [] => none
  | since, (t, v) :: r =>
    if v.natAbs < limit then
      let u := since.getD t
      if max 2000 (u + 1000) ≤ t then some (max 2000 (u + 1000)) else parkTime limit (some u) r
    else parkTime limit none r

/-- The park time of an actuator's drive: 10 % of RETRACT_MV, which counts in 10 mV. -/
def parkedAt (s : State) (a : Nat) (emf : List (Nat × Int)) : Option Nat := parkTime (rd s (actBase a) SV_SAFETY_RETRACT_MV) none emf

/-- Ask Motion Safety for a retract at the next wedge (R136, R154). -/
def requestRetract (a : Nat) (s : State) : State :=
  when (loaded s a && decide (svState s a ≠ 6)) (modAct a (fun x => { x with retractWait := true })) s

/-- R134: the VCM drives toward the ramp, from Unloading's first sample. -/
def unloadRamp (a : Nat) (s : State) : State :=
  let s := wr (actBase a) SV_STATE_STATE 5 s
  let s := modLoop a (fun l => { l with rampStart := true }) s
  modAct a (fun x => { x with unloadSeek := false, retractAt := now s }) s

/-- R129: AMAX after the clamp to 0.8 KA VCM_IMAX_MA, in 1,000 tracks/ms². -/
def amaxUsed (s : State) (a : Nat) : Nat :=
  min (rd s (actBase a) SV_SEEK_AMAX) (8 * rd s (actBase a) SV_SEEK_KA * idVcmImax s (portOfAct a) / 10000)

/-- A seek to a track starts (R128): zones written since take effect (R139). -/
def seekTo (a : Nat) (track : Rat) (s : State) : State :=
  let b := actBase a
  let s := tuneAbort a 3 s
  let s := wr b SV_SEEK_USED_AMAX_USED (amaxUsed s a) s
  let y := (actOf s a).y
  let zs := zonesOf s a
  let s := modAct a (fun x => { x with seekNs := 0, seekLen := if y ≤ track then track - y else y - track, seekUp := decide (y ≤ track), zones := zs }) s
  wr b SV_STATE_STATE 2 s

/-- Start an unload (R134): a seek to track 0, which the ramp follows at its hand-off. An actuator that holds no position, in Loading or Lost,
drives toward the ramp at once (DESIGN CHOICE, notes/assumptions/23.md). -/
def unload (a : Nat) (why : UnloadFor) (s : State) : State :=
  let st := svState s a
  if st = 0 ∨ st = 6 then s
  else
    let s := raiseOff a (modAct a (fun x => { x with unloadFor := why }) (tuneAbort a 3 s))
    if st = 1 ∨ st = 7 then unloadRamp a s
    else if st = 5 ∨ (actOf s a).unloadSeek then s
    else seekTo a 0 (modAct a (fun x => { x with unloadSeek := true, settleTries := 0 }) s)

/-! ### Spindles -/

/-- R172: the short-brake limit n_sb in rpm. -/
def nShortBrake (s : State) (n : Nat) : Nat := idImax s n * idRes s n / (idKe s n)

/-- A window has been computed for the port (R161). -/
def windowKnown (s : State) (n : Nat) : Bool := (portOf s n).window.isSome

/-- A port's window is empty. -/
def windowEmpty (s : State) (n : Nat) : Bool :=
  match (portOf s n).window with
  | some (lo, hi) => decide (hi < lo)
  | none => false

/-- CATCH_MIN in rpm. -/
def catchMin (s : State) (n : Nat) : Nat := 10 * rd s (portBase n) SP_START_CATCH_MIN

/-- R178: the running reservation in mW at a target speed, to the nearest 1 mW. -/
def runMw (s : State) (target : Nat) : Nat :=
  (2 * rd s slB SLUICE_RUN_RUN_REF * 100 * target * target + 5400 * 5400) / (2 * 5400 * 5400)

/-- Sum of running reservations in mW. -/
def runSum (s : State) : Nat := (List.range 24).foldr (fun n acc => (portOf s n).reserved + acc) 0
/-- Sum of grants in mW. -/
def grantSum (s : State) : Nat := (List.range 24).foldr (fun n acc => (portOf s n).grant + acc) 0

/-- Bring the Sluice's derived fields up to date. -/
def syncSluice (s : State) : State :=
  let s := wr slB SLUICE_STATUS_ACTIVE s.sluice.active.length s
  let s := wr slB SLUICE_STATUS_QUEUED (s.sluice.queue.length + s.sluice.fresh.length) s
  let s := setF slB SLUICE_STATUS_HOLDUP_WAIT (!s.pwr.charged) s
  let s := wr slB SLUICE_RESERVED_RUN_SUM (runSum s / 100) s
  wr slB SLUICE_RESERVED_GRANT_SUM (grantSum s / 100) s

/-- Set a spindle's grant in mW. -/
def setGrant (n g : Nat) (s : State) : State :=
  wr (portBase n) SP_POWER_GRANT (g / 10) (modPort n (fun p => { p with grant := g }) s)

/-- Release a spin-up's grant and take the spindle off the active spin-ups (R173, R176, R180). -/
def releaseGrant (n : Nat) (s : State) : State :=
  let s := setGrant n 0 s
  syncSluice { s with sluice := { s.sluice with active := s.sluice.active.filter (fun e => decide (e.1 ≠ n)) } }

/-- Release a spindle's running reservation (R176). -/
def releaseRun (n : Nat) (s : State) : State := syncSluice (modPort n (fun p => { p with reserved := 0 }) s)

/-- Take a spindle out of the Sluice queue. -/
def dequeue (n : Nat) (s : State) : State :=
  let q (l : List Nat) := l.filter (fun m => decide (m ≠ n))
  syncSluice { s with sluice := { s.sluice with queue := q s.sluice.queue, fresh := q s.sluice.fresh } }

/-- A start request for a spindle: queued unless held, not to run, or queued already (R179, R181). -/
def requestStart (n : Nat) (s : State) : State :=
  if flag s (portBase n) SP_CTL_RUN && !bitOf (rd s slB SLUICE_PLAN_HOLD) n && decide (portState s n = 4)
    && !(s.sluice.queue ++ s.sluice.fresh).contains n && !(unitOf s (fbPort n) 0).inFault
    && !windowEmpty s n then
    let s := wr (portBase n) SP_STATUS_STATE 1 s
    syncSluice { s with sluice := { s.sluice with fresh := s.sluice.fresh ++ [n] } }
  else s

/-- The bridge goes to high impedance: no duty. -/
def bridgeOff (n : Nat) (s : State) : State :=
  setDemand (48 + n) 0 (modPort n (fun p => { p with brake := .coast, duty := 0, dutyWas := 0 }) s)

/-- A spindle is turning under its controller. -/
def spRunning (s : State) (n : Nat) : Bool := decide (spState s n = 6 ∨ spState s n = 7)

/-- The speed of a rotor in rpm as its controller knows it: none while it aligns, the commanded one in the open loop. -/
def rotorRpm (s : State) (n : Nat) : Nat :=
  let st := spState s n
  if st = 4 then 0 else if st = 5 then (portOf s n).cmdRpm else rd s (portBase n) SP_MEAS_SPEED

/-- R86, R176: the short brake is engaged. -/
def shortBrake (n : Nat) (s : State) : State :=
  let t := now s
  modPort n (fun p => { p with brake := .short, brakeAt := t }) s

/-- R86, R172, R176: braking begins: the plug brake down to CATCH_MIN, the short brake below it. -/
def brakeStart (n : Nat) (why : BrakeFor) (s : State) : State :=
  let t := now s
  let fast := decide (catchMin s n ≤ rotorRpm s n)
  let s := wr (portBase n) SP_STATUS_STATE 3 (modPort n (fun p => { p with brakeFor := why, lastCross := t }) s)
  if fast then modPort n (fun p => { p with brake := .plug }) s else shortBrake n s

/-- Stop a spindle whose heads are parked (R176, R86): coast, or plug brake and short brake. A power-fail sequence lets nothing brake (R177). -/
def spinStopNow (n : Nat) (release : Bool) (s : State) : State :=
  let s := bridgeOff n s
  let s := releaseRun n (releaseGrant n (dequeue n s))
  let s := wr (portBase n) SP_STATUS_REGION 0 s
  if (release || flag s (portBase n) SP_CTL_ACTIVE_BRAKE) && !s.pwr.failing then
    brakeStart n (if release then .release else .stop) s
  else wr (portBase n) SP_STATUS_STATE 0 s

/-- Stop a spindle (R176): unload both actuators first, then stop once they are parked. -/
def spinStop (n : Nat) (release : Bool) (s : State) : State :=
  let why := if release then UnloadFor.release else UnloadFor.stop
  let s := unload (actU n) why (unload (actL n) why s)
  if loaded s (actU n) || loaded s (actL n) then
    modPort n (fun p => { p with deferStop := true, brakeFor := if release then .release else .stop }) s
  else spinStopNow n release s

/-- After a park: a stop or release that waited for it goes on (R138); a start asked for meanwhile follows a stop that coasts. -/
def afterPark (a : Nat) (s : State) : State :=
  let n := portOfAct a
  if (portOf s n).deferStop && !loaded s (actU n) && !loaded s (actL n) then
    let rel := decide ((portOf s n).brakeFor = .release)
    let s := spinStopNow n rel (modPort n (fun p => { p with deferStop := false }) s)
    if spState s n = 0 then requestStart n s else s
  else s

/-- A spindle out of service as a lasting fault (R161, R173, R175): bridge at high impedance, grant and reservation released. -/
def spinFault (n : Nat) (s : State) : State :=
  let s := bridgeOff n s
  let s := releaseRun n (releaseGrant n (dequeue n s))
  wr (portBase n) SP_STATUS_STATE 11 s

/-- Presence lost, or the port leaves Online: every output of the port idle (R84, R177). -/
def portDark (n : Nat) (s : State) : State :=
  let s := releaseRun n (releaseGrant n (dequeue n (bridgeOff n s)))
  let s := wr (portBase n) SP_STATUS_STATE 0 s
  let s := wr (portBase n) SP_STATUS_REGION 0 s
  forEach [actU n, actL n] (fun a s =>
    let was := loaded s a
    let s := park a s
    let s := when was (wr (actBase a) SV_EVENTS_PARK_UNCONFIRMED 1) s
    let s := setGates a (fun g => { g with presence := true }) s
    let s := wr (actBase a) AS_CTL_RUN 0 s
    wr (actBase a) AS_STATUS_MODE 0 (modAct a (fun x => { x with ranSince := false, frames := [], pre := [] }) s)) s

end Sys2Proof.Machine
end

