-- ==== Sys2Proof/Machine/ObjOps.lean ====
section
/-!
DEFINITION. Sys2Proof/Machine/ObjOps.lean: operations of the object service that other families share: completions and the
error log (R319, R295), queue and controller resets (R313, R314), the object index and the undoing of commits (R308-R312).
-/
namespace Sys2Proof.Machine
open Reg

/-- R319: DNR of the statuses that the spec lists; it gives none for the statuses of the governing documents that it names only. -/
def dnrOf (status : Nat) : Option Bool :=
  if [0x00, 0x04, 0x06, 0x82, 0x88, 0xC0, 0xC3, 0xCA].contains status then some false
  else if [0x01, 0x02, 0x0B, 0x85, 0x86, 0x87, 0x89, 0xC1, 0xC2, 0xC4, 0xC5, 0xC6, 0xC7, 0xC8, 0xC9].contains status then some true
  else none

/-- The DNR bit of a completion: R319's, or open. -/
def dnrBit (status : Nat) (s : State) : Bool × State :=
  match dnrOf status with
  | some d => (d, s)
  | none => let (f, s) := takeFree s
    (decide (f % 2 = 1), s)

/-- Post a completion: counted on the port (HP_CMDS); every status other than Success enters log page 0x01 (R319). -/
def complete (c : Sqe) (status dw0 dw1 : Nat) (s : State) : State :=
  let h := c.port.val
  let (dnr, s) := dnrBit status (pairAdd (hostBase h + 0x10) 1 s)
  let s := when (decide (status ≠ 0))
    (modCtrl h (fun x => { x with errors := ((c, status, b2n dnr) :: x.errors).take 64, errCount := x.errCount + 1 })) s
  let s := when (decide (status = 0x88 ∨ status = 0xC0 ∨ status = 0xC4))
    (fun s => { s with obj := { s.obj with mediaErrs := s.obj.mediaErrs + 1 } }) s
  send (.cqe c status dnr dw0 dw1) s

/-- The submission of a command that takes a range lock (R306). -/
def lockSqe : Instr → Option Sqe
  | .store c _ _ _ => some c
  | .retrieve c _ _ _ => some c
  | .delete c _ => some c
  | .exist c _ => some c
  | .appendValue c _ _ _ _ => some c
  | .auditObject c _ _ _ _ => some c
  | .importStreamWrite c _ _ _ _ _ => some c
  | .exportStreamRead c _ _ _ _ _ _ => some c
  | _ => none

/-- Whether a command was submitted on a port, and on a queue where one is named. -/
def onQueue (h : Nat) (q : Option Nat) (c : Sqe) : Bool :=
  decide (c.port.val = h) && (match q with | none => true | some q => decide (c.qid = q))

/-- QE_LOCKS in line with the lock table. -/
def syncLocks (s : State) : State :=
  let s := wr qeB QE_LOCKS_IN_USE (s.obj.locks.length + s.obj.waiting.length) s
  wr qeB QE_LOCKS_WAITING (min 8191 s.obj.waiting.length) s

/-- Abort what is admitted and not committed on the queues named: lock waits, Flushes, locks held (R314). -/
def abortOn (h : Nat) (q : Option Nat) (s : State) : State :=
  let keepW (w : Waiting) := match lockSqe w.cmd with | some c => !onQueue h q c | none => true
  let keepL (l : Lock) := !(decide (l.port = h) && (match q with | none => true | some q => decide (l.qid = q)))
  let o := s.obj
  let o := { o with waiting := o.waiting.filter keepW, locks := o.locks.filter keepL, flushes := o.flushes.filter (fun f => !onQueue h q f.cmd) }
  let keepI (c : Instr) := match lockSqe c with | some c => !onQueue h q c | none => true
  let o := { o with unadmitted := o.unadmitted.filter keepI }
  let o := { o with commitCmd := o.commitCmd.filter (fun c => !onQueue h q c) }
  let str := { s.str with fetches := s.str.fetches.filter (fun f => !onQueue h q f.cmd) }
  let rst := { s.rst with blocks := s.rst.blocks.map (fun b => { b with cmd := b.cmd.filter (fun c => !onQueue h q c) }) }
  syncLocks { s with obj := o, str := str, rst := rst }

/-- HP_CONN.IO_QUEUES in line with the controller. -/
def syncConn (h : Nat) (s : State) : State := wr (hostBase h) HP_CONN_IO_QUEUES (ctrlOf s h).queues.length s

/-- A queue reset (R314): the queue's commands are aborted, its identifier quiesces for at most 10 ms (R316). -/
def queueResetOp (h q : Nat) (s : State) : State :=
  let s := abortOn h (some q) s
  syncConn h (modCtrl h (fun x => { x with queues := x.queues.filter (fun e => decide (e.1 ≠ q)), quiescing := (q, now s + msecs 10) :: x.quiescing }) s)

/-- Streams of a controller close: their keys in the stream tables are 16 h to 16 h + 7. -/
def closeStreams (h : Nat) (s : State) : State :=
  let mine (e : Nat × Stream) := decide (e.1 / 16 ≠ h)
  let o := s.obj
  let held (l : Lock) := !(decide (l.port = h) && decide (1000 ≤ l.qid))
  { s with obj := { o with imports := o.imports.filter mine, exports := o.exports.filter mine, locks := o.locks.filter held } }

/-- A controller reset (R313). -/
def ctrlReset (h : Nat) (s : State) : State :=
  let s := abortOn h none s
  let s := closeStreams h s
  let s := { s with obj := { s.obj with image := match s.obj.image with | some (k, b) => if k = h then none else some (k, b) | none => none } }
  let qs := (ctrlOf s h).queues
  let s := modCtrl h (fun x => { x with queues := [], quiescing := qs.map (fun e => (e.1, now s + msecs 10)) ++ x.quiescing, aers := [] }) s
  let s := wr (hostBase h) HP_CONN_READY 0 (wr (hostBase h) HP_CONN_ENABLED 0 s)
  syncLocks (syncConn h s)

/-- The admin connection of a port ends: a controller reset, and the association is gone. -/
def dropAssociation (h : Nat) (s : State) : State :=
  let s := ctrlReset h s
  let s := modCtrl h (fun x => { x with hostNqn := none, events := [] }) s
  wr (hostBase h) HP_CONN_PROCESSING_PAUSED 0 (wr (hostBase h) HP_CONN_ADMIN 0 s)

/-- The object that the index names for a key. -/
def idxFind (s : State) (ns : Nat) (key : List Byte) : Option Nat :=
  match s.obj.index.find? (fun e => decide (e.ns = ns) && decide (e.key = key)) with
  | some e => some e.obj
  | none => none

/-- An object's record. -/
def objOf (s : State) (o : Nat) : Option Obj := tfind s.obj.objs o

/-- Byte order of keys (R298). -/
def keyLt : List Byte → List Byte → Bool
  | [], [] => false
  | [], _ :: _ => true
  | _ :: _, [] => false
  | a :: as, b :: bs => decide (a.toNat < b.toNat) || (decide (a = b) && keyLt as bs)

/-- Insert into the index in order of namespace and key, replacing the key's entry. -/
def idxIns (e : IdxEntry) : List IdxEntry → List IdxEntry
  | [] => [e]
  | x :: xs =>
    if x.ns = e.ns ∧ x.key = e.key then e :: xs
    else if e.ns < x.ns ∨ (e.ns = x.ns ∧ keyLt e.key x.key = true) then e :: x :: xs
    else x :: idxIns e xs

/-- Set or clear the index entry of a key. -/
def idxSet (ns : Nat) (key : List Byte) (o : Option Nat) (s : State) : State :=
  let rest := s.obj.index.filter (fun e => !(decide (e.ns = ns) && decide (e.key = key)))
  { s with obj := { s.obj with index := match o with | some n => idxIns ⟨ns, key, n⟩ rest | none => rest } }

/-- Undo one commit (R312): the key and its object return to what they were. -/
def undoOne (u : Undo) (s : State) : State :=
  let s := match idxFind s u.ns u.key with
    | some n => { s with obj := { s.obj with objs := tdel s.obj.objs n } }
    | none => s
  match u.before with
  | none => idxSet u.ns u.key none s
  | some (n, o) => idxSet u.ns u.key (some n) { s with obj := { s.obj with objs := tins s.obj.objs n o } }

/-- Undo every commit above the recorded durable mark, from the highest down (R312). -/
def undoCommits (s : State) : State :=
  let go := s.obj.undo.filter (fun u => decide (s.obj.durable < u.num))
  let s := forEach go.reverse undoOne s
  { s with obj := { s.obj with commit := s.obj.durable, undo := [] } }

/-- Every connection ends without a completion (R314): what is admitted and not committed is aborted. -/
def dropHosts (s : State) : State :=
  forEach [0, 1, 2, 3] (fun h s => modCtrl h (fun x => { x with discovery := 0 }) (dropAssociation h s)) s

/-- The durable mark reaches `d`: Flushes that it covers may complete, states up to it need no undo record (R312). -/
def advanceDurable (d : Nat) (s : State) : State :=
  let d := max s.obj.durable (min d s.obj.commit)
  { s with obj := { s.obj with durable := d, undo := s.obj.undo.filter (fun u => decide (d < u.num)) } }

end Sys2Proof.Machine
end

