-- ==== Sys2Proof/Machine/ResetOps.lean ====
section
/-!
DEFINITION. Sys2Proof/Machine/ResetOps.lean: asserting a warm reset, a cold reset or a halt (R363-R369, R379, R390, R436), the
power-fail sequence (R49) and the power-down (R50), and the end of a module reset (R373).
-/
namespace Sys2Proof.Machine
open Reg

/-! ### What each kind clears (R364) -/

/-- The address and the type code of a field's key. -/
def keyAddr (k : Nat) : Nat := k / 256
def keyTy (k : Nat) : Nat := k % 8
def keyLo (k : Nat) : Nat := k / 8 % 32

/-- The key is of the given field. -/
def isKey (b : Nat) (f : Field) (k : Nat) : Bool := decide (k = fieldKey b f)

/-- A fault register set's address. -/
def inFb (addr : Nat) : Bool :=
  let m := addr % 0x1000
  decide (0xC00 ≤ m) && !decide (0x180000 ≤ addr ∧ addr < 0x182000)
    && (decide (0x80000 ≤ addr ∧ addr < 0x130000) || decide (addr % 0x10000 ≥ 0xFC00) || decide (0x1A0000 ≤ addr ∧ addr < 0x1B0000 ∧ addr % 0x4000 ≥ 0x3C00))

/-- The always-on domain (R362), the service state, the Daybook, the Bursar and the Assay window: a warm reset leaves all of it. -/
def warmBlock (addr : Nat) : Bool :=
  decide (addr < 0x30000) || decide (0x40000 ≤ addr ∧ addr < 0x80000) || decide (0x80000 ≤ addr ∧ addr < 0x98000 ∧ 0x600 ≤ addr % 0x1000)
    || decide (0x1C0000 ≤ addr ∧ addr < 0x1F0000)

/-- The HDA ports' states, supplies, identity copies and readings, the Reach Ledger, the loader: their read-only fields stay. -/
def warmReadOnly (addr : Nat) : Bool :=
  decide (0x80000 ≤ addr ∧ addr < 0x98000) && (decide (addr % 0x1000 = 0) || decide (addr % 0x1000 = 0x20) || decide (0x100 ≤ addr % 0x1000 ∧ addr % 0x1000 < 0x200))
    || decide (0x160000 ≤ addr ∧ addr < 0x170000) || decide (0x1F0000 ≤ addr ∧ addr < 0x200000)

/-- Single fields outside those blocks that a warm reset leaves: the stamp unit's status, CODE (R59), SV_STATE.STATE of an
actuator that is still to be parked, the host links (R368), the directory's organisation, the Reservoir's dies and health, the rebuild's
ports and the debt, which the media keep. -/
def warmField (k : Nat) : Bool :=
  let addr := keyAddr k
  isKey fabB FAB_VCORE_CODE k || isKey fabB STAMP_STATUS_TIME_VALID k || isKey fabB STAMP_STATUS_HOLDING k
    || (decide (0x100000 ≤ addr ∧ addr < 0x130000) && decide (addr % 0x1000 = 0x108) && decide (keyLo k = 0))
    || (decide (keyTy k = 0) && (decide (0x1A0000 ≤ addr ∧ addr < 0x1B0000 ∧ addr % 0x4000 = 0) || decide (addr = 0x170024)
      || decide (0x190018 = addr ∨ addr = 0x190040 ∨ addr = 0x190044) || decide (addr = 0x150054 ∨ addr = 0x150060)))

/-- What a warm reset keeps of the register fields: RWS fields, the kept blocks and fields, and of the fault register sets
everything but W1C and RW fields (R394, R398). -/
def warmKeep (k : Nat) : Bool :=
  decide (keyTy k = 4) || (inFb (keyAddr k) && decide (keyTy k = 0)) || warmField k
    || ((warmBlock (keyAddr k) || (warmReadOnly (keyAddr k) && decide (keyTy k = 0))) && !inFb (keyAddr k))

/-- The levels of an HDA's contacts as HDA_STATUS shows them: PRESENT, SHOCK, FLT_U, FLT_L. -/
def contactField (k : Nat) : Bool :=
  let a := keyAddr k
  decide (0x80000 ≤ a ∧ a < 0x98000 ∧ a % 0x1000 = 0) && decide (3 ≤ keyLo k ∧ keyLo k ≤ 6)

/-- What a cold reset without loss of power keeps: the feed state (02_contacts_and_feeds.md), the Assay window and bank, GLB_SERVICE
(it is set afterwards), the reset controller's record of resets and grave faults, stamp-unit status bits, contact levels. -/
def coldKeep (k : Nat) : Bool :=
  let a := keyAddr k
  let lo := keyLo k
  contactField k ||
  (decide (a = 0x20000) && decide (lo ≤ 5 ∨ lo = 7 ∨ lo = 8)) || isKey pwrB PWR_CTL_PREFER k
    || decide (0x20018 ≤ a ∧ a ≤ 0x20024)
    || (decide (0x1E0000 ≤ a ∧ a < 0x1F0000) && !inFb a) || isKey idB GLB_SERVICE_STATE k
    || isKey rstB RST_STATUS_LAST_CAUSE k || isKey rstB RST_COUNT_COUNT k || decide (a = 0x100A0)
    || isKey fabB STAMP_STATUS_TIME_VALID k || isKey fabB STAMP_STATUS_HOLDING k

/-- Lanes and engines in service: enabled and not in a fault state (R112, R232). -/
def syncLanes (s : State) : State :=
  let up (fb u0 n en : Nat) := (List.range n).foldr (fun i acc => acc * 2 + b2n (bitOf en i && !(unitOf s fb (u0 + i)).inFault)) 0
  let s := wr dpB DP_LANE_UP_IN_SERVICE (up 0x14FC00 0 24 (rd s dpB DP_LANE_EN_ENABLE)) s
  let s := wr srB SR_STATUS_ENGINE_UP (up 0x15FC00 0 2 (rd s srB SR_CTL_ENGINE_EN)) s
  wr srB SR_STATUS_LANE_UP (up 0x15FC00 2 8 (rd s srB SR_CTL_LANE_EN)) s

/-- R377: the domains that a warm reset relocks: NAND PHY, low-speed link clocks, actuator front ends. -/
def relockField (k : Nat) : Bool :=
  isKey rstB RST_CLK_LOCK_NAND k || isKey rstB RST_CLK_LOCK_LOW_SPEED k || isKey rstB RST_ACT_LOCK_LO_ACT_LO k || isKey rstB RST_ACT_LOCK_HI_ACT_HI k

def keepRegs (p : Nat → Bool) (s : State) : State := { s with regs := s.regs.filter (fun e => p e.1) }

/-! ### Recording a reset (R379) -/

/-- Count a reset asserted at a stamp: bank words 0 to 3, RST_COUNT, LAST_CAUSE, RST_TIME, the Daybook record. -/
def countAt (t : Stamp) (cause : Nat) (s : State) : State :=
  let n := satInc 0xFFFFFFFF (rd s asyB (ASY_BANK_WORD.ix 0))
  let s := wr asyB (ASY_BANK_WORD.ix 0) n s
  let s := wr asyB (ASY_BANK_WORD.ix 1) cause s
  let s := wr asyB (ASY_BANK_WORD.ix 2) (t.time % 2 ^ 32) s
  let s := wr asyB (ASY_BANK_WORD.ix 3) (t.time / 2 ^ 32) s
  let s := wr rstB RST_COUNT_COUNT n s
  let s := wr rstB RST_STATUS_LAST_CAUSE cause s
  let s := pairSet 0x1000C t.time s
  dayRecord t 0x201 5 cause n 0 0 s

def countReset (cause : Nat) (s : State) : State :=
  let (t, s) := stamp srcReset s
  countAt t cause s

/-- R365, R379: a warm reset of RESET_N is counted, with cause 0x02 and the stamp of its assertion, once it is settled that the low
does not become the cold reset of cause 0x03. -/
def settlePin (s : State) : State :=
  match s.rst.pinTaken with
  | some t => countAt t 2 { s with rst := { s.rst with pinTaken := none } }
  | none => s

/-- R367: a cause that is absorbed or ignored. -/
def ignoreReset (cause inForce : Nat) (s : State) : State :=
  let s := wr rstB RST_STATUS_IGNORED_RESET 1 s
  dayEvent srcReset 0x202 4 cause inForce 0 0 s

def kindRank : ResetKind → Nat
  | .warm => 1 | .cold => 2 | .halt => 3

/-! ### Parts of a reset -/

/-- R136: a reset holds an actuator's VCM demand until its retract, if it is loaded. -/
def resetAct (a : Nat) (s : State) : State :=
  let up := loaded s a
  let out := decide (svState s a ≠ 6)
  let max := idVcmImax s (portOfAct a)
  modAct a (fun x => { x with retractWait := up && out, resetHold := up, vcmMax := max }) s

/-- Every write output idle, every loaded actuator to retract (R73, R136), every sequencer item gone (R184, R202), ARMED
cleared (R199). -/
def resetActs (s : State) : State :=
  forEach (List.range 48) (fun a s =>
    let s := dropItems a s
    let s := setGates a (fun g => { g with reset := true }) s
    let s := wr (actBase a) AS_CUST_ARMED 0 s
    resetAct a (modAct a (fun x => { x with configured := false, ranSince := false, rw := [], rwWait := [] }) s)) s

/-- The directory is Invalid (R258), the movers' requests are gone (R265), the decode jobs are gone. -/
def resetEngines (s : State) : State :=
  let s := { s with pool := { s.pool with segs := [], dets := [], waiting := [] } }
  let s := { s with mov := { s.mov with chans := [], turns := [] } }
  let s := { s with dec := { s.dec with first := [], deep := [], lanes := [], sums := [] } }
  { s with str := { s.str with jobs := [], running := [], fetches := [] } }

/-- A TU whose journal record was not programmed is unmapped (R281). -/
def rsvUnmap (s : State) : State :=
  { s with rsv := { s.rsv with map := s.rsv.map.filter (fun e => !(s.rsv.unprogrammed.any (fun u => decide (u.1 = e.1)))), unprogrammed := [], discards := [], gc := none } }

/-- A map journal record is programmed (R271, R272, R274): pending mappings stand, discarded TUs are unmapped. A checkpoint follows 65,536
records. -/
def journalRecord (s : State) : State :=
  let r := s.rsv
  let gone := r.map.filter (fun e => r.discards.contains (e.1 % 2 ^ 40))
  let map := r.map.filter (fun e => !r.discards.contains (e.1 % 2 ^ 40))
  { s with rsv := { r with journal := (r.journal + 1) % 65536, unprogrammed := [], map := map, discards := [], dropped := gone.foldl (fun t e => tins t e.1 e.2) r.dropped } }

/-- Block resets in progress or held end without a result, and RST_BLOCK_RESULT returns to its reset value (R375). -/
def dropBlockResets (s : State) : State :=
  if s.rst.blocks.isEmpty && s.rst.held.isEmpty then s
  else keepRegs (fun k => !decide (keyAddr k = 0x10024)) { s with rst := { s.rst with blocks := [], held := [] } }

/-- Every pending Daybook record goes to the Reservoir ring (R412), if the Reservoir is in service. -/
def mirrorOne (r : DayRec) (s : State) : State :=
  match ringPut 16777216 s.day.ring r with
  | some t => { s with day := { s.day with ring := t } }
  | none => { s with day := { s.day with ringDropped := s.day.ringDropped + 1 } }

def dayFlush (s : State) : State :=
  if flag s rsvB RSV_STATUS_OUT_OF_SERVICE then s
  else
    let s := forEach s.day.pending mirrorOne s
    let s := { s with day := { s.day with pending := [] } }
    wr dbB DB_STATUS_MIRROR_BEHIND 0 s

/-- The held records go into the rings in DAYBOOK_SEQ order, then the resume record (R413). -/
def thaw (requester : Nat) (s : State) : State :=
  if flag s dbB DB_STATUS_FROZEN then
    let held := s.day.hold
    let dropped := s.day.holdDrops
    let s := wr dbB DB_STATUS_FROZEN 0 s
    let s := wr dbB DB_STATUS_HELD 0 { s with day := { s.day with hold := [], holdDrops := 0 } }
    let s := forEach held dayStore s
    let s := dayEvent srcBursar 0x601 2 requester held.length 0 0 s
    when (decide (dropped ≠ 0)) (dayEvent srcBursar 0x602 4 requester dropped 0 0) s
  else s

/-- R361: a reset or a power failure during a commit: programming stops, and the copy that was being written has no MAGIC. -/
def cutCommit (s : State) : State :=
  match s.cfg.committing with
  | none => s
  | some _ =>
    let used := rd s cfgB CFG_STATUS_COPY_USED
    let flash := s.cfg.flash.map (fun f => if used = 0 then { f with copy1 := [] } else { f with copy0 := [] })
    let s := { s with cfg := { s.cfg with flash := flash, committing := none, cut := true }, obj := { s.obj with commitCmd := none } }
    wr cfgB (if used = 0 then CFG_COPY1_SEQ else CFG_COPY0_SEQ) 0xFFFFFFFF (wr cfgB CFG_STATUS_STATE 4 s)

/-- The exercise's stand at a reset of another block is unchanged; a block's fault set keeps its fault states (R398). -/
def aliveStopSet (v : Bool) (s : State) : State :=
  setF rstB RST_GRAVE_ALIVE_STOPPED v { s with rst := { s.rst with aliveStop := v } }

/-- Assert a warm reset (R364, R368). -/
def assertWarm (s : State) : State :=
  let s := thaw 0 (cutCommit s)
  let s := forEach (List.range 48) (fun a s => tuneAbort a 3 s) s
  let s := resetActs s
  let s := undoCommits (dropHosts s)
  let s := rsvUnmap (resetEngines (dropBlockResets s))
  let s := if service s = 1 ∨ service s = 2 then setService 3 s else s
  let s := keepRegs (fun k => warmKeep k && !relockField k) s
  let s := { s with loops := s.loops.filter (fun e => decide (48 ≤ e.1)) }
  let s := { s with obj := { s.obj with imports := [], exports := [], image := none, fwBuf := [], locks := [], waiting := [], unadmitted := [], paceCells := 0, flushes := [], activating := none } }
  let kept (a : Nat) := decide (a = 0x10020 ∨ a = 0x30028 ∨ a = 0x3002C ∨ a = 0x30030 ∨ a = 0x160014)
  let s := { s with copies := s.copies.filter (fun e => kept (e.1 % 2 ^ 40 / 256)) }
  let s := syncLanes (wr cfgB CFG_STATUS_STATE 0 s)
  let s := { s with fab := { s.fab with seen := false } }
  let s := { s with rst := { s.rst with wdogArmed := false } }
  syncSluice (wr rsvB RSV_STATUS_READY 0 s)

/-- R136: what a cold reset leaves of a loaded actuator: the VCM's drive until its retract has parked the heads, then high impedance. -/
def coldAct (x : Act) : Act :=
  { act0 with retractWait := x.retractWait, resetHold := true, coldCut := true, vcm := x.vcm, vcmMax := x.vcmMax, retractAt := x.retractAt }

/-- Assert a cold reset without loss of power (R364, R368). -/
def assertCold (s : State) : State :=
  let s := thaw 0 (cutCommit s)
  let s := resetActs s
  let s := undoCommits (dropHosts s)
  let s := rsvUnmap (resetEngines (dropBlockResets s))
  let s := forEach (List.range 24) (fun n s => bridgeOff n s) s
  let s := dayFlush s
  let keepSv := (List.range 48).filter (fun a => loaded s a)
  let old := s
  let s := changeService 0 s
  let s := pairSet 0x8 (tget 0 s.pairs 0x1000C) s
  let chg := rd s idB GLB_SERVICE_CHANGED
  let s := keepRegs coldKeep s
  let s := wr idB GLB_SERVICE_CHANGED chg s
  let s := forEach keepSv (fun a s => wr (actBase a) SV_STATE_STATE (svState old a) s) s
  let s := { s with ports := [], sluice := sluiceState0, loops := [], copies := [], dec := decodeState0 }
  let s := { s with acts := s.acts.filterMap (fun e : Nat × Act => if e.2.resetHold then some (e.1, coldAct e.2) else none) }
  let s := { s with flt := { faultState0 with traps := s.flt.traps } }
  let s := { s with time := { s.time with srcs := [] } }
  let s := { s with stores := s.stores.filter (fun e => !decide ((e.1 % 0x20000 ≥ 0x6000 ∧ e.1 % 0x20000 < 0x8000) ∨ (e.1 % 0x20000 ≥ 0xB000 ∧ e.1 % 0x20000 < 0xC000))) }
  let s := { s with obj := { s.obj with imports := [], exports := [], image := none, fwBuf := [], locks := [], waiting := [], unadmitted := [], paceCells := 0, flushes := [], activating := none, ctrls := [] } }
  let s := { s with pairs := s.pairs.filter (fun e => decide (e.1 = 8 ∨ e.1 = 0x1000C ∨ e.1 = 0x190048 ∨ e.1 = 0x190050 ∨ (0x1E0000 ≤ e.1 ∧ e.1 < 0x1F0000))) }
  let s := { s with fab := { fabricState0 with seen := false } }
  let s := { s with bur := { s.bur with receiver := none, eventsWaiting := [], zone := [] } }
  let s := { s with pwr := { s.pwr with convTarget := 12, convLimit := 8 } }
  let s := { s with rst := { s.rst with wdogArmed := false, wdogRuns := 0, pllLost := [], blocks := [], held := [] } }
  let s := setF slB SLUICE_STATUS_HOLDUP_WAIT (!s.pwr.charged) s
  aliveStopSet false s

/-- Assert a halt (R364, R390): the registers of the blocks held in reset freeze at the values they held. -/
def assertHalt (s : State) : State :=
  let s := thaw 0 (cutCommit s)
  let frozen := s.regs
  let s := undoCommits (dropHosts (resetActs s))
  let s := resetEngines (dropBlockResets s)
  let s := { s with regs := frozen, loops := [] }
  let s := forEach (List.range 24) (fun n s => modPort n (fun p => { p with grant := 0, reserved := 0 }) s) s
  let s := setService 4 s
  let s := dayFlush s
  { s with rst := { s.rst with asserted := none } }

/-- R367: the kind in force (3 Halted, 5 the power-fail sequence) that absorbs or ignores a cause of a kind. -/
def resetBarred (k : ResetKind) (s : State) : Option Nat :=
  if service s = 4 then some 4
  else if s.pwr.failing && decide (k ≠ .halt) then some 5
  else match s.rst.asserted with
    | some k0 => if kindRank k ≤ kindRank k0 then some (kindRank k0) else none
    | none => none

/-- The reset of a kind takes hold. -/
def applyReset (k : ResetKind) (s : State) : State :=
  let s := { s with rst := { s.rst with asserted := some k } }
  match k with
  | .warm => assertWarm s
  | .cold => assertCold s
  | .halt => assertHalt s

/-- A module reset of a kind with its cause (R363, R367): absorbed, ignored, or counted and asserted. The passage of one low of RESET_N
to the cold reset counts once (R365). -/
def assertReset (k : ResetKind) (cause : Nat) (s : State) : State :=
  match resetBarred k s with
  | some f => ignoreReset cause f s
  | none =>
    let s := if cause = 3 then { s with rst := { s.rst with pinTaken := none } } else settlePin s
    applyReset k (countReset cause s)

/-! ### Power -/

/-- R49, R177: a power-fail sequence ends spin-ups and braking; every bridge rectifies the back-EMF into the motion supply. -/
def railSpindle (n : Nat) (s : State) : State :=
  let st := spState s n
  let up := s.sluice.active.any (fun e => decide (e.1 = n))
  let s := releaseGrant n (bridgeOff n s)
  if (2 ≤ st ∧ st ≤ 5) ∨ st = 9 ∨ (st = 6 ∧ up = true) then wr (portBase n) SP_STATUS_STATE 0 s else s

/-- Start the power-fail sequence (R49): host ports closed, gates closed at the end of the sector, retract on every loaded
actuator, no further Reservoir program but the map journal's commit, the newest DAYBOOK_SEQ committed with it (R412). -/
def powerFail (s : State) : State :=
  if s.pwr.failing then s
  else
    let s := settlePin (cutCommit s)
    let s := { s with pwr := { s.pwr with failing := true, gap := false } }
    let s := when (decide (s.obj.durable < s.obj.commit)) (fun s => { s with obj := { s.obj with unsafeDowns := s.obj.unsafeDowns + 1 } }) s
    let s := dropHosts s
    let s := forEach (List.range 48) (fun a s => retract a (setGates a (fun g => { g with power := true }) s)) s
    let s := forEach (List.range 24) railSpindle s
    journalRecord s

/-- The power-down (R50): the always-on domain is lost, PREFER apart; what the Reservoir, the media, the Assay tile, the flash
and the mirrors hold stays. -/
def powerDownOp (s : State) : State :=
  let pref := rd s pwrB PWR_CTL_PREFER
  let s := undoCommits (rsvUnmap (settlePin s))
  let keep (k : Nat) := decide (0x1E0000 ≤ keyAddr k ∧ keyAddr k < 0x1F0000) && !inFb (keyAddr k)
  let s := { keepRegs keep s with ports := [], acts := [], stores := [], sluice := sluiceState0, loops := [], dec := decodeState0 }
  let s := { s with copies := [], pool := poolState0, mov := moverState0, fab := fabricState0, flt := faultState0 }
  let s := { s with pairs := s.pairs.filter (fun e => decide (e.1 = 0x190048 ∨ e.1 = 0x190050 ∨ (0x1E0000 ≤ e.1 ∧ e.1 < 0x1F0000))) }
  let s := { s with time := { s.time with srcs := [] } }
  let s := { s with day := { s.day with sram := [], hold := [], pending := [] } }
  let s := { s with str := { s.str with jobs := [], running := [], fetches := [] } }
  let s := { s with obj := { s.obj with ctrls := [], locks := [], waiting := [], unadmitted := [], paceCells := 0, flushes := [], imports := [], exports := [], image := none, fwBuf := [] } }
  let s := { s with bur := { s.bur with receiver := none, eventsWaiting := [], thresholds := [], zone := [], trackK := none, mgmtAddr := [], collector := [] } }
  let s := { s with rst := { resetState0 with pinLow := s.rst.pinLow }, cfg := { s.cfg with flash := none, committing := none } }
  let s := { s with pwr := { powerState0 with powered := false } }
  wr pwrB PWR_CTL_PREFER pref s

end Sys2Proof.Machine
end

