-- ==== Sys2Proof/Machine/PathOps.lean ====
section
/-!
DEFINITION. Sys2Proof/Machine/PathOps.lean: how a register access arrives (R25-R27): the rights of each path, when an access acts,
and what a forbidden or out-of-range access does; the per-reader and per-writer copies of registers.
-/
namespace Sys2Proof.Machine
open Reg

/-- R25: a write that the rights of a path forbid. The loader's own writes are the image's (R356). -/
def forbidden (p : Path) (addr : Nat) : Bool :=
  match p with
  | .teller _ | .bursar => decide (0x1E0000 ≤ addr ∧ addr < 0x1F0000)
  | .window _ => decide (0x1E0000 ≤ addr ∧ addr < 0x1F0000) || inLedgerWindow addr
  | .mi => true
  | .loader => false

/-- A write acts: the core serves it, or the Bursar or the management link makes it while the core is held by a warm reset
(R364, R400). In a halt the Bursar is read-only (R364). -/
def accessLive (s : State) (p : Path) (_addr : Nat) : Bool :=
  s.pwr.powered && decide (s.rst.asserted ≠ some .cold) && decide (service s ≠ 4) &&
    (match p with
     | .bursar | .mi => true
     | _ => s.rst.asserted.isNone)

/-- The fault register set whose queue records an access at an address (R5): that of the block or instance that contains it, the
actuator's for its control store; an address in the movers' range but in no channel belongs to none and goes to the fabric's. -/
def recordFb (addr : Nat) : Nat :=
  if inControlStores addr then fbAct ((addr - 0x50000000) / 0x20000)
  else if 0x182000 ≤ addr ∧ addr < 0x190000 then 0x3FC00
  else match blockAt addr with
    | some l => l.fb
    | none => 0x3FC00

/-- The customer-open region of a control store (R197): microwords 6,144 to 8,191 and nano-words 384 to 511. -/
def openRegion (off : Nat) : Bool := decide ((0x6000 ≤ off ∧ off < 0x8000) ∨ (0xB000 ≤ off ∧ off < 0xC000))

/-- A forbidden write that a rule of its own records in the block's history queue: AS_WORK_GO (R183) and a store outside the customer-open
region (R198). -/
def blockRecords (addr : Nat) : Bool :=
  (decide (0x100000 ≤ addr ∧ addr < 0x130000) && decide (addr % 0x1000 = 0x660))
    || (inControlStores addr && !openRegion ((addr - 0x50000000) % 0x20000))

/-- R26: record a forbidden write in the fabric and stamp unit's history queue, or where its own rule says in the block's. -/
def recordForbidden (p : Path) (addr v : Nat) (s : State) : State :=
  if blockRecords addr then recordIgnored (recordFb addr) addr p s
  else hist 0x3FC00 { code := 2, path := pathCode p, detail := addr, hi := v } s

/-- R5: record an access to an address that no register occupies. -/
def recordUnoccupied (p : Path) (addr : Nat) (s : State) : State :=
  hist (recordFb addr) { code := 1, path := pathCode p, detail := addr } s

/-- A write on a path: R27, then R25 and R26, then the register's own effect where the access acts. -/
def byPath (p : Path) (addr v : Nat) (act : State → State) (s : State) : State :=
  if !addrOk addr then send (.busError p addr) s
  else if forbidden p addr then recordForbidden p addr v s
  else if accessLive s p addr then act s
  else s

/-- The outcome of a register-write row. -/
def runWrite (p : Path) (addr v : Nat) (act : State → State) (s : State) : Res State :=
  run .mgmt (byPath p addr v act) s

/-- The number of a reader or writer: Tellers 0-15, the Bursar 16, then the host ports' windows, the management link, the loader. -/
def pathIx : Path → Nat
  | .teller n => n.val
  | .bursar => 16
  | .window h => 17 + h.val
  | .mi => 21
  | .loader => 22

/-- A path's own copy of a register (R70, R183, R225, R274, R375). -/
def copyGet (s : State) (p : Path) (addr : Nat) : Nat := tget 0 s.copies (pathIx p * 2 ^ 40 + addr * 256)
def copySet (p : Path) (addr v : Nat) (s : State) : State :=
  { s with copies := tput 0 s.copies (pathIx p * 2 ^ 40 + addr * 256) (v % 2 ^ 32) }

/-- A read acts: as for a write, the frozen registers of a halt being readable (R364). -/
def readLive (s : State) (p : Path) : Bool :=
  s.pwr.powered && decide (s.rst.asserted ≠ some .cold) &&
    (match p with
     | .bursar | .mi => true
     | _ => decide (service s ≠ 4) && s.rst.asserted.isNone)

/-- R30: a read of a low half latches the high half into the next register, and answers the low half. An address outside the ranges or not
a multiple of 4 gives an error (R27). -/
def latchRead (p : Path) (addr : Nat) (s : State) : State :=
  if readLive s p && !addrOk addr then send (.busError p addr) s
  else if isPairLo addr && readLive s p then
    let v := pairLive s addr
    let s := match findReg (addr + 4) with
      | some (b, d) => match d.fields with
        | f :: _ => wr b f (v / 2 ^ 32) s
        | [] => s
      | none => s
    send (.value p addr (BitVec.ofNat 32 v)) s
  else s

/-- R70: the source ID under which a reader of STAMP_TAKE_LO takes a stamp. -/
def takeSource : Path → Option Nat
  | .teller n => some (srcTeller n.val)
  | .bursar => some srcBursar
  | _ => none

/-- R70: a read of STAMP_TAKE_LO. -/
def stampTake (p : Path) (s : State) : State :=
  if readLive s p then
    match takeSource p with
    | none => send (.value p 0x30028 0) s
    | some src =>
      let (t, s) := stamp src s
      let s := copySet p 0x30028 (t.time % 2 ^ 32) s
      let s := copySet p 0x3002C (t.time / 2 ^ 32) s
      let s := copySet p 0x30030 (t.src + t.seq * 65536) s
      send (.value p 0x30028 (BitVec.ofNat 32 t.time)) s
  else s

end Sys2Proof.Machine
end

