-- ==== Sys2Proof/Machine/Fabric.lean ====
section
/-!
DEFINITION. Sys2Proof/Machine/Fabric.lean: pace, the core-voltage governor, cuts and receive windows (R56-R61), and the reads of
the latching registers and of the stamp unit (R30, R70).
-/
namespace Sys2Proof.Machine
open Reg

def execStampTakeLoRead (p : Path) (s : State) : Res State := runIf true (stampTake p) s

/-- R56, R60: a new pace index. A fall below 256, the first reading after a reset among them, sets PACE_LOW and raises
early-warning 2 with its record of severity 5. -/
def paceOp (rings : List Nat) (s : State) : State :=
  let p := match rings with
    | [] => 0
    | r :: rs => rs.foldl min r
  let p := min 4095 p
  let below := decide (p < 256)
  let was := s.fab.seen && flag s fabB FAB_PACE_BELOW_FLOOR
  let s := wr fabB FAB_PACE_INDEX p s
  let s := setF fabB FAB_PACE_BELOW_FLOOR below s
  let s := { s with fab := { s.fab with seen := true, low := match s.fab.low with | some q => some (min q p) | none => some p } }
  when (below && !was) (fun s => earlyWarn 2 5 0 p (wr fabB FAB_PACE_PACE_LOW 1 s)) s

def execPaceUpdate (rings : List Nat) (s : State) : Res State := run .core (paceOp rings) s

/-- R58: the lowest pace index over the last 1 ms; without a new reading, the present index. -/
def govPace (s : State) : Nat := match s.fab.low with | some q => q | none => rd s fabB FAB_PACE_INDEX

/-- R58, R59: one evaluation of the governor. An evaluation takes place only while ENABLE is set. -/
def governorOp (measMv : Nat) (s : State) : State :=
  let s := wr fabB FAB_VCORE_MEAS_MV measMv s
  let target := rd s fabB FAB_GOV_CTL_TARGET
  let pace := govPace s
  let code := rd s fabB FAB_VCORE_CODE
  let s := { s with fab := { s.fab with low := none } }
  if flag s fabB FAB_GOV_CTL_ENABLE then
    let s := { s with fab := { s.fab with highRun := if target + 24 ≤ pace then min 100 (s.fab.highRun + 1) else 0 } }
    if pace < target ∧ code < rd s fabB FAB_GOV_CTL_VMAX then wr fabB FAB_VCORE_CODE (code + 1) s
    else if 100 ≤ s.fab.highRun ∧ rd s fabB FAB_GOV_CTL_VMIN < code then wr fabB FAB_VCORE_CODE (code - 1) s
    else s
  else wr fabB FAB_VCORE_CODE (rd s fabB FAB_VCORE_MANUAL_CODE) s

def execGovernorEvaluation (measMv : Nat) (s : State) : Res State := run .core (governorOp measMv) s

/-- R59: with ENABLE clear the core runs at MANUAL_CODE. -/
def syncManual (s : State) : State :=
  if flag s fabB FAB_GOV_CTL_ENABLE then s else wr fabB FAB_VCORE_CODE (rd s fabB FAB_VCORE_MANUAL_CODE) s

/-- R60: a write of FAB_GOV_CTL with VMIN above VMAX is ignored as a whole and recorded. Each is compared as it would be stored, 30 for
a value above 30 (DESIGN CHOICE, notes/assumptions/20.md). -/
def govCtlOp (p : Path) (v : Nat) (s : State) : State :=
  if min 30 (bitsOf v 24 5) < min 30 (bitsOf v 16 5) then recordIgnored 0x3FC00 0x30004 p s
  else syncManual (plainWrite 0x30004 v s)

def execFabGovCtlWrite (p : Path) (v : Word) (s : State) : Res State := runWrite p 0x30004 v.toNat (govCtlOp p v.toNat) s

/-- R61: a read stops at a sector boundary. -/
def readCutOp (a : Nat) (s : State) : State :=
  let s := incF fabB FAB_CUTS_READ_CUTS s
  modAct a (fun x => { x with run := match x.run with | some r => some { r with paused := true } | none => none }) s

def execReadCut (a : ActId) (s : State) : Res State := run .core (readCutOp a.val) s

/-- R61: the write gate closes at the end of the current sector. -/
def writeCutOp (a : Nat) (s : State) : State :=
  let s := incF fabB FAB_CUTS_WRITE_CUTS s
  modAct a (fun x => { x with writing := false, run := match x.run with | some r => some { r with wasCut := true } | none => none }) s

def execWriteCut (a : ActId) (s : State) : Res State := run .core (writeCutOp a.val) s

/-- R61: the advertised receive window shrinks. -/
def shrinkOp (h : Nat) (s : State) : State :=
  { s with fab := { s.fab with shrunk := if s.fab.shrunk.contains h then s.fab.shrunk else h :: s.fab.shrunk } }

def execReceiveWindowShrink (h : HostId) (s : State) : Res State := run .core (shrinkOp h.val) s

/-- R61: a frame is dropped and counted. -/
def rxDropOp (h : Nat) (s : State) : State := incF (hostBase h) HP_ERRS_RX_DROPS s

def execRxFrameDrop (h : HostId) (s : State) : Res State := run .core (rxDropOp h.val) s

end Sys2Proof.Machine
end

