-- ==== Sys2Proof/Machine/GeomOps.lean ====
section
/-!
DEFINITION. Sys2Proof/Machine/GeomOps.lean: zone tables (R126), band layouts and slots (R205, R206), the permitted speed window
(R161), the entries of the Reach Ledger (R214).
-/
namespace Sys2Proof.Machine
open Reg

/-! ### Zones -/

/-- R126: the zone of a track. -/
def zoneAt (track : Nat) : List (Nat × Nat) → Nat → Nat
  | [], i => i
  | [_], i => i
  | _ :: (st, b) :: t, i => if st ≤ track then zoneAt track ((st, b) :: t) (i + 1) else i

/-- R205: slots per track of a zone. -/
def slotsPerTrack (bpw : Nat) : Nat := 480 * bpw * 3776 / (4096 * 38240)

/-- R205: tracks of a band in a zone with `spt` slots per track. -/
def bandTracks (spt : Nat) : Nat := ceilDiv 1048576 spt

/-- R205: the first place at or after track `t` where a band fits, over the zones from that of `t` on: (start, slots per track,
tracks). A zone without slots is passed over, and a band that would reach the next zone moves into it. -/
def fitZone : List (Nat × Nat) → Nat → Option (Nat × Nat × Nat)
  | [], _ => none
  | [(_, bpw)], t =>
    let spt := slotsPerTrack bpw
    if spt = 0 then none
    else if t + bandTracks spt - 1 ≤ 1048575 then some (t, spt, bandTracks spt) else none
  | (_, bpw) :: (st, b) :: r, t =>
    let spt := slotsPerTrack bpw
    if spt = 0 ∨ st ≤ t + bandTracks spt - 1 then fitZone ((st, b) :: r) (max t st)
    else if t + bandTracks spt - 1 ≤ 1048575 then some (t, spt, bandTracks spt) else none

/-- R205: the start of band `n` after track `t`. -/
def bandAt (zs : List (Nat × Nat)) (guard : Nat) : Nat → Nat → Option (Nat × Nat × Nat)
  | 0, t => fitZone zs t
  | n + 1, t => match fitZone zs t with
    | none => none
    | some (st, _, nt) => bandAt zs guard n (st + nt + guard)

/-- R205: how many of `n` bands exist. -/
def bandCount (zs : List (Nat × Nat)) (guard : Nat) : Nat → Nat → Nat
  | 0, _ => 0
  | n + 1, t => match fitZone zs t with
    | none => 0
    | some (st, _, nt) => 1 + bandCount zs guard n (st + nt + guard)

/-- The surfaces of an actuator that are present, as head numbers (R82, R83). -/
def surfacesOf (s : State) (a : Nat) : List Nat :=
  let m := idSurfaces s (portOfAct a) / 2 ^ (12 * (a % 2)) % 4096
  (List.range 12).filter (fun h => bitOf m h)

/-- First track, guard and skew in force for a recomputed layout: a write of LEDGER_GEOM takes effect at the next zone-table
load, and until then a layout keeps its own. -/
def geomOf (load : Bool) (s : State) (a : Nat) : Nat × Nat × Nat :=
  match tfind s.led.layouts a, load with
  | some l, false => (l.first, l.guard, l.skew)
  | _, _ => (rd s ledB LEDGER_GEOM_FIRST_TRACK, rd s ledB LEDGER_GEOM_GUARD, rd s ledB LEDGER_GEOM_SKEW)

/-- R205: the layout of an actuator from its zone table, its identity record and LEDGER_GEOM. -/
def computeLayout (load : Bool) (s : State) (a : Nat) : Layout :=
  let zs := zonesOf s a
  let (first, guard, skew) := geomOf load s a
  let heads := surfacesOf s a
  let n := idReaches s a
  let h := heads.length
  let bands := if h = 0 then 0 else bandCount zs guard (ceilDiv n h) first
  ⟨zs, first, guard, skew, heads, min n (bands * h)⟩

def layoutOf (s : State) (a : Nat) : Layout := tget layout0 s.led.layouts a

/-- R205, R206: head, first track, slots per track and tracks of a reach. -/
def reachPlace (l : Layout) (r : Nat) : Option (Nat × Nat × Nat × Nat) :=
  if r < l.reaches then
    match bandAt l.zones l.guard (r / l.surfaces.length) l.first with
    | some (st, spt, nt) => some (l.surfaces.getD (r % l.surfaces.length) 0, st, spt, nt)
    | none => none
  else none

/-- R206: head, track and slot position of a slot. -/
def slotPlace (l : Layout) (r p : Nat) : Option (Nat × Nat × Nat) :=
  match reachPlace l r with
  | none => none
  | some (h, st, spt, _) => some (h, st + p / spt, (p % spt + p / spt * l.skew) % spt)

/-- R205: the band that holds a track, over at most `n` bands from track `t` on: its number, start and slots per track. -/
def bandOf (zs : List (Nat × Nat)) (guard track : Nat) : Nat → Nat → Nat → Option (Nat × Nat × Nat)
  | 0, _, _ => none
  | n + 1, t, b => match fitZone zs t with
    | none => none
    | some (st, spt, nt) =>
      if track < st then none
      else if track < st + nt then some (b, st, spt)
      else bandOf zs guard track n (st + nt + guard) (b + 1)

/-- R205, R206: the reach and the slot that begin at or last before an angle (a wedge of 480) on a track under a head. -/
def slotAt (l : Layout) (head track wedge : Nat) : Option (Nat × Nat) :=
  match bandOf l.zones l.guard track (ceilDiv l.reaches (max 1 l.surfaces.length)) l.first 0, l.surfaces.idxOf? head with
  | some (b, st, spt), some k =>
    let row := track - st
    let col := (wedge * spt / 480 + spt - row * l.skew % spt) % spt
    let r := b * l.surfaces.length + k
    if r < l.reaches ∧ row * spt + col < 1048576 then some (r, row * spt + col) else none
  | _, _ => none

/-- One revolution of an actuator's spindle at its target speed, in ticks. -/
def revTicks (s : State) (a : Nat) : Nat := ceilDiv (60 * 2 ^ 24) (max 1 (rd s (portBase (portOfAct a)) SP_SPEED_TARGET))

/-- R234: how long after a run's beginning, at the angle `r.angle`, a slot of its reach first passes under the head; 0 where the layout does
not hold the reach. -/
def firstPass (s : State) (a : Nat) (r : SecRun) (slot : Nat) : Nat :=
  let l := layoutOf s a
  match reachPlace l r.reach, slotPlace l r.reach slot with
  | some (_, _, spt, _), some (_, _, pos) => ceilDiv ((pos * 480 + (480 - r.angle % 480) * spt) % (480 * spt) * revTicks s a) (480 * spt)
  | _, _ => 0

/-- R193, R234: the deadline D of a slot of a run, from its first pass under the head on the run's first revolution. -/
def readDeadline (s : State) (a : Nat) (r : SecRun) (slot : Nat) : Nat := r.began + firstPass s a r slot + r.deadline

/-- R187: the cursor stands at a sector of a reach: AS_CURSOR shows the sector, its head and its track. -/
def showCursor (a reach sector : Nat) (s : State) : State :=
  let b := actBase a
  let s := wr b AS_CURSOR_SECTOR sector (modAct a (fun x => { x with curReach := reach }) s)
  match slotPlace (layoutOf s a) reach sector with
  | some (h, t, _) => wr b AS_CURSOR_HEAD h (wr b AS_CURSOR_TRACK_TRACK t s)
  | none => s

/-- R205: recompute an actuator's layout; entries of reaches that do not exist read Retired with ABSENT. -/
def layoutRecompute (load : Bool) (a : Nat) (s : State) : State :=
  let l := computeLayout load s a
  let s := { s with led := { s.led with layouts := tins s.led.layouts a l } }
  let gone := s.led.entries.filter (fun e => decide (e.1 / 10240 = a) && decide (l.reaches ≤ e.1 % 10240))
  forEach gone (fun e s => setEntry a (e.1 % 10240) ledEntry0 s) s

/-! ### The speed window (R161) -/

/-- The smallest and the largest non-zero rate of a list of zones. -/
def rateBounds : List (Nat × Nat) → Option (Nat × Nat)
  | [] => none
  | (_, b) :: t =>
    if b = 0 then rateBounds t
    else match rateBounds t with
      | none => some (b, b)
      | some (lo, hi) => some (min lo b, max hi b)

/-- R161: the window of a port. An empty one reads with n_lo above n_hi. -/
def speedWindow (s : State) (n : Nat) : Nat × Nat :=
  match rateBounds (zonesOf s (actU n) ++ zonesOf s (actL n)) with
  | none => (idRpmMin s n, 0)
  | some (lo, hi) => (max (idRpmMin s n) (ceilDiv 150000000 lo), min (idRpmMax s n) (700000000 / hi))

/-- Set a spindle's target (R161, R178). A lower one, or one of a spindle without a reservation, is in force at once; a rise of a
spindle with a reservation queues for the Sluice. -/
def setTarget (n t : Nat) (s : State) : State :=
  let b := portBase n
  if (portOf s n).reserved = 0 ∨ t ≤ rd s b SP_SPEED_TARGET then
    let old := rd s b SP_SPEED_TARGET
    let s := wr b SP_SPEED_TARGET t s
    let s := modPort n (fun p => { p with flyRef := if p.flyRef = 0 then 0 else min p.flyRef (min old t) }) s
    let q (l : List Nat) := l.filter (fun m => decide (m ≠ n))
    if 6 ≤ spState s n ∧ spState s n ≤ 7 then
      syncSluice { s with sluice := { s.sluice with queue := q s.sluice.queue, fresh := q s.sluice.fresh } }
    else s
  else if (s.sluice.queue ++ s.sluice.fresh).contains n then s
  else syncSluice { s with sluice := { s.sluice with fresh := s.sluice.fresh ++ [n] } }

/-- The target that SET gives within the window. -/
def wantedTarget (s : State) (n : Nat) : Nat :=
  let b := portBase n
  match (portOf s n).window with
  | some (lo, hi) => if hi < lo then rd s b SP_SPEED_SET else clampTo lo hi (rd s b SP_SPEED_SET)
  | none => rd s b SP_SPEED_SET

/-- R161: compute the window and bring the target into it. -/
def windowCompute (n : Nat) (s : State) : State :=
  let b := portBase n
  let (lo, hi) := speedWindow s n
  let s := modPort n (fun p => { p with window := some (lo, hi) }) s
  let s := wr b SP_LIMITS_N_LO (fitNat 13 lo) (wr b SP_LIMITS_N_HI (fitNat 13 hi) s)
  if windowEmpty s n then s
  else
    let t := wantedTarget s n
    let s := when (decide (t ≠ rd s b SP_SPEED_SET)) (wr b SP_STATUS_SET_REFUSED 1) s
    if t = rd s b SP_SPEED_TARGET then s else setTarget n t s

/-- R126, R161, R205: a zone table of an actuator was loaded (`load`) or written. -/
def zonesChanged (load : Bool) (a : Nat) (s : State) : State := windowCompute (portOfAct a) (layoutRecompute load a s)

end Sys2Proof.Machine
end

