-- ==== Sys2Proof/Machine/Power.lean ====
section
/-!
DEFINITION. Sys2Proof/Machine/Power.lean: the feeds, the converters, the switch-over, the hold-up store and the feed exercise
(R40-R53), the power-down (R50).
-/
namespace Sys2Proof.Machine
open Reg

/-- A feed's number: 0 Feed A, 1 Feed B. -/
def feedIx : Feed → Nat
  | .a => 0 | .b => 1

def otherFeed : Feed → Feed
  | .a => .b | .b => .a

def goodField : Feed → Field
  | .a => PWR_STATUS_FEEDA_GOOD | .b => PWR_STATUS_FEEDB_GOOD
def failedField : Feed → Field
  | .a => PWR_STATUS_CONVA_FAILED | .b => PWR_STATUS_CONVB_FAILED

def feedGood (s : State) (f : Feed) : Bool := flag s pwrB (goodField f)
def convFailed (s : State) (f : Feed) : Bool := flag s pwrB (failedField f)
/-- The active feed (PWR_STATUS.ACTIVE). -/
def activeFeed (s : State) : Feed := if flag s pwrB PWR_STATUS_ACTIVE then .b else .a
def standbyFeed (s : State) : Feed := otherFeed (activeFeed s)

def feedOf (s : State) : Feed → FeedState
  | .a => s.pwr.feedA | .b => s.pwr.feedB
def modFeed (f : Feed) (g : FeedState → FeedState) (s : State) : State :=
  match f with
  | .a => { s with pwr := { s.pwr with feedA := g s.pwr.feedA } }
  | .b => { s with pwr := { s.pwr with feedB := g s.pwr.feedB } }

/-- R44, R47: a switch-over is possible while the standby's feed is good and its converter is not marked. -/
def syncStandby (s : State) : State :=
  setF pwrB PWR_STATUS_STANDBY_READY (feedGood s (standbyFeed s) && !convFailed s (standbyFeed s)) s

/-- A feed event's Daybook record (R409, 0x0210). -/
def feedRecord (s : State) : State :=
  dayEvent srcReset 0x210 4 (regValue s 0x20000) (regValue s 0x20020) 0 0 s

/-- Mark a converter failed (R44): early-warning 0. -/
def markFailed (f : Feed) (s : State) : State :=
  let s := setF pwrB (failedField f) true s
  let s := modFeed f (fun x => { x with cycled := false, cleanSince := none }) s
  earlyWarn 0 4 (feedIx f) 1 (syncStandby s)

/-- The end of an exercise window (R53). -/
def endExercise (s : State) : State := setF pwrB PWR_STATUS_EXERCISE_ON false s

/-- A switch-over to the standby (R45, R46): the gap begins. `bus` marks the one that an undervoltage started (R44). -/
def switchOver (bus : Bool) (s : State) : State :=
  let f := standbyFeed s
  let s := setF pwrB PWR_STATUS_ACTIVE (decide (f = .b)) s
  let s := wr pwrB PWR_STATUS_SWAPPED 1 s
  let s := incF pwrB PWR_SWAP_COUNT_SWAPS s
  let s := pairSet 0x2002C (now s) s
  let s := { s with pwr := { s.pwr with gap := true, gapForced := bus, lastSwap := some (now s) } }
  let s := modFeed f (fun x => { x with cleanSince := none }) s
  let s := modFeed (otherFeed f) (fun x => { x with cleanSince := if feedGood s (otherFeed f) then some (now s) else none }) s
  feedRecord (syncStandby s)

/-- R41, R42: a feed becomes good. -/
def feedGoodOp (f : Feed) (s : State) : State :=
  if feedGood s f then s
  else
    let s := setF pwrB (goodField f) true s
    let t := now s
    let s := modFeed f (fun x =>
      let off := match x.badSince with | some b => decide (b + secs 1 ≤ t) | none => false
      { x with goodSince := some t, badSince := none, cycled := x.cycled || off, cleanSince := some t }) s
    syncStandby s

def execFeedGood (f : Feed) (s : State) : Res State := run .always (feedGoodOp f) s

/-- R41, R45, R49, R53: a feed becomes not good. -/
def feedBadOp (f : Feed) (s : State) : State :=
  if !feedGood s f then s
  else
    let active := activeFeed s
    let ready := flag s pwrB PWR_STATUS_STANDBY_READY
    let s := setF pwrB (goodField f) false s
    let s := modFeed f (fun x => { x with badSince := some (now s), goodSince := none, cleanSince := none }) s
    let s := earlyWarn 0 4 (feedIx f) 0 (syncStandby s)
    if s.pwr.failing then s
    else if f = active then
      let s := endExercise s
      if ready then switchOver false s else powerFail s
    else endExercise s

def execFeedNotGood (f : Feed) (s : State) : Res State := run .always (feedBadOp f) s

/-- The bus target in mV (PWR_IB_SET: 11.40 V + TARGET × 0.05 V), as both converters hold it (R43). -/
def busTarget (s : State) : Nat := 11400 + 50 * s.pwr.convTarget

/-- R44: an output lies in its window, the target ±5 %, both ends included. -/
def inBusWindow (s : State) (mv : Nat) : Bool := decide (busTarget s * 95 ≤ mv * 100 ∧ mv * 100 ≤ busTarget s * 105)

/-- R44: two outputs differ by more than 2 % of the target. -/
def busDiffer (s : State) (a b : Nat) : Bool := decide (busTarget s * 2 < (max a b - min a b) * 100)

/-- R44's table, for outputs (in mV) that have stood for 200 µs. Only a converter whose feed is good is compared or marked. A row other
than the first is a condition, which starts the standby's clean time afresh (R47). The exercised feed's converter failing in the window
ends the exercise, switch-over or not (R53). -/
def converterOp (activeMv standbyMv : Nat) (s : State) : State :=
  let act := activeFeed s
  let stby := standbyFeed s
  let sGood := feedGood s stby
  let activeIn := inBusWindow s activeMv
  let standbyIn := inBusWindow s standbyMv
  let differ := busDiffer s activeMv standbyMv
  if s.pwr.failing || !feedGood s act then s
  else
    let normal := activeIn && sGood && standbyIn && !differ
    let s := when (!normal) (modFeed stby (fun x => { x with cleanSince := if sGood then some (now s) else none })) s
    if activeIn then
      if sGood then
        if standbyIn then
          if differ then feedRecord (wr pwrB PWR_STATUS_MISMATCH 1 s) else s
        else markFailed stby (endExercise s)
      else s
    else if sGood && standbyIn then
      if flag s pwrB PWR_STATUS_STANDBY_READY then markFailed act (switchOver false (endExercise s))
      else powerFail (markFailed act s)
    else if sGood then markFailed stby (markFailed act (endExercise s))
    else markFailed act (endExercise s)

def execConverterConditionHeld (activeMv standbyMv : Nat) (s : State) : Res State :=
  run .always (converterOp activeMv standbyMv) s

/-- R44: 10.8 V, below which the bus is too low. -/
def busLow (mv : Nat) : Bool := decide (mv < 10800)

/-- R44, R49: the bus falls below 10.8 V. -/
def undervoltageOp (busMv standbyMv : Nat) (s : State) : State :=
  if s.pwr.failing || !busLow busMv then s
  else if inBusWindow s standbyMv && flag s pwrB PWR_STATUS_STANDBY_READY then
    let act := activeFeed s
    markFailed act (switchOver true (endExercise s))
  else powerFail s

def execBusUndervoltage (busMv standbyMv : Nat) (s : State) : Res State := run .always (undervoltageOp busMv standbyMv) s

/-- R46, R43, R49: the new converter carries the bus, all phases on for 10 ms. -/
def gapEndOp (busMv : Nat) (s : State) : State :=
  if s.pwr.gap then
    let forced := s.pwr.gapForced
    let s := { s with pwr := { s.pwr with gap := false, gapForced := false, allPhasesUntil := now s + msecs 10 } }
    when (busLow busMv && forced) powerFail s
  else s

def execSwitchOverGapEnd (busMv : Nat) (s : State) : Res State := run .always (gapEndOp busMv) s

/-- R43, PWR_TUNE: a converter sheds phases at light load where its own field says so, but not in the first 10 ms in which it carries
the bus. -/
def shedsPhases (s : State) (f : Feed) : Bool :=
  flag s pwrB (match f with | .a => PWR_TUNE_LIGHT_LOAD_A | .b => PWR_TUNE_LIGHT_LOAD_B)
    && !(decide (activeFeed s = f) && (s.pwr.gap || decide (now s < s.pwr.allPhasesUntil)))

/-- PWR_HOLDUP.EST_HOLD in 0.1 ms: the energy that the store releases between 57 V and 36 V (½ C (57² − 36²)) over the load in mW. How
the estimate is rounded is open: whole units, rounded down (notes/assumptions/19.md). -/
def holdEstimate (capUf loadMw : Nat) : Nat := if loadMw = 0 then 0xFFFF else min 0xFFFF (capUf * 1953 * 10 / (2 * loadMw))

/-- The feed and bus monitors take new readings (every 1 ms), and the hold-up estimate follows. -/
def monitorTake (m : Monitors) (s : State) : State :=
  let s := wr pwrB PWR_FEEDA_MON_CURR_MA m.aMa (wr pwrB PWR_FEEDA_MON_VOLT_MV m.aMv s)
  let s := wr pwrB PWR_FEEDB_MON_CURR_MA m.bMa (wr pwrB PWR_FEEDB_MON_VOLT_MV m.bMv s)
  let s := wr pwrB PWR_IB_MON_STANDBY_MV m.standbyMv (wr pwrB PWR_IB_MON_ACTIVE_MV m.busMv s)
  wr pwrB PWR_HOLDUP_EST_HOLD (holdEstimate (rd s pwrB PWR_HOLDUP_CAP_UF) ((m.aMv * m.aMa + m.bMv * m.bMa) / 1000)) s

/-- R45, R53: FORCE_SWAP written. -/
def forceSwapOp (s : State) : State :=
  if flag s pwrB PWR_STATUS_STANDBY_READY && !s.pwr.failing then switchOver false (endExercise s)
  else wr pwrB PWR_STATUS_FORCE_REFUSED 1 s

def execForceSwap (p : Path) (s : State) : Res State := runWrite p 0x20004 2 forceSwapOp s

/-- R43: both converters take the two mirrored set-points. -/
def ibSetOp (v : Nat) (s : State) : State :=
  let s := plainWrite 0x20008 v s
  { s with pwr := { s.pwr with convTarget := rd s pwrB PWR_IB_SET_TARGET, convLimit := rd s pwrB PWR_IB_SET_ILIMIT } }

def execPwrIbSetWrite (p : Path) (v : Word) (s : State) : Res State := runWrite p 0x20008 v.toNat (ibSetOp v.toNat) s

/-- R50: the power-fail sequence ends in power-down. -/
def downOp (s : State) : State := if s.pwr.failing then powerDownOp s else s

def execPowerDown (s : State) : Res State := runIf s.pwr.powered downOp s

/-- R47: a mark clears once its feed has been off for 1 s and good again, and its converter clean for 10 s as standby. The
exercise's schedule starts again from there (R52). -/
def markClearOp (f : Feed) (s : State) : State :=
  match (feedOf s f).cleanSince with
  | none => s
  | some t =>
    if convFailed s f && (feedOf s f).cycled && feedGood s f && decide (standbyFeed s = f) then
      let s := reach (t + secs 10) s
      let s := setF pwrB (failedField f) false s
      let s := modFeed f (fun x => { x with cycled := false }) s
      syncStandby { s with pwr := { s.pwr with exerBase := max s.pwr.exerBase (now s), exerHalted := false } }
    else s

def execFailedMarkClear (f : Feed) (s : State) : Res State := run .always (markClearOp f) s

/-- R48, R51: the store is charged; at a power-on its capacitance has been measured. -/
def chargedOp (cap : Option Nat) (s : State) : State :=
  let s := { s with pwr := { s.pwr with charged := true } }
  let s := syncSluice s
  match cap with
  | none => s
  | some c =>
    let s := wr pwrB PWR_HOLDUP_CAP_UF c s
    let low := decide (c < 5200)
    let s := setF pwrB PWR_STATUS_HOLDUP_LOW low s
    when low (fun s => critWarn 4 0 (earlyWarn 1 4 0 c s)) s

def execHoldupCharged (capUf : Option Nat) (s : State) : Res State := run .always (chargedOp capUf) s

/-! ### The feed exercise (R52, R53) -/

/-- When the exercise falls due. -/
def exerDueAt (s : State) : Nat := s.pwr.exerBase + secs (rd s pwrB PWR_EXERCISE_PERIOD_DAYS * 86400)

/-- A situation of R53 that defers: the service state, a spin-up in progress, a switch-over in the last 600 s. -/
def exerDefer (s : State) : Bool :=
  decide (service s = 0 ∨ service s = 3 ∨ service s = 4) || !s.sluice.active.isEmpty
    || (match s.pwr.lastSwap with | some t => decide (now s < t + secs 600) | none => false)

/-- The exercise starts: a switch-over and the window. -/
def exerStart (s : State) : State :=
  let home := activeFeed s
  let t := now s
  let s := setF pwrB PWR_STATUS_EXERCISE_ON true s
  let s := { s with pwr := { s.pwr with exerBase := t, exerEnd := t + secs (rd s pwrB PWR_EXERCISE_DURATION_S), exerHome := home, deferFrom := none } }
  switchOver false s

/-- Run, halt or defer the exercise at a due instant. Where STANDBY_READY is clear and a situation that defers holds too, the schedule
halts; a schedule that halted because the standby's feed is not good, with no converter marked, stays halted until a mark clears or the
module powers down (both DESIGN CHOICE, notes/assumptions/19.md). -/
def exerTry (s : State) : State :=
  if !flag s pwrB PWR_STATUS_STANDBY_READY then
    { s with pwr := { s.pwr with exerHalted := true, deferFrom := none } }
  else if exerDefer s then
    { s with pwr := { s.pwr with deferFrom := some (match s.pwr.deferFrom with | some t => t | none => now s) } }
  else exerStart s

/-- R52: the exercise falls due. -/
def exerDueOp (s : State) : State :=
  if flag s pwrB PWR_EXERCISE_ENABLE && !s.pwr.exerHalted && s.pwr.deferFrom.isNone && !s.pwr.failing
      && !flag s pwrB PWR_STATUS_EXERCISE_ON then
    exerTry (reach (exerDueAt s) s)
  else s

def execFeedExerciseDue (s : State) : Res State := run .always exerDueOp s

/-- R52, R53: the window ends, with a switch-over back. -/
def exerEndOp (s : State) : State :=
  if flag s pwrB PWR_STATUS_EXERCISE_ON && !s.pwr.failing then
    let s := reach s.pwr.exerEnd s
    let s := endExercise s
    let s := incF pwrB PWR_SWAP_COUNT_EXERCISES s
    if flag s pwrB PWR_STATUS_STANDBY_READY && decide (activeFeed s ≠ s.pwr.exerHome) then switchOver false s else s
  else s

def execExerciseWindowEnd (s : State) : Res State := run .always exerEndOp s

/-- R53: a deferred exercise is retried 60 s on; after 3,600 s it is missed, and the next falls due one period later. With ENABLE clear
no exercise is due (R52), so the deferral ends. -/
def exerRetryOp (s : State) : State :=
  match s.pwr.deferFrom with
  | none => s
  | some t =>
    let s := pass (secs 60) s
    if !flag s pwrB PWR_EXERCISE_ENABLE then { s with pwr := { s.pwr with deferFrom := none } } else
    if t + secs 3600 ≤ now s then
      let s := { s with pwr := { s.pwr with deferFrom := none, exerBase := t } }
      feedRecord (wr pwrB PWR_STATUS_EXERCISE_MISSED 1 s)
    else exerTry s

def execExerciseRetry (s : State) : Res State := run .always exerRetryOp s

end Sys2Proof.Machine
end

