-- ==== Sys2Proof/Machine/WriteOps.lean ====
section
/-!
DEFINITION. Sys2Proof/Machine/WriteOps.lean: the writes that a rule ignores as a whole (R60, R132, R163, R226, R392), and the
fields that follow the enables (R112, R232).
-/
namespace Sys2Proof.Machine
open Reg

/-- R132: WR_LIMIT is not greater than SETTLE_WR. -/
def settleBad (v : Nat) : Bool := decide (bitsOf v 24 8 ≤ bitsOf v 8 8)

/-- R163: BLANK ≥ 32 + ADVANCE − ZC_WIN, on the stored values. -/
def commBad (v : Nat) : Bool :=
  decide (32 + clampTo 0 16 (bitsOf v 0 5) ≤ clampTo 2 24 (bitsOf v 16 5) + clampTo 4 24 (bitsOf v 8 5))

/-- R226: a class's geometry is valid. -/
def geometryOk (k m wmin hdas : Nat) : Bool :=
  decide (1 ≤ k ∧ k ≤ 22) && decide (2 ≤ m ∧ m ≤ 6) && decide (k + m ≤ 24) && decide (wmin ≤ m)
    && decide (k + m ≤ popCount 24 hdas)

/-- R226: a class is valid. -/
def classValid (s : State) (q : Nat) : Bool :=
  flag s srB (SR_CLASS_0_VALID.ix q)
    && geometryOk (rd s srB (SR_CLASS_0_K.ix q)) (rd s srB (SR_CLASS_0_M.ix q)) (rd s srB (SR_CLASS_0_WMIN.ix q))
        (rd s srB (SR_CLASS_4_HDAS.ix q))

/-- R226: a write of a class's first word that sets VALID with an invalid geometry. -/
def classBad (s : State) (q v : Nat) : Bool :=
  bitOf v 31 && !geometryOk (bitsOf v 0 5) (bitsOf v 8 3) (bitsOf v 12 3) (rd s srB (SR_CLASS_4_HDAS.ix q))

/-- R391, R392: a reaction that a block's row does not let software select. -/
def reactBad (fb v : Nat) : Bool :=
  let irq := bitOf v 0
  let trap := bitOf v 1
  let action := bitsOf v 2 3
  let alive := bitOf v 5
  if decide (0x80000 ≤ fb ∧ fb < 0x98000) || decide (0x100000 ≤ fb ∧ fb < 0x130000) || decide (fb = 0x14FC00 ∨ fb = 0x15FC00 ∨ fb = 0x18FC00)
      || decide (0x1A0000 ≤ fb ∧ fb < 0x1B0000) then decide (2 < action)
  else if fb = 0x19FC00 then decide (1 < action) || alive
  else if fb = 0x1BFC00 then !decide (action = 2 ∨ action = 3) || alive || irq
  else if fb = 0x1DFC00 then !trap || decide (action = 1 ∨ 3 < action) || alive || irq
  else decide (0 < action) || alive

/-- A write that a rule ignores as a whole. -/
def wholeIgnored (s : State) (addr v : Nat) : Bool :=
  let o := addr % 0x1000
  if addr = 0x30004 then decide (min 30 (bitsOf v 24 5) < min 30 (bitsOf v 16 5))
  else if 0x100000 ≤ addr ∧ addr < 0x130000 ∧ o = 0x124 then settleBad v
  else if 0x80000 ≤ addr ∧ addr < 0x98000 ∧ o = 0x620 then commBad v
  else if addr = 0x150010 ∨ addr = 0x150018 ∨ addr = 0x150020 ∨ addr = 0x150028 then classBad s ((addr - 0x150010) / 8) v
  else if isFb (addr - addr % 0x400) ∧ addr % 0x400 = 0xC then reactBad (addr - addr % 0x400) v
  else false

/-- DP_CTL's dependent limits: DEEP_ITER from FIRST_ITER, DEEP_FLOOR to DEEP_LANES. -/
def dpNormalize (addr : Nat) (s : State) : State :=
  if addr = 0x140000 then
    let s := wr dpB DP_CTL_DEEP_ITER (max (rd s dpB DP_CTL_FIRST_ITER) (rd s dpB DP_CTL_DEEP_ITER)) s
    wr dpB DP_CTL_DEEP_FLOOR (min (rd s dpB DP_CTL_DEEP_LANES) (rd s dpB DP_CTL_DEEP_FLOOR)) s
  else s

/-- A value write under those rules. FLT_REACT of a block whose source is dual-rail is read-only (R392). -/
def checkedWrite (p : Path) (addr v : Nat) (s : State) : State :=
  if dualRail (addr - addr % 0x400) ∧ addr % 0x400 = 0xC then s
  else if wholeIgnored s addr v then
    let s := recordIgnored (recordFb addr) addr p s
    when (decide (isFb (addr - addr % 0x400) ∧ addr % 0x400 = 0xC)) (wr (addr - addr % 0x400) FLT_STATUS_REACT_REFUSED 1) s
  else dpNormalize addr (plainWrite addr v s)

end Sys2Proof.Machine
end

