-- ==== Sys2Proof/Machine/ConfigOps.lean ====
section
/-!
DEFINITION. Sys2Proof/Machine/ConfigOps.lean: the configuration image: its checks (R354-R356, R407), the choice of a copy (R357),
the choice of a firmware package (R421), and what the loader applies at a cold start, at the end of a warm reset and at a
block reset (R370, R371, R373, R375).
-/
namespace Sys2Proof.Machine
open Reg

/-! ### The image (R354, R355) -/

structure Section where
  ty : Nat
  inst : Nat
  off : Nat
  size : Nat
  deriving DecidableEq, Repr

def imgSeq (img : List Byte) : Nat := leAt img 8 4
def imgLength (img : List Byte) : Nat := leAt img 0x0C 4

/-- R357: MAGIC, FORMAT, PART and LENGTH as R354 requires, and SEQUENCE not 0xFFFF_FFFF. -/
def imgCandidate (img : List Byte) : Bool :=
  decide (leAt img 0 4 = 0x46434D4C) && decide (leAt img 4 2 = 2) && decide (leAt img 0x14 2 = 0x2448)
    && decide (0x1000 ≤ imgLength img ∧ imgLength img ≤ 0x1000000 ∧ imgLength img % 4 = 0) && decide (imgSeq img ≠ 0xFFFFFFFF)

/-- The bytes of the image: LENGTH bytes, erased flash reading 0xFF. -/
def imgBytes (img : List Byte) : List Byte :=
  img.take (imgLength img) ++ List.replicate (imgLength img - img.length) (BitVec.ofNat 8 0xFF)

/-- R354: CRC over the image with its CRC field read as 0. -/
def imgCrc (img : List Byte) : Nat :=
  let b := imgBytes img
  crc32c (b.take 0x10 ++ List.replicate 4 0 ++ b.drop 0x14)

def sectionsFrom (img : List Byte) : Nat → Nat → List Section
  | 0, _ => []
  | n + 1, o => ⟨leAt img o 2, leAt img (o + 2) 2, leAt img (o + 4) 4, leAt img (o + 8) 4⟩ :: sectionsFrom img n (o + 16)

/-- R355: the table of contents. -/
def imgSections (img : List Byte) : List Section := sectionsFrom img (leAt img 6 2) 0x40

/-- A section of a type and an instance. -/
def findSection (img : List Byte) (ty inst : Nat) : Option Section :=
  (imgSections img).find? (fun x => decide (x.ty = ty) && decide (x.inst = inst))

def pairsFrom (img : List Byte) : Nat → Nat → List (Nat × Nat)
  | 0, _ => []
  | n + 1, o => (leAt img o 4, leAt img (o + 4) 4) :: pairsFrom img n (o + 8)

/-- The bits of a register's RW and RWS fields. -/
def rwMask : List Field → Nat
  | [] => 0
  | f :: fs => (match f.ty with | .rw | .rws => (2 ^ f.len - 1) * 2 ^ f.lo | _ => 0) + rwMask fs

/-- R356: zeros in all bits outside RW and RWS fields. -/
def valueOk (addr v : Nat) : Bool :=
  match findReg addr with
  | none => decide (v = 0)
  | some (_, d) => decide (v &&& (0xFFFFFFFF ^^^ rwMask d.fields) = 0)

/-- R356: a pair of a register load. -/
def loadPairOk (p : Nat × Nat) : Bool :=
  addrOk p.1 && decide (p.1 < 0x1E0000) && !decide (0x10000 ≤ p.1 ∧ p.1 < 0x20000) && (findReg p.1).isSome && valueOk p.1 p.2

/-- R356: a pair of a model section, checked at A00's block. -/
def modelPairOk (p : Nat × Nat) : Bool :=
  let o := p.1 % 4096
  (decide (o < 0x600) || decide (0x620 ≤ o ∧ o < 0x640) || decide (o = 0x66C) || decide (0x680 ≤ o ∧ o < 0x6E0))
    && valueOk (0x100000 + o) p.2

/-- R404: the sensor IDs. -/
def sensorListed (i : Nat) : Bool := decide (1 ≤ i ∧ i ≤ 11) || decide (16 ≤ i ∧ i ≤ 39) || decide (48 ≤ i ∧ i ≤ 71)

/-- R407: threshold entries. -/
def thresholdsOk (img : List Byte) : Nat → Nat → Bool
  | 0, _ => true
  | n + 1, o => sensorListed (leAt img o 2) && decide (leAt img (o + 2) 2 < 16) && thresholdsOk img n (o + 20)

/-- R407: the fields of a management section lie in their ranges and its COUNT fits. -/
def managementOk (img : List Byte) (x : Section) : Bool :=
  let at_ (o n : Nat) := leAt img (x.off + o) n
  if x.ty = 0x10 then
    decide (x.inst = 0) && decide (60 ≤ x.size) && decide (at_ 0 1 = 4 ∨ at_ 0 1 = 6) && decide (at_ 2 1 = 0) && decide (at_ 0x3A 2 = 0)
  else if x.ty = 0x11 then
    decide (x.inst = 0) && decide (4 ≤ x.size) && decide (at_ 0 1 ≤ 1) && decide (at_ 1 1 ≤ 7) && decide (30 ≤ at_ 2 1 ∧ at_ 2 1 ≤ 80)
      && decide (at_ 3 1 = 0)
  else if x.ty = 0x12 then
    decide (x.inst = 0) && decide (8 ≤ x.size) && decide (at_ 0 1 = 0 ∨ (8 ≤ at_ 0 1 ∧ at_ 0 1 ≤ 0x77)) && decide (at_ 1 3 = 0)
      && decide (at_ 4 4 ≤ 80) && decide (8 + 20 * at_ 4 4 ≤ x.size) && thresholdsOk img (at_ 4 4) (x.off + 8)
  else if x.inst = 0 then decide (8 ≤ x.size) && (List.range 8).all (fun i => decide (at_ i 1 ≤ 7))
  else decide (x.inst ≤ 7) && decide (4 ≤ x.size) && decide (at_ 0 4 ≤ 21) && decide (4 + 4 * at_ 0 4 ≤ x.size)

/-- A section of a known or an ignored type. -/
def typeKnown (ty : Nat) : Bool := decide (1 ≤ ty ∧ ty ≤ 4) || decide (0x10 ≤ ty ∧ ty ≤ 0x13) || decide (0x8000 ≤ ty)

/-- R356, R407: the cause that makes a section invalid, 0 for none. -/
def sectionCause (img : List Byte) (seen : List Section) (x : Section) : Nat :=
  if decide (imgLength img < x.off + x.size) || decide (x.off % 4 ≠ 0) then 4
  else if !typeKnown x.ty then 6
  else if x.ty = 1 then (if (pairsFrom img (x.size / 8) x.off).all loadPairOk then 0 else 5)
  else if x.ty = 2 then
    if x.size < 8 + 8 * leAt img (x.off + 4) 4 then 5
    else if (pairsFrom img (leAt img (x.off + 4) 4) (x.off + 8)).all modelPairOk then 0 else 5
  else if 0x10 ≤ x.ty ∧ x.ty ≤ 0x13 then
    if seen.any (fun y => decide (y.ty = x.ty) && decide (y.inst = x.inst)) then 5 else if managementOk img x then 0 else 5
  else 0

/-- The first section that fails, with its cause. -/
def sectionsCheck (img : List Byte) : Nat → List Section → List Section → Nat × Nat
  | _, _, [] => (0, 0)
  | i, seen, x :: xs => match sectionCause img seen x with
    | 0 => sectionsCheck img (i + 1) (x :: seen) xs
    | c => (c, i)

/-- R356: the check of a whole copy: CFG_ERROR's CAUSE and SECTION, (0, 0) if valid. -/
def imgCheck (img : List Byte) : Nat × Nat :=
  if !imgCandidate img then (if 0x1000 ≤ imgLength img ∧ imgLength img ≤ 0x1000000 ∧ imgLength img % 4 = 0 then (1, 0) else (2, 0))
  else if leAt img 6 2 = 0 ∨ 256 < leAt img 6 2 ∨ leAt img 0x34 12 ≠ 0 then (1, 0)
  else if imgCrc img ≠ leAt img 0x10 4 then (3, 0)
  else if leAt img 0x18 16 = 0 then (7, 0)
  else if imgLength img < 0x40 + 16 * leAt img 6 2 then (4, 0)
  else sectionsCheck (imgBytes img) 0 [] (imgSections img)

/-! ### Choosing a copy (R357) -/

def copySlot (f : Flash) (c : Nat) : List Byte := if c = 0 then f.copy0 else f.copy1

/-- R357: try the candidates in order. -/
def tryCopies (f : Flash) : List Nat → State → State
  | [], s => wr cfgB CFG_STATUS_STATE 5 s
  | c :: cs, s =>
    let img := copySlot f c
    match imgCheck img with
    | (0, _) =>
      let s := wr cfgB (if c = 0 then CFG_STATUS_COPY0_VALID else CFG_STATUS_COPY1_VALID) 1 s
      let s := wr cfgB CFG_STATUS_COPY_USED c s
      let s := wr cfgB CFG_RUNNING_SEQ (imgSeq img) s
      let s := wr cfgB CFG_STATUS_STATE 4 s
      { s with cfg := { s.cfg with running := imgBytes img } }
    | (cause, sec) =>
      let s := wr cfgB CFG_ERROR_CAUSE cause s
      let s := wr cfgB CFG_ERROR_SECTION sec s
      let s := when (!cs.isEmpty) (fun s => dayEvent srcLoader 0x700 4 cfgB cause 0 0 (wr cfgB CFG_STATUS_FALLBACK 1 s)) s
      tryCopies f cs s

/-- R357: discover the flash, choose and check a copy. -/
def chooseCopy (s : State) : State :=
  match s.cfg.flash with
  | none => wr cfgB CFG_STATUS_STATE 5 s
  | some f =>
    let s := wr cfgB CFG_FLASH_SIZE_MIB f.sizeMib s
    if !f.meets then wr cfgB CFG_STATUS_STATE 5 (wr cfgB CFG_STATUS_FLASH_BAD 1 s)
    else
      let c0 := imgCandidate f.copy0
      let c1 := imgCandidate f.copy1
      let s := wr cfgB CFG_COPY0_SEQ (if c0 then imgSeq f.copy0 else 0xFFFFFFFF) s
      let s := wr cfgB CFG_COPY1_SEQ (if c1 then imgSeq f.copy1 else 0xFFFFFFFF) s
      let order := if imgSeq f.copy0 < imgSeq f.copy1 then [1, 0] else [0, 1]
      tryCopies f (order.filter (fun c => if c = 0 then c0 else c1)) s

/-! ### Firmware packages (R421) -/

/-- R421: a slot's activation value. -/
def slotValue (x : FwSlot) : Nat :=
  match x.values.reverse.find? (fun v => decide (v ≠ 0xFFFFFFFF)) with
  | some v => v
  | none => 0

/-- R198: the loader writes the control stores outside the customer-open region. -/
def writeStores (words : List (Nat × Nat)) (s : State) : State :=
  let open_ (o : Nat) := decide ((0x6000 ≤ o ∧ o < 0x8000) ∨ (0xB000 ≤ o ∧ o < 0xC000))
  let kept := s.stores.filter (fun e => open_ (e.1 % 0x20000))
  let words := words.filter (fun w => !open_ w.1 && decide (w.1 < 0x14000))
  let region (w : Nat) := decide ((0xC00 ≤ w ∧ w < 0x1000) ∨ (0x1600 ≤ w ∧ w < 0x1800))
  let poison := s.flt.poison.filter (fun e => region (e.1 % 2 ^ 28))
  { s with stores := (List.range 48).foldl (fun t a => words.foldl (fun t w => tins t (a * 0x20000 + w.1) w.2) t) kept, flt := { s.flt with poison := poison } }

/-- R421: choose and run a package. -/
def chooseFirmware (s : State) : State :=
  match s.cfg.flash with
  | none => wr cfgB CFG_STATUS_NO_FIRMWARE 1 s
  | some f =>
    let v1 := slotValue f.fw1
    let v2 := slotValue f.fw2
    let s := wr burB BUR_FW_VAL1_VALUE v1 (wr burB BUR_FW_VAL2_VALUE v2 s)
    let first := if v1 < v2 then 2 else 1
    let slot (i : Nat) := if i = 1 then f.fw1 else f.fw2
    let runIt (i : Nat) (s : State) :=
      let s := wr burB BUR_FW_RUNNING_SLOT i (wr burB BUR_FW_NEXT_SLOT i s)
      writeStores (slot i).stores (wr cfgB CFG_STATUS_NO_FIRMWARE 0 s)
    if (slot first).pass then runIt first s
    else
      let s := dayEvent srcLoader 0x700 4 cfgB first 0 0 s
      if (slot (3 - first)).pass then runIt (3 - first) s
      else wr cfgB CFG_STATUS_NO_FIRMWARE 1 (dayEvent srcLoader 0x700 4 cfgB (3 - first) 0 0 s)

/-! ### Applying -/

/-- A load of one register: at a warm reset only the fields that are not RWS (R373). -/
def loadFields (warm : Bool) (b v : Nat) : List Field → State → State
  | [], s => s
  | f :: fs, s =>
    loadFields warm b v fs (match tyAt b f with
      | .rws => if warm then s else writeField b v f s
      | _ => writeField b v f s)

def loadWrite (warm : Bool) (addr v : Nat) (s : State) : State :=
  match findReg addr with
  | none => s
  | some (b, d) =>
    if wholeIgnored s addr v then recordIgnored (recordFb addr) addr .loader s
    else dpNormalize addr (loadFields warm b v d.fields s)

/-- Every register load of the running copy whose address `sel` accepts, in order (R355). -/
def applyLoads (warm : Bool) (sel : Nat → Bool) (s : State) : State :=
  let img := s.cfg.running
  let loads := ((imgSections img).filter (fun x => decide (x.ty = 1))).flatMap (fun x => pairsFrom img (x.size / 8) x.off)
  forEach loads (fun p s => if sel p.1 then loadWrite warm p.1 p.2 s else s) s

/-- R371: the first model section for a maker and a model. -/
def findModel (img : List Byte) (maker model : Nat) : Option Section :=
  (imgSections img).find? (fun x => decide (x.ty = 2) && decide (leAt img x.off 2 = maker) && decide (leAt img (x.off + 2) 2 = model))

/-- The model section of the HDA in a port. -/
def portModel (s : State) (n : Nat) : Option Section := findModel s.cfg.running (idBytes s n 8 2) (idBytes s n 0x0A 2)

/-- The register pairs of a model section (R355). -/
def modelPairs (s : State) (x : Section) : List (Nat × Nat) :=
  pairsFrom s.cfg.running (leAt s.cfg.running (x.off + 4) 4) (x.off + 8)

/-- R371: apply a model section to a port's actuators. -/
def applyModel (warm : Bool) (sel : Nat → Bool) (n : Nat) (x : Section) (s : State) : State :=
  let s := forEach (modelPairs s x) (fun p s =>
    let one (bit a : Nat) (s : State) :=
      let addr := actBase a + p.1 % 4096
      if bitOf p.1 bit && sel addr then loadWrite warm addr p.2 s else s
    one 31 (actL n) (one 30 (actU n) s)) s
  zonesChanged true (actL n) (zonesChanged true (actU n) s)

/-- R371, R373: apply again the models of the ports whose HDA has one. -/
def applyModels (warm : Bool) (sel : Nat → Bool) (s : State) : State :=
  forEach (List.range 24) (fun n s =>
    if 3 ≤ portState s n ∧ portState s n ≤ 5 then
      match portModel s n with
      | some x => applyModel warm sel n x s
      | none => s
    else s) s

/-- The fields that follow what was loaded. -/
def afterLoads (s : State) : State :=
  let s := syncLanes (syncManual s)
  { s with pwr := { s.pwr with convTarget := rd s pwrB PWR_IB_SET_TARGET, convLimit := rd s pwrB PWR_IB_SET_ILIMIT } }

/-- R407: section 0x0011 to BUR_HEALTH. -/
def applyHealth (s : State) : State :=
  match findSection s.cfg.running 0x11 0 with
  | none => s
  | some x =>
    let at_ (o : Nat) := leAt s.cfg.running (x.off + o) 1
    wr burB BUR_HEALTH_HEALTH_MODE (at_ 0) (wr burB BUR_HEALTH_SYSLOG_SEV (at_ 1) (wr burB BUR_HEALTH_HDA_TEMP_WARN (at_ 2) s))

/-- R407: section 0x0013 to the Daybook's snapshot map and sets. -/
def applySnaps (s : State) : State :=
  let img := s.cfg.running
  let s := match findSection img 0x13 0 with
    | none => s
    | some x => forEach (List.range 8) (fun i s => wr dbB (mapField i) (leAt img (x.off + i) 1) s) s
  forEach [1, 2, 3, 4, 5, 6, 7] (fun t s =>
    match findSection img 0x13 t with
    | none => s
    | some x =>
      let n := leAt img x.off 4
      forEach (List.range 21) (fun i s => wr dbB ((snapField t).ix i) (if i < n then leAt img (x.off + 4 + 4 * i) 4 else 0) s) s) s

/-- The signed value of 4 bytes. -/
def leInt (img : List Byte) (o : Nat) : Int := ofBits 32 (leAt img o 4)

def thresholdsFrom (img : List Byte) : Nat → Nat → Table Threshold
  | 0, _ => []
  | n + 1, o =>
    tins (thresholdsFrom img n (o + 20)) (leAt img o 2)
      ⟨leAt img (o + 2) 2, leInt img (o + 4), leInt img (o + 8), leInt img (o + 12), leInt img (o + 16)⟩

/-- R407: sections 0x0010 and 0x0012, taken by the Bursar when it starts. -/
def applyManagement (s : State) : State :=
  let img := s.cfg.running
  let s := match findSection img 0x12 0 with
    | none => s
    | some x =>
      let a := leAt img x.off 1
      let s := wr burB BUR_STATUS_SMB_ADDR (if a = 0 then 0x1D else a) s
      { s with bur := { s.bur with thresholds := thresholdsFrom img (leAt img (x.off + 4) 4) (x.off + 8) } }
  match findSection img 0x10 0 with
  | none => s
  | some x =>
    let col := (img.drop (x.off + 0x28)).take 16
    let port := leAt img (x.off + 0x38) 2
    let none_ := decide (leNat col = 0)
    { s with bur := { s.bur with mgmtAddr := (img.drop (x.off + 8)).take 16, collector := if none_ then [] else col, collectorPort := if port = 0 then 514 else port } }

/-- R355: the MTU of a host port's network section. -/
def applyNetwork (s : State) : State :=
  forEach (List.range 4) (fun h s =>
    match findSection s.cfg.running 3 h with
    | none => s
    | some x => wr (hostBase h) HP_LINK_MTU_JUMBO (leAt s.cfg.running (x.off + 2) 1 % 2) s) s

/-- CFG_SHELF0-3. -/
def applyShelf (s : State) : State :=
  forEach (List.range 4) (fun i s => wr cfgB (CFG_SHELF_SHELF.ix i) (leAt s.cfg.running (0x18 + 4 * i) 4) s) s

/-- R370 phase 2: apply the whole image at a cold start. -/
def applyCold (s : State) : State :=
  applyManagement (applySnaps (applyHealth (applyNetwork (applyShelf (afterLoads (applyLoads false (fun _ => true) s))))))

/-- R373: apply the copy at the end of a warm reset to the fields that are not RWS. -/
def applyWarm (s : State) : State :=
  afterLoads (applyModels true (fun _ => true) (applyLoads true (fun _ => true) s))

/-- R355: which time sources the image lets offer: bits 0-3 PTP on P0-P3, 4 PPS_IN, 5 the Timestamp feature. -/
def timeSources (s : State) : Nat :=
  match findSection s.cfg.running 4 0 with
  | none => 0
  | some x => leAt s.cfg.running x.off 1

end Sys2Proof.Machine
end

