-- ==== Sys2Proof/Machine/MoverOps.lean ====
section
/-!
DEFINITION. Sys2Proof/Machine/MoverOps.lean: the decode pool's counts (R106-R110), the end of a mover request (R265) and the fields that
follow a channel's queue.
-/
namespace Sys2Proof.Machine
open Reg

/-! ### Decode pool bookkeeping -/

/-- Deep store slots in use (R108): queued and running deep jobs, and sums held. -/
def deepUsed (s : State) : Nat :=
  s.dec.deep.length + s.dec.lanes.countP (fun e => decide (e.2.cls = .deep)) + s.dec.sums.length

/-- Slots held by combining (R110). -/
def combineUsed (s : State) : Nat :=
  s.dec.deep.countP (fun j => j.combine) + s.dec.lanes.countP (fun e => decide (e.2.cls = .deep) && e.2.combine) + s.dec.sums.length

/-- Soft buffer slots of an actuator in use (R106): its verify and first-pass jobs, waiting and running. -/
def softUsed (s : State) (a : Nat) : Nat :=
  s.dec.first.countP (fun j => decide (j.act = a)) + s.dec.lanes.countP (fun e => decide (e.2.act = a) && decide (e.2.cls ≠ .deep))

/-- DP_QUEUES and SOFT_SLOTS follow the jobs. -/
def syncDecode (a : Nat) (s : State) : State :=
  let s := wr dpB DP_QUEUES_FIRST_DEPTH s.dec.first.length s
  let s := wr dpB DP_QUEUES_DEEP_DEPTH (deepUsed s) s
  let s := wr dpB DP_QUEUES_DEEP_RUNNING (s.dec.lanes.countP (fun e => decide (e.2.cls = .deep))) s
  let s := wr dpB DP_QUEUES_COMBINE_HELD (min 15 (combineUsed s)) s
  wr (actBase a) CH_STATUS_SOFT_SLOTS (softUsed s a) s

/-! ### Mover channels -/

/-- RUNNING, QUEUED and the summary follow the queue (R261). -/
def syncChan (c : Nat) (s : State) : State :=
  let n := (chanOf s c).reqs.length
  let s := setF (moverBase c) MV_STATUS_RUNNING (decide (n ≠ 0)) s
  let s := wr (moverBase c) MV_STATUS_QUEUED (n - 1) s
  let s := wr mvSumB MV_SUMMARY_BUSY (setBit (rd s mvSumB MV_SUMMARY_BUSY) c (decide (n ≠ 0))) s
  match (chanOf s c).reqs with
  | [] => s
  | r :: _ => wr (moverBase c) MV_COUNT_BYTES r.left s

/-- R265: an outcome of a request of channel `c`: LAST, COUNT and the status bits. -/
def chanOutcome (c last left : Nat) (s : State) : State :=
  let b := moverBase c
  let s := wr b MV_STATUS_LAST last s
  let s := wr b MV_COUNT_BYTES left s
  let s := if last = 3 then wr b MV_STATUS_REFUSED_SEEN 1 s else wr b MV_STATUS_DONE 1 s
  let s := when (decide (last = 1)) (wr b MV_STATUS_ERROR 1) s
  when (decide (last ≠ 3) && flag s b MV_CTL_IRQ_EN) (send (.irq 0x18FC00)) s

/-- An error of a sequencer's request is the item's (R184, R191). -/
def ownerError (owner : Nat) (s : State) : State :=
  if owner = 0 then s else modAct (owner - 1) (fun x => if x.cur.isSome then { x with curMoverErr := true } else x) s

/-- The running request of a channel completes. -/
def chanEnd (c last : Nat) (s : State) : State :=
  match (chanOf s c).reqs with
  | [] => s
  | r :: rest =>
    let s := when (decide (last = 1)) (ownerError r.owner) s
    syncChan c (chanOutcome c last r.left (modChan c (fun x => { x with reqs := rest }) s))

/-- R388, R376: each request of a channel completes with LAST 1. -/
def chanFail (c : Nat) (s : State) : State :=
  forEach (chanOf s c).reqs (fun _ s =>
    match (chanOf s c).reqs with
    | [] => s
    | r :: rest => ownerError r.owner (chanOutcome c 1 r.left (modChan c (fun x => { x with reqs := rest }) s))) s |> (fun s =>
  let s := setF (moverBase c) MV_STATUS_RUNNING false s
  let s := wr (moverBase c) MV_STATUS_QUEUED 0 s
  wr mvSumB MV_SUMMARY_BUSY (setBit (rd s mvSumB MV_SUMMARY_BUSY) c false) s)

end Sys2Proof.Machine
end

