-- ==== Sys2Proof/Machine/StripeOps.lean ====
section
/-!
DEFINITION. Sys2Proof/Machine/StripeOps.lean: the stripes of the objects, the members to rebuild and the stripe debt
(R227-R230, R239-R242).
-/
namespace Sys2Proof.Machine
open Reg

/-! ### Where members lie -/

/-- A cell as one number. -/
def cellKey (c : CellPlace) : Nat := (c.act * 10240 + c.reach) * 2 ^ 20 + c.slot

/-- Every stripe of every object. -/
def allStripes (s : State) : List StripeRec := s.obj.objs.flatMap (fun e => e.2.stripes)

/-- The stripe of an identifier (R228). -/
def stripeOf (s : State) (sid : Nat) : Option StripeRec := (allStripes s).find? (fun r => decide (r.sid = sid))

/-- The place of a member, if one is recorded. -/
def memberPlace (s : State) (sid member : Nat) : Option CellPlace :=
  match stripeOf s sid with
  | none => none
  | some r => (r.places.getD member none)

/-- R227: the stripe and the data member that hold byte `x` of an object. Every stripe but the last is full. -/
def locate : List StripeRec → Nat → Option (StripeRec × Nat)
  | [], _ => none
  | r :: rs, x => if x < r.j * 2 ^ 20 then some (r, x / 2 ^ 20) else locate rs (x - r.j * 2 ^ 20)

/-- The object offset at which a stripe starts. -/
def stripeStart : List StripeRec → Nat → Nat
  | [], _ => 0
  | r :: rs, sid => if r.sid = sid then 0 else r.j * 2 ^ 20 + stripeStart rs sid

/-- R227: a data cell as stored, up to the object's end; zeros follow. -/
def dataCell (o : Obj) (start c : Nat) : List Byte := (o.value.drop (start + c * 2 ^ 20)).take (2 ^ 20)

/-- R231: parity cell `i` over data cells, byte position by byte position, up to the end of the longest; zeros follow. -/
def parityCell (i : Nat) : Nat → List (List Byte) → List Byte
  | 0, _ => []
  | n + 1, cells =>
    if cells.all List.isEmpty then []
    else BitVec.ofNat 8 (rsParity i 0 (cells.map (fun d => (d.headD 0).toNat))) :: parityCell i n (cells.map List.tail)

/-- The 2^20 bytes of a cell (R204). -/
def wholeCell (bs : List Byte) : List Byte := bs ++ List.replicate (2 ^ 20 - bs.length) 0

/-- The bytes of member `m` of a stripe as stored. -/
def memberCell (o : Obj) (r : StripeRec) (m : Nat) : List Byte :=
  let start := stripeStart o.stripes r.sid
  if m < r.j then wholeCell (dataCell o start m)
  else wholeCell (parityCell (m - r.j) (2 ^ 20) ((List.range r.j).map (dataCell o start)))

/-- The stamp of the store that wrote an object's newest bytes. -/
def storeStamp (o : Obj) : Stamp :=
  match o.events.reverse.find? (fun e => decide (e.kind ≤ 3)) with
  | some e => e.stamp
  | none => ⟨0, 0, 0⟩

/-- Change one stripe's record in the object that holds it. -/
def modStripe (sid : Nat) (f : StripeRec → StripeRec) (s : State) : State :=
  let o := sid / 2 ^ 24
  match tfind s.obj.objs o with
  | none => s
  | some x =>
    let x := { x with stripes := x.stripes.map (fun r => if r.sid = sid then f r else r) }
    { s with obj := { s.obj with objs := tins s.obj.objs o x } }

/-- Members recorded on places that `p` accepts: (stripe identifier, member). -/
def membersOn (s : State) (p : CellPlace → Bool) : List (Nat × Nat) :=
  (allStripes s).flatMap (fun r =>
    (List.range r.places.length).filterMap (fun m =>
      match r.places.getD m none with
      | some c => if p c then some (r.sid, m) else none
      | none => none))

/-- R229: SLUICE_PLAN.HOLD of a port. -/
def portHeld (s : State) (n : Nat) : Bool := bitOf (rd s slB SLUICE_PLAN_HOLD) n

/-- A place can be read now: its actuator in service, its port not held (R235, R238). -/
def placeUp (s : State) (c : CellPlace) : Bool := actInService s c.act && !portHeld s (portOfAct c.act)

/-- A member is missing for good: no place, or listed to be rebuilt, or its actuator out of service while not held (R238). -/
def memberMissing (s : State) (sid member : Nat) : Bool :=
  s.str.missing.any (fun x => decide (x.1 = sid) && decide (x.2.1 = member)) ||
    (match memberPlace s sid member with
     | none => true
     | some c => !actInService s c.act && !portHeld s (portOfAct c.act))

/-- A member can be read by a fetch (R235, R238). -/
def memberUp (s : State) (sid member : Nat) : Bool :=
  !s.str.missing.any (fun x => decide (x.1 = sid) && decide (x.2.1 = member)) &&
    (match memberPlace s sid member with
     | none => false
     | some c => placeUp s c)

/-! ### Rebuild and debt -/

/-- R28, R242: the stripes that are lost: more than m members missing. -/
def lostStripes (s : State) : List Nat :=
  ((allStripes s).filter (fun r =>
    decide (r.m < ((List.range (r.j + r.m)).filter (fun m => memberMissing s r.sid m)).length))).map (fun r => r.sid)

/-- R242: while the module serves, a stripe that becomes lost writes one record of severity 7. -/
def noteLost (s : State) : State :=
  if service s = 1 ∨ service s = 2 then
    let gone := lostStripes s
    let fresh := gone.filter (fun x => !s.str.lost.contains x)
    forEach fresh (fun sid s => tellerEvent 0x700 7 srB (sid % 2 ^ 32) (sid / 2 ^ 32) 0 s) { s with str := { s.str with lost := gone } }
  else s

/-- A member still stands in the index (R242: what an object that is gone had to rebuild is dropped). -/
def stillHeld (s : State) (x : Nat × Nat × Nat) : Bool := (stripeOf s x.1).isSome

/-- SR_REBUILD_STATUS.PORTS, SR_LEFT, SR_DEBT and JOBS_WAITING follow the lists; the rebuild skips lost stripes (R242); DONE is set when
the last port's rebuild ends. -/
def syncRebuild (s : State) : State :=
  let s := noteLost s
  let todo := s.str.missing.filter (fun x => stillHeld s x && !s.str.lost.contains x.1)
  let ports := todo.foldl (fun acc x => setBit acc x.2.2 true) 0
  let s := when (decide (rd s srB SR_REBUILD_STATUS_PORTS ≠ 0 ∧ ports = 0)) (wr srB SR_REBUILD_STATUS_DONE 1) s
  let s := wr srB SR_REBUILD_STATUS_PORTS ports s
  let s := pairSet 0x150058 (todo.length * 2 ^ 20) s
  let s := wr srB SR_DEBT_ENTRIES (s.str.debt.filter (stillHeld s)).length s
  wr srB SR_STATUS_JOBS_WAITING (min 31 s.str.jobs.length) s

/-- Add to a list what it does not hold. -/
def addNew (xs : List (Nat × Nat × Nat)) (ys : List (Nat × Nat × Nat)) : List (Nat × Nat × Nat) :=
  ys.foldl (fun acc y => if acc.contains y then acc else acc ++ [y]) xs

/-- R239: the members of a port that are to be rebuilt: with `all`, every member that the index records on it, and its debt. -/
def rebuildStart (n : Nat) (all : Bool) (s : State) : State :=
  if configured s n then
    let onIt := if all then (membersOn s (fun c => decide (portOfAct c.act = n))).map (fun e => (e.1, e.2, n)) else []
    let debt := s.str.debt.filter (fun x => decide (x.2.2 = n))
    syncRebuild { s with str := { s.str with missing := addNew s.str.missing (onIt ++ debt) } }
  else s

/-- R242: the HDA of a port is gone: its rebuild stops. A port whose rebuild was unfinished keeps no recorded serial, so that
the next HDA is a replacement. -/
def rebuildStop (n : Nat) (s : State) : State :=
  if s.str.missing.any (fun x => decide (x.2.2 = n) && !s.str.debt.contains x) then
    let s := { s with str := { s.str with missing := s.str.missing.filter (fun x => decide (x.2.2 ≠ n)) } }
    syncRebuild { s with led := { s.led with invSerial := tdel s.led.invSerial n } }
  else syncRebuild { s with str := { s.str with missing := s.str.missing.filter (fun x => decide (x.2.2 ≠ n)) } }

/-- R240: the members recorded on a faulted actuator, whose HDA's other actuator is in service. -/
def rebuildAct (a : Nat) (s : State) : State :=
  let other := if a % 2 = 0 then a + 1 else a - 1
  if actInService s other && configured s (portOfAct a) then
    let onIt := (membersOn s (fun c => decide (c.act = a))).map (fun e => (e.1, e.2, portOfAct a))
    syncRebuild { s with str := { s.str with missing := addNew s.str.missing onIt } }
  else syncRebuild s

/-- R241: how many members of a stripe are to be rebuilt. -/
def missingOf (s : State) (sid : Nat) : Nat := (s.str.missing.filter (fun x => decide (x.1 = sid))).length

/-- R241: `x` comes before `y`: most missing members first, then the lowest stripe identifier, then the lowest member. -/
def rebuildBefore (s : State) (x y : Nat × Nat × Nat) : Bool :=
  let mx := missingOf s x.1
  let my := missingOf s y.1
  decide (my < mx) || (decide (my = mx) && (decide (x.1 < y.1) || (decide (x.1 = y.1) && decide (x.2.1 < y.2.1))))

/-- R242: a member that the rebuild may take now: its stripe is not lost, its port not held. -/
def rebuildable (s : State) (x : Nat × Nat × Nat) : Bool :=
  !portHeld s x.2.2 &&
    (match stripeOf s x.1 with
     | none => false
     | some r => decide (((List.range (r.j + r.m)).filter (fun m => memberMissing s r.sid m)).length ≤ r.m))

/-- The member that the rebuild takes next. -/
def rebuildNext (s : State) : Option (Nat × Nat × Nat) :=
  (s.str.missing.filter (rebuildable s)).foldl (fun acc x =>
    match acc with
    | none => some x
    | some y => if rebuildBefore s x y then some x else some y) none

end Sys2Proof.Machine
end

