-- ==== Sys2Proof/Machine/FaultOps.lean ====
section
/-!
DEFINITION. Sys2Proof/Machine/FaultOps.lean: fault events, fault states, reactions (R382-R392), how units leave and rejoin service
(R388), and block resets (R375, R376).
-/
namespace Sys2Proof.Machine
open Reg

/-! ### What a fault register set belongs to -/

/-- The kind (R304) and the instance of a unit of a fault register set: what a block reset as a reaction resets. -/
def unitKind (fb u : Nat) : Option (Nat × Nat) :=
  if 0x80000 ≤ fb ∧ fb < 0x98000 then (if u = 0 then some (2, (fb - 0x80000) / 0x1000) else none)
  else if 0x100000 ≤ fb ∧ fb < 0x130000 then some (1, (fb - 0x100000) / 0x1000)
  else if fb = 0x14FC00 then some (3, u)
  else if fb = 0x15FC00 then (if u < 2 then some (4, u) else some (5, u - 2))
  else if fb = 0x18FC00 then some (6, u)
  else if 0x1A0000 ≤ fb ∧ fb < 0x1B0000 then some (7, (fb - 0x1A0000) / 0x4000)
  else if fb = 0x19FC00 then some (8, 0)
  else none

/-- The units that a block of a kind holds. -/
def kindUnits (kind inst : Nat) : List (Nat × Nat) :=
  if kind = 1 then [(fbAct inst, 0)]
  else if kind = 2 then [(fbPort inst, 0), (fbPort inst, 1)]
  else if kind = 3 then [(0x14FC00, inst)]
  else if kind = 4 then [(0x15FC00, inst)]
  else if kind = 5 then [(0x15FC00, 2 + inst)]
  else if kind = 6 then [(0x18FC00, inst)]
  else if kind = 7 then [(fbHost inst, 0)]
  else if kind = 8 then [(0x19FC00, 0)]
  else []

/-- R304: how many instances a kind has. -/
def kindCount (kind : Nat) : Nat :=
  if kind = 1 then 48 else if kind = 2 then 24 else if kind = 3 then 24 else if kind = 4 then 2 else if kind = 5 then 8
  else if kind = 6 then 32 else if kind = 7 then 4 else if kind = 8 then 1 else 0

/-- A unit that has a quiet period (R382: a data-path unit). -/
def dataPath (fb : Nat) : Bool := decide (fb ≠ 0x19FC00 ∧ fb ≠ 0x1DFC00 ∧ fb ≠ 0x1BFC00)

/-- FLT_UNITS and FAULTED follow the units, BACKOFF the largest r. -/
def syncUnits (fb : Nat) (s : State) : State :=
  let us := s.flt.units.filter (fun e => decide (e.1 / 64 = fb))
  let s := wr fb FLT_UNITS_IN_FAULT (us.foldl (fun acc e => if e.2.inFault then setBit acc (e.1 % 64) true else acc) 0) s
  let s := setF fb FLT_STATUS_FAULTED (us.any (fun e => e.2.inFault)) s
  wr fb FLT_QUIET_BACKOFF (us.foldl (fun acc e => max acc (min 15 e.2.r)) 0) s

/-- R386: the effective quiet time of a unit, in ticks. -/
def quietTime (s : State) (fb u : Nat) : Nat := secs (min 3600 (rd s fb FLT_QUIET_QUIET_S * 2 ^ (min 12 (unitOf s fb u).r)))

/-! ### Start requests and word 2 -/

/-- R190, R388: the sequencer of An enters word 2; queued items post 0x04 without starting. -/
def enterWord2 (a : Nat) (s : State) : State :=
  let s := postQueued a 4 (endItem a (modAct a (fun x => { x with curFault := x.cur.isSome }) s))
  enterHoriz a 2 s

/-! ### Stripe engines -/

/-- R232: the job that an engine takes: the lowest priority number, the oldest within it; every eighth grant goes to a waiting rebuild
or audit job. -/
def engineChoice (s : State) (e : Nat) : Option EngineJob :=
  let of_ (p : Nat) := s.str.jobs.find? (fun j => decide (j.prio = p))
  let usual := (of_ 1).orElse (fun _ => (of_ 2).orElse (fun _ => of_ 3))
  if tget 0 s.str.grants e % 8 = 7 then (of_ 3).orElse (fun _ => usual) else usual

/-- An engine may take a job: in service, free, not being reset. -/
def engineFree (s : State) (e : Nat) : Bool :=
  bitOf (rd s srB SR_STATUS_ENGINE_UP) e && (tfind s.str.running e).isNone && !underReset s 4 e

/-- Free engines take waiting jobs. -/
def engineDispatch (s : State) : State :=
  syncRebuild (forEach [0, 1] (fun e s =>
    if engineFree s e then
      match engineChoice s e with
      | some j => { s with str := { s.str with jobs := s.str.jobs.erase j, running := tins s.str.running e j, grants := tmod 0 s.str.grants e (· + 1) } }
      | none => s
    else s) s)

/-- A stripe engine job is queued (R232). -/
def addEngineJob (j : EngineJob) (s : State) : State :=
  if s.str.jobs.contains j || s.str.running.any (fun e => decide (e.2 = j)) then s
  else engineDispatch { s with str := { s.str with jobs := s.str.jobs ++ [j] } }

/-- Both stripe engines are out of service (R242). -/
def enginesOut (s : State) : Bool := decide (rd s srB SR_STATUS_ENGINE_UP = 0)

/-- R233, R388: no hash lane is in service. -/
def lanesOut (s : State) : Bool := decide (rd s srB SR_STATUS_LANE_UP = 0)

/-- R232, R241: while members are to be rebuilt, the next one waits for an engine. -/
def rebuildQueue (s : State) : State :=
  let busy := (s.str.jobs ++ s.str.running.map Prod.snd).any (fun j => match j.work with | .rebuild _ _ => true | _ => false)
  if busy || enginesOut s || flag s srB SR_REBUILD_PAUSE then s
  else match rebuildNext s with
    | none => s
    | some (sid, m, _) => addEngineJob ⟨3, .rebuild sid m⟩ s

/-! ### Leaving and rejoining service (R388) -/

/-- A lane's job goes back to the head of its queue (R112). -/
def laneDrop (l : Nat) (s : State) : State :=
  match tfind s.dec.lanes l with
  | none => s
  | some j =>
    let d := { s.dec with lanes := tdel s.dec.lanes l }
    let d := match j.cls with
      | .deep => { d with deep := j :: d.deep }
      | _ => { d with first := j :: d.first }
    syncDecode j.act { s with dec := d }

/-- A stripe engine's job goes back to the queue (R232). -/
def engineDrop (e : Nat) (s : State) : State :=
  match tfind s.str.running e with
  | none => s
  | some j => { s with str := { s.str with running := tdel s.str.running e, jobs := j :: s.str.jobs } }

/-- A host port at electrical idle (R388). -/
def hostDark (h : Nat) (s : State) : State :=
  let s := when (flag s (hostBase h) HP_LINK_UP) (wr (hostBase h) HP_LINK_CHANGED 1) s
  wr (hostBase h) HP_LINK_UP 0 (modCtrl h (fun x => { x with discovery := 0 }) (dropAssociation h s))

/-- R202: the sequencer leaves microcode, its items post 0x04. -/
def actDown (a : Nat) (s : State) : State :=
  let s := retract a s
  let s := faultItems a s
  let s := wr (actBase a) AS_STATUS_MODE 3 s
  rebuildQueue (rebuildAct a (gateUpdate a (modAct a (fun x => { x with wait := none, wgReq := false, stack := [] }) s)))

/-- R388: what a unit's fault state does. -/
def unitDown (fb u : Nat) (s : State) : State :=
  match unitKind fb u with
  | some (1, a) => actDown a s
  | some (2, n) => spinFault n (retract (actU n) (retract (actL n) s))
  | some (3, l) => syncLanes (laneDrop l s)
  | some (4, e) => engineDispatch (syncLanes (engineDrop e s))
  | some (5, _) => syncLanes s
  | some (6, c) => chanFail c s
  | some (7, h) => hostDark h s
  | some (8, _) => s
  | _ => if 0x80000 ≤ fb ∧ fb < 0x98000 then modPort ((fb - 0x80000) / 0x1000) (fun p => { p with sensBad := true }) s else s

/-! ### The fault line of a preamplifier (R79) -/

def fltField (a : Nat) : Field := if a % 2 = 0 then HDA_STATUS_FLT_U else HDA_STATUS_FLT_L
def fltSeen (a : Nat) : Field := if a % 2 = 0 then HDA_STATUS_FLT_U_SEEN else HDA_STATUS_FLT_L_SEEN

/-- The line is high again: the inhibit of R73 ends. -/
def fltOver (a : Nat) (s : State) : State :=
  setGates a (fun g => { g with flt := false }) (setF (portBase (portOfAct a)) (fltField a) false s)

/-- R388: a unit's return action, once it has left its fault state. An actuator leaves it only once its fault line has stayed released for
the quiet period (R79). -/
def unitUp (fb u : Nat) (s : State) : State :=
  match unitKind fb u with
  | some (1, a) => let s := fltOver a s; syncRebuild (if flag s (actBase a) AS_CTL_RUN && !underReset s 1 a then enterWord2 a s else wr (actBase a) AS_STATUS_MODE 0 s)
  | some (2, n) =>
    let s := modPort n (fun p => { p with fails := 0, lostRetries := 0 }) s
    let s := wr (portBase n) SP_STATUS_STATE 0 s
    requestStart n s
  | some (3, _) | some (4, _) | some (5, _) => rebuildQueue (engineDispatch (syncLanes s))
  | some _ => s
  | none => if 0x80000 ≤ fb ∧ fb < 0x98000 then modPort ((fb - 0x80000) / 0x1000) (fun p => { p with sensBad := false, sensFails := 0 }) s else s

/-! ### Block resets (R375, R376) -/

/-- The register range that a block reset clears: base and length, 0 where the block has no registers of its own. The spindle
controller and its loop lie in the always-on domain and are not the port block's. -/
def kindRange (kind inst : Nat) : Nat × Nat :=
  if kind = 1 then (actBase inst, 0x1000)
  else if kind = 2 then (portBase inst, 0x500)
  else if kind = 6 then (moverBase inst, 0x100)
  else if kind = 7 then (hostBase inst, 0x4000)
  else if kind = 8 then (rsvB, 0x10000)
  else (0, 0)

/-- Registers of the range return to their reset values, RWS fields and fault records apart (R373). -/
def clearRange (kind inst : Nat) (s : State) : State :=
  let (b, n) := kindRange kind inst
  keepRegs (fun k => !decide (b ≤ keyAddr k ∧ keyAddr k < b + n) || decide (keyTy k = 4) || (inFb (keyAddr k) && decide (keyTy k = 0))
    || decide (kind = 2 ∧ ((keyAddr k = b ∧ keyTy k = 0) ∨ (b + 0x100 ≤ keyAddr k ∧ keyAddr k < b + 0x200)))
    || decide (kind = 7 ∧ keyAddr k = b)) s

/-- The block's configuration is applied again (R373, R375). -/
def reapply (kind inst : Nat) (s : State) : State :=
  let (b, n) := kindRange kind inst
  let sel (a : Nat) := decide (b ≤ a ∧ a < b + n)
  if n = 0 ∨ s.cfg.running = [] then s
  else
    let s := applyLoads true sel s
    if kind = 1 then
      match portModel s (portOfAct inst) with
      | some x => if 3 ≤ portState s (portOfAct inst) then applyModel true sel (portOfAct inst) x s else s
      | none => s
    else s

/-- R376: what is left in flight ends, and the block is reset. -/
def blockClear (kind inst : Nat) (s : State) : State :=
  if kind = 1 then
    let s := postQueued inst 4 (endItem inst (modAct inst (fun x => { x with curFault := x.cur.isSome }) s))
    let was := svState s inst
    let done := (actOf s inst).doneQ
    let old := actOf s inst
    let s := clearRange 1 inst s
    let s := modAct inst (fun _ => { act0 with ranCold := old.ranCold, vcm := old.vcm, retractAt := old.retractAt, gates := { old.gates with reset := true }, frames := old.frames.filter (fun f => f.sw), pre := old.pre, statusRead := old.statusRead, doneQ := done, y := old.y, zones := old.zones }) s
    let s := wr (actBase inst) SV_STATE_STATE was s
    let s := { s with loops := tdel s.loops inst }
    syncAct inst (resetAct inst s)
  else if kind = 2 then
    let s := retract (actU inst) (retract (actL inst) s)
    let st := portState s inst
    let s := clearRange 2 inst s
    let s := modPort inst (fun p => { p with sensFails := 0, sensBad := (unitOf s (fbPort inst) 1).inFault, swFrame := false }) s
    if 2 ≤ st ∧ st ≤ 4 then
      let s := wr (portBase inst) HDA_STATUS_STATE 2 s
      forEach [actU inst, actL inst] (fun a s =>
        let s := wr (actBase a) AS_CTL_RUN 0 s
        wr (actBase a) AS_STATUS_MODE 0 (modAct a (fun x => { x with ranSince := false }) s)) s
    else s
  else if kind = 3 then laneDrop inst s
  else if kind = 4 then engineDispatch (engineDrop inst s)
  else if kind = 5 then { s with mov := { s.mov with hashed := tdel s.mov.hashed inst } }
  else if kind = 6 then chanFail inst (clearRange 6 inst (chanFail inst s))
  else if kind = 7 then hostDark inst (clearRange 7 inst s)
  else
    let s := clearRange 8 0 (rsvUnmap s)
    wr rsvB RSV_STATUS_OUT_OF_SERVICE 1 (wr rsvB RSV_STATUS_READY 0 s)

/-- A request starts a block reset, or joins the one in progress (R375). -/
def blockBegin (kind inst : Nat) (hold : Bool) (p : Option Path) (c : Option Sqe) (s : State) : State :=
  let till := now s + msecs (rd s rstB (RST_BLOCK_TMO_TMO_MS.ix (kind - 1)))
  let s := { s with rst := { s.rst with blocks := s.rst.blocks ++ [⟨kind, inst, till, hold, false, p, c⟩] } }
  wr rstB RST_BLOCK_RESULT_BUSY 1 s

/-! ### Fault states (R385, R386) -/

/-- The part of a reaction that a unit's own row permits (R392): the sensor link has no block reset, module reset or ALIVE stop. -/
def unitReact (s : State) (fb u : Nat) : Nat :=
  let v := b2n (flag s fb FLT_REACT_IRQ) + 2 * b2n (flag s fb FLT_REACT_TRAP) + 4 * rd s fb FLT_REACT_ACTION
    + 32 * b2n (flag s fb FLT_REACT_ALIVE_STOP)
  if 0x80000 ≤ fb ∧ fb < 0x98000 ∧ u = 1 then v % 4 else v

/-- The non-maskable trap to every Teller and to the Bursar (R381). -/
def trapAll (s : State) : State := send .trap { s with flt := { s.flt with traps := s.flt.traps + 1 } }

/-- Class of a unit's lasting faults: 2 Data-path, 3 Block (R382). -/
def unitClass (fb : Nat) : Nat := if dataPath fb then 2 else 3

/-- Apply a reaction at the entry to a lasting fault (R392). -/
def applyReaction (fb u cause : Nat) (s : State) : State :=
  let v := unitReact s fb u
  let s := when (decide (v ≠ 0)) (hist fb { code := 0x0A, unit := u, cls := unitClass fb, react := v, detail := cause }) s
  let s := when (bitOf v 1) trapAll s
  let s := when (bitOf v 5) (fun s => wr fb FLT_STATUS_ALIVE_STOPPED 1 (aliveStopSet true s)) s
  if bitsOf v 2 3 = 1 then
    match unitKind fb u with
    | some (k, i) => if s.rst.asserted.isSome || decide (service s = 4) then s else blockBegin k i false none none s
    | none => s
  else if bitsOf v 2 3 = 2 then assertReset .warm 5 s
  else if bitsOf v 2 3 = 3 then assertReset .cold 6 s
  else s

/-- A further fault event of a unit in its fault state (R385, R398): a new window, no second reaction. -/
def faultEvent (fb u cause : Nat) (s : State) : State :=
  let s := hist fb { code := 8, unit := u, cls := unitClass fb, detail := cause } s
  modUnit fb u (fun x => { x with quietEnd := now s + quietTime s fb u, cause := cause }) s

/-- A unit enters its fault state with a given r (R385, R387). -/
def faultEntry (fb u cause r : Nat) (s : State) : State :=
  let s := modUnit fb u (fun x => { x with inFault := true, r := r, cause := cause }) s
  let s := modUnit fb u (fun x => { x with quietEnd := now s + quietTime s fb u }) s
  let s := syncUnits fb s
  let s := hist fb { code := 7, unit := u, cls := unitClass fb, detail := cause } s
  applyReaction fb u cause (unitDown fb u s)

/-- A unit leaves its fault state (R385): RECOVERIES, code 0x09. -/
def faultExit (fb u r : Nat) (s : State) : State :=
  let t := now s
  let s := modUnit fb u (fun x => { x with inFault := false, lastExit := some t, r := r }) s
  let s := incF fb (FLT_UNIT_COUNT_RECOVERIES.ix u) s
  let s := syncUnits fb s
  hist fb { code := 9, unit := u, cls := unitClass fb, detail := (unitOf s fb u).cause } s

/-- R385: a window that has ended with no further event ends the fault state, even where an event stamped at or after its end comes
next; a Block-class fault state has no window (R435). -/
def quietDue (fb u : Nat) (s : State) : State :=
  let x := unitOf s fb u
  if x.inFault && dataPath fb && decide (x.quietEnd ≤ now s) then unitUp fb u (faultExit fb u x.r s) else s

/-- A lasting fault of a unit (R383, R385, R386). -/
def lastingFault (fb u cause : Nat) (s : State) : State :=
  let s := quietDue fb u s
  let x := unitOf s fb u
  if x.inFault then faultEvent fb u cause s
  else
    let back := match x.lastExit with
      | some t => decide (now s < t + secs 600)
      | none => false
    faultEntry fb u cause (if back then x.r + 1 else 0) s

/-- A failure that its retry cleared (R383, R384). -/
def transientFault (fb u cause : Nat) (s : State) : State :=
  let s := hist fb { code := 6, unit := u, cls := 1, detail := cause } s
  let s := incF fb (FLT_UNIT_COUNT_TRANSIENTS.ix u) s
  let n := rd s fb (FLT_UNIT_COUNT_TRANSIENTS.ix u)
  when (decide (n % rd s fb FLT_WARN_WARN_EVERY = 0)) (earlyWarn 3 4 (fb * 64 + u) n) s

/-! ### Read frames of a preamplifier (R77) -/

/-- The value that a read frame or its repeat returned. -/
def readValue (t : ReadTry) : Option (BitVec 16) := t.first.orElse (fun _ => t.second)

/-- R77: count a read frame's failures; one that the repeat made good is transient, a second one a lasting fault of the head link. -/
def readTry (a : Nat) (t : ReadTry) (s : State) : State :=
  if t.first.isSome then s
  else
    let s := addF (portBase (portOfAct a)) HDA_COUNTS_PA_CRC_ERRS (if t.second.isSome then 1 else 2) s
    if t.second.isSome then transientFault (fbAct a) 0 1 s else lastingFault (fbAct a) 0 1 s

/-- R79: PRE_STATUS is read and written back, which clears it unless the line stays low. -/
def statusTry (a : Nat) (t : ReadTry) (stillLow : Bool) (s : State) : State :=
  let s := readTry a t s
  match (readValue t) with
  | none => s
  | some w => modAct a (fun x => { x with statusRead := w.toNat, pre := tput 0 x.pre 1 (if stillLow then w.toNat % 0x200 else 0) }) s

/-- R79: the retry of a write that a fall of HLx_FLT_N cut has written a sector: a transient fault. -/
def retryPassed (a : Nat) (s : State) : State :=
  if (actOf s a).fltTried then transientFault (fbAct a) 0 2 (modAct a (fun x => { x with fltTried := false }) s) else s

/-! ### The end of a block reset -/

/-- R376, R388: a released block takes up its work. -/
def blockRelease (kind inst : Nat) (s : State) : State :=
  if kind = 1 then
    if portState s (portOfAct inst) = 4 then
      let s := wr (actBase inst) AS_CTL_RUN 1 s
      let s := modAct inst (fun x => { x with ranSince := true }) s
      if (unitOf s (fbAct inst) 0).inFault then wr (actBase inst) AS_STATUS_MODE 3 s else enterWord2 inst s
    else s
  else if kind = 3 ∨ kind = 4 ∨ kind = 5 then engineDispatch (syncLanes s)
  else s

/-- R387: a requested block reset ends the fault states of the block's units, with r = 0; a condition still present enters
again. -/
def endByReset (kind inst : Nat) (still : Bool) (s : State) : State :=
  forEach (kindUnits kind inst) (fun (fu : Nat × Nat) s =>
    if (unitOf s fu.1 fu.2).inFault ∧ kind ≠ 8 then
      let c := (unitOf s fu.1 fu.2).cause
      let s := faultExit fu.1 fu.2 0 s
      if still then faultEntry fu.1 fu.2 c 0 s
      else if kind = 1 then fltOver inst s else unitUp fu.1 fu.2 s
    else s) s

/-- A request for a block. -/
def isReset (kind inst : Nat) (b : BlockReset) : Bool := decide (b.kind = kind) && decide (b.inst = inst)

/-- R375 step 4: the block is released, and its requests have their result. `still` says that the fault condition is still present. -/
def blockFinish (kind inst : Nat) (timedOut still : Bool) (s : State) : State :=
  let reqs := s.rst.blocks.filter (isReset kind inst)
  let asked := reqs.any (fun b => b.by_.isSome || b.cmd.isSome)
  let s := { s with rst := { s.rst with
    blocks := s.rst.blocks.filter (fun b => !isReset kind inst b), held := s.rst.held.filter (fun e => decide (e ≠ (kind, inst))) } }
  let s := blockRelease kind inst (if asked then endByReset kind inst still s else s)
  let faulted := (kindUnits kind inst).any (fun fu => (unitOf s fu.1 fu.2).inFault)
  let s := setF rstB RST_BLOCK_RESULT_BUSY (!s.rst.blocks.isEmpty) s
  let s := when (reqs.any (fun b => b.by_.isSome)) (fun s =>
    let s := wr rstB RST_BLOCK_RESULT_DONE 1 s
    let s := setF rstB RST_BLOCK_RESULT_TIMED_OUT timedOut s
    setF rstB RST_BLOCK_RESULT_STILL_FAULTED faulted s) s
  forEach reqs (fun b s => match b.cmd with
    | some c => complete c 0 (b2n timedOut + 2 * b2n faulted) 0 s
    | none => s) s

/-- R375: a block has no work in flight. What a port's sensor link, a host port or the Reservoir has under way ends within the event. -/
def blockIdle (s : State) (kind inst : Nat) : Bool :=
  if kind = 1 then (actOf s inst).cur.isNone
  else if kind = 2 then (actOf s (actU inst)).frames.isEmpty && (actOf s (actL inst)).frames.isEmpty
  else if kind = 3 then (tfind s.dec.lanes inst).isNone
  else if kind = 4 then (tfind s.str.running inst).isNone
  else if kind = 5 then (List.range 32).all (fun c => match (chanOf s c).reqs with
    | r :: _ => decide (r.hash ≠ some inst ∨ r.left = r.count)
    | [] => true)
  else if kind = 6 then (match (chanOf s inst).reqs with
    | r :: _ => decide (r.left = r.count)
    | [] => true)
  else true

/-- R375, R376: the block is idle, or its timeout has passed: it is reset, its configuration applied again, and it is released
unless HOLD keeps it in reset. -/
def blockEnd (kind inst : Nat) (timedOut still : Bool) (s : State) : State :=
  match s.rst.blocks.find? (isReset kind inst) with
  | none => s
  | some r0 =>
    if s.rst.held.contains (kind, inst) then s
    else if timedOut = false ∧ blockIdle s kind inst = false then s
    else
      let s := if timedOut then reach r0.until_ s else s
      let s := reapply kind inst (blockClear kind inst s)
      let s := incF rstB RST_BLOCK_COUNTS_BLOCK_RESETS s
      let s := when timedOut (incF rstB RST_BLOCK_COUNTS_TIMEOUTS) s
      if s.rst.blocks.any (fun b => isReset kind inst b && b.hold) then
        { s with rst := { s.rst with
            blocks := s.rst.blocks.map (fun b => if isReset kind inst b then { b with timedOut := timedOut } else b)
            held := (kind, inst) :: s.rst.held } }
      else blockFinish kind inst timedOut still s

/-- RST_RELEASE of a held block (R375): the release that HOLD put off. -/
def blockUnhold (kind inst : Nat) (s : State) : State :=
  if s.rst.held.contains (kind, inst) then
    blockFinish kind inst (s.rst.blocks.any (fun b => isReset kind inst b && b.timedOut)) false s
  else s

/-! ### Faults that zone loads can raise (R161) -/

/-- An empty speed window takes the HDA out of service. -/
def windowFault (n : Nat) (s : State) : State :=
  if windowEmpty s n ∧ 3 ≤ portState s n then
    (if (unitOf s (fbPort n) 0).inFault then s else lastingFault (fbPort n) 0 1 s)
  else s

/-- Memory errors of a block's on-die memory (R396, R397): the log, the counts, the history entry. -/
def memError (fb mem addr syn : Nat) (ue suspect : Bool) (s : State) : State :=
  let bumpLog (m : MemLog) : MemLog :=
    let hit := m.log.any (fun e => decide (e.addr = addr))
    let log := if hit then
        m.log.map (fun e => if e.addr = addr then { e with syndrome := syn, count := satInc 255 e.count, ue := e.ue || ue, suspect := e.suspect || suspect } else e)
      else if m.log.length < 32 then m.log ++ [⟨addr, syn, 1, ue, suspect⟩] else m.log
    { ce := if ue then m.ce else satInc 0xFFFF m.ce, ue := if ue then satInc 0xFFFF m.ue else m.ue, log := log }
  let s := { s with flt := { s.flt with mems := tmod memLog0 s.flt.mems (fb * 16 + mem) bumpLog } }
  let s := hist fb { code := if ue then 5 else 4, unit := 0, cls := 0, detail := mem * 2 ^ 28 + addr % 2 ^ 28, hi := syn } s
  when (ue && flag s fb FLT_REACT_TRAP) trapAll s

/-- R395: a column of the SRAM code: of odd weight. -/
def sramCol (i : Nat) : Nat :=
  let v := Config.sramColumn i % 256
  if popCount 8 v % 2 = 1 then v else v ^^^ 1

/-- R395: the syndrome of a word with stored syndrome `p`, at the address presented, from the word reached, with flipped bits. -/
def sramSyndrome (p : Nat) (e : MemErr) : Nat := e.flips.foldl (fun acc i => acc ^^^ sramCol i) (p ^^^ sramH (e.addr % 2 ^ 28) ^^^ sramH (e.reached % 2 ^ 28))

/-- R396, R247: one read of an SRAM word with stored syndrome `p`: whether the error is uncorrectable; a correctable one is put right and
logged. ADDR_SUSPECT is set where the syndrome is one of the vectors w_i. -/
def sramRead (fb mem p : Nat) (e : MemErr) (s : State) : Bool × State :=
  let syn := sramSyndrome p e
  if syn = 0 then (false, s)
  else if p = 0 ∧ (List.range 72).any (fun i => decide (sramCol i = syn)) = true then (false, memError fb mem (e.addr % 2 ^ 28) syn false false s)
  else (true, memError fb mem (e.addr % 2 ^ 28) syn true ((List.range 28).any (fun i => decide (sramVec i = syn))) s)

/-! ### The control stores' words (R396). They are memories 1 to 3 of the actuator block, in words of 8 bytes (notes/assumptions/8.md) -/

/-- The memory of a control store's offset. -/
def storeMem (off : Nat) : Nat := if off < 0x8000 then 1 else if off < 0xC000 then 2 else 3

/-- The key of a control-store word's syndrome. -/
def storeKey (a off : Nat) : Nat := (fbAct a * 16 + storeMem off) * 2 ^ 28 + off / 8

/-- A fetch of a word of 3 SRAM words from offset `off`, one of which meets an error: whether it is uncorrectable. A poisoned word stays
so. -/
def storeFetch (a off : Nat) (err : Option MemErr) (s : State) : Bool × State :=
  let look (i : Nat) (e : MemErr) (s : State) : Bool × State :=
    let k := storeKey a (off + 8 * i)
    let p := tget 0 s.flt.poison k
    match sramRead (fbAct a) (storeMem off) p e s with
    | (true, s) => (true, if e.addr = e.reached then { s with flt := { s.flt with poison := tput 0 s.flt.poison k (sramSyndrome p e) } } else s)
    | r => r
  match err with
  | some e =>
    let w := off / 8 + e.addr % 3
    look (e.addr % 3) ⟨w, if e.reached = e.addr then w else e.reached, e.flips⟩ s
  | none =>
    match [0, 1, 2].find? (fun i => decide (tget 0 s.flt.poison (storeKey a (off + 8 * i)) ≠ 0)) with
    | some i => look i ⟨off / 8 + i, off / 8 + i, []⟩ s
    | none => (false, s)

end Sys2Proof.Machine
end

