-- ==== Sys2Proof/Machine/Faults.lean ====
section
/-!
DEFINITION. Sys2Proof/Machine/Faults.lean: the dual-rail reports (R389), fault events, quiet periods and back-off (R385, R386), the
fault registers' actions (R392, R394, R397), uncorrectable errors of the cores (R391).
-/
namespace Sys2Proof.Machine
open Reg

/-- A dual-rail source's bit in RST_GRAVE. -/
def railIx : RailSource → Nat
  | .motion => 0 | .assay => 1 | .feeds => 2 | .loader => 3 | .fabric => 4

def railField : RailSource → Field
  | .motion => RST_GRAVE_MOTION | .assay => RST_GRAVE_ASSAY | .feeds => RST_GRAVE_FEEDS | .loader => RST_GRAVE_LOADER
  | .fabric => RST_GRAVE_FABRIC

/-- The fault register set of a dual-rail source's own block. -/
def railFb : RailSource → Option Nat
  | .motion => none | .assay => some 0x1EFC00 | .feeds => some 0x2FC00 | .loader => some 0x1FFC00 | .fabric => some 0x3FC00

/-- R389, R390, R398: a report or a broken wire that has held for 200 ns: latched, recorded, and a halt with cause 0x09 unless the
power-fail sequence runs. -/
def railOp (src : RailSource) (wire : Bool) (cause : Nat) (s : State) : State :=
  let s := wr rstB (railField src) 1 s
  let s := when wire (wr rstB RST_GRAVE_WIRE (setBit (rd s rstB RST_GRAVE_WIRE) (railIx src) true)) s
  let s := hist 0x1FC00 { code := if wire then 0x0C else 0x0B, unit := railIx src, cls := 4 } s
  let s := match railFb src with
    | some fb => if wire then s else hist fb { code := 0x0B, cls := 4, detail := cause } s
    | none => s
  if s.pwr.failing then s else assertReset .halt 9 s

def execDualRailReport (src : RailSource) (wire : Bool) (cause : Nat) (s : State) : Res State :=
  run .always (railOp src wire cause) s

/-- The actuator whose fault register set this is. -/
def actOfFb (fb : Nat) : Option Nat := if 0x100000 ≤ fb ∧ fb < 0x130000 then some ((fb - 0x100000) / 0x1000) else none

/-- R79: at every fault event of an actuator whose fault line is low, PRE_STATUS is read and written back, which may release the line. -/
def clearPre (fb : Nat) (status : ReadTry) (stillLow : Bool) (s : State) : State :=
  match actOfFb fb with
  | none => s
  | some a =>
    if flag s (portBase (portOfAct a)) (fltField a) then
      when (!stillLow) (fltOver a) (statusTry a status stillLow s)
    else s

/-- R385, R398: a fault event, or a whole second of a persisting condition, of a unit in its fault state. -/
def persistOp (b : Block) (u : Nat) (status : ReadTry) (stillLow : Bool) (s : State) : State :=
  let fb := fbAt b
  if (unitOf s fb u).inFault then clearPre fb status stillLow (lastingFault fb u (unitOf s fb u).cause s) else s

def execPersistingFaultEvent (b : Block) (unit : Nat) (status : ReadTry) (stillLow : Bool) (s : State) : Res State :=
  run .motion (persistOp b unit status stillLow) s

/-- R385, R388: a quiet period has ended without a further event; a Block-class fault state has none (R435). -/
def quietOp (b : Block) (u : Nat) (s : State) : State :=
  let fb := fbAt b
  let x := unitOf s fb u
  if x.inFault && dataPath fb then
    let s := reach x.quietEnd s
    unitUp fb u (faultExit fb u x.r s)
  else s

def execQuietPeriodEnd (b : Block) (unit : Nat) (s : State) : Res State := run .motion (quietOp b unit) s

/-- R386: 600 s out of its fault state return a unit to r = 0. -/
def backoffOp (b : Block) (u : Nat) (s : State) : State :=
  let fb := fbAt b
  let x := unitOf s fb u
  match x.lastExit with
  | none => s
  | some t =>
    if x.inFault then s
    else syncUnits fb (modUnit fb u (fun x => { x with r := 0, lastExit := none }) (reach (t + secs 600) s))

def execBackoffReset (b : Block) (unit : Nat) (s : State) : Res State := run .motion (backoffOp b unit) s

/-- R392: FLT_REACT written. -/
def execFltReactWrite (p : Path) (b : Block) (v : Word) (s : State) : Res State :=
  runWrite p (fbAt b + 0xC) v.toNat (checkedWrite p (fbAt b + 0xC) v.toNat) s

/-- FLT_HIST_CTL written (R394): CLEAR empties the queue, TOTAL takes the value. -/
def histCtlOp (fb v : Nat) (s : State) : State :=
  let s := plainWrite (fb + 0x18) v s
  if bitOf v 8 then
    let s := keepRegs (fun k => !decide (fb + 0x100 ≤ keyAddr k ∧ keyAddr k < fb + 0x300)) s
    wr fb FLT_HIST_CTL_NEXT 0 s
  else s

def execFltHistClear (p : Path) (b : Block) (s : State) : Res State :=
  runWrite p (fbAt b + 0x18) 0x100 (histCtlOp (fbAt b) 0x100) s

/-- FLT_MEM_SEL written (R397): LOG_CLEAR empties the log of the memory selected. -/
def memSelOp (fb v : Nat) (s : State) : State :=
  let s := plainWrite (fb + 0x1C) v s
  if bitOf v 16 then
    { s with flt := { s.flt with mems := tmod memLog0 s.flt.mems (fb * 16 + rd s fb FLT_MEM_SEL_MEM) (fun m => { m with log := [] }) } }
  else s

def execFltMemLogClear (p : Path) (b : Block) (s : State) : Res State :=
  let v := 0x10000 + rd s (fbAt b) FLT_MEM_SEL_MEM
  runWrite p (fbAt b + 0x1C) v (memSelOp (fbAt b) v) s

/-- FLT_MEM_COUNTS written: the counts of the selected memory. -/
def memCountsOp (fb v : Nat) (s : State) : State :=
  { s with flt := { s.flt with mems := tmod memLog0 s.flt.mems (fb * 16 + rd s fb FLT_MEM_SEL_MEM) (fun m => { m with ce := bitsOf v 0 16, ue := bitsOf v 16 16 }) } }

/-- R391: an uncorrectable error in a Teller's (units 0-15) or the Bursar's (unit 16) caches or register file. -/
def execCoreUncorrectableError (unit : Fin 17) (s : State) : Res State :=
  run .mgmt (lastingFault 0x1DFC00 unit.val 1) s

end Sys2Proof.Machine
end

