-- ==== Sys2Proof/Machine/Codeword.lean ====
section
/-!
DEFINITION. Sys2Proof/Machine/Codeword.lean: a sector as bits: payload, LDPC codeword, scrambler, the slot that the write path forms and its
precompensation (R97, R98, R101, R103, R104); soft values and the lanes' layered offset min-sum decoder (R95, R96, R103, R105, R110).
-/
namespace Sys2Proof.Machine

/-! ### The write path -/

/-- R101: bit b of a payload is bit b mod 8 of byte b / 8. -/
def bytesBits (p : List (BitVec 8)) : List Nat := p.flatMap (fun b => (List.range 8).map (fun i => b.toNat / 2 ^ i % 2))

/-- R103: the scrambler's sequence over a codeword. -/
def scrambler : List Nat := scrBits 36992 (2 ^ 31 - 1)

/-- R103: codeword bits XORed with the scrambler's sequence. -/
def scramble (bits : List Nat) : List Nat := List.zipWith (fun a b => (a + b) % 2) bits scrambler

/-- R98: `n` bits of the 2T pattern 1100 repeated. -/
def pattern2T (n : Nat) : List Nat := (List.range n).map (fun i => if i % 4 < 2 then 1 else 0)

/-- R98: a mark, its bit 31 first. -/
def markBits (m : Nat) : List Nat := (List.range 32).map (fun i => m / 2 ^ (31 - i) % 2)

/-- R98: the 38,240 bits of a slot that carries a payload. -/
def slotBits (payload : List (BitVec 8)) : List Nat :=
  pattern2T 480 ++ markBits mark1 ++ pattern2T 64 ++ markBits mark2 ++ scramble (ldpcEncode (bytesBits payload)) ++ pattern2T 64 ++ pattern2T 576

/-- R97: how late, in 1/64 bit, each bit's transition is written: `t2`, `t1` say whether the two bits before bore transitions, `prev` is the
bit before. -/
def precomp (near far : Nat) : List Nat → Nat → Bool → Bool → List Nat
  | [], _, _, _ => []
  | b :: bs, prev, t1, t2 =>
    let t := decide (b ≠ prev)
    (if t then (if t1 then near else if t2 then far else 0) else 0) :: precomp near far bs b t t1

/-- R97: the late shifts of a slot's bits; the slot begins in a gap of 2T, which ends in 0. -/
def slotShifts (near far : Nat) (bits : List Nat) : List Nat := precomp near far bits 0 false false

/-! ### Soft values -/

/-- An integer limited to [-m, m]. -/
def satTo (m : Int) (v : Int) : Int := if v < -m then -m else if m < v then m else v

/-- R96, R110: the sum of two soft words, saturated at ±127; a word that framed nothing adds nothing. -/
def softAdd (a b : List Int) : List Int :=
  if a = [] then b else if b = [] then a else List.zipWith (fun x y => satTo 127 (x + y)) a b

/-- The hard decision of a soft value: a positive one favours a stored 0 (R95), and so does an erased one (notes/assumptions/22.md). -/
def hardBit (v : Int) : Nat := if v < 0 then 1 else 0

/-- R103: the decoder reverses the sign of each soft value whose scrambler bit is 1. -/
def descramble (w : List Int) : List Int := List.zipWith (fun v b => if b = 1 then -v else v) w scrambler

/-- R100: the codeword's soft values framed from an offset `d` of a mark: bit 0 lies at E + d + 128. -/
def frameWord (soft : Nat → Int) (e : Nat) (d : Int) : List Int :=
  descramble ((List.range 36992).map (fun (b : Nat) => soft ((e : Int) + d + 128 + (b : Int)).toNat))

/-! ### Layered offset min-sum (R105) -/

/-- A decoder's state while a lane works on it. -/
structure LaneSt where
  post : Array Int
  msgs : Array (List Int)
  deriving DecidableEq, Repr

/-- A fresh decode of a word (R110: afresh). -/
def decFresh (w : List Int) : DecSt := ⟨w, []⟩

/-- The smallest magnitude, its place, and the smallest of the others. -/
def twoLeast : List Int → Nat → Nat × Nat × Nat → Nat × Nat × Nat
  | [], _, acc => acc
  | q :: qs, i, (m1, k, m2) =>
    let m := q.natAbs
    twoLeast qs (i + 1) (if m < m1 then (m, i, m1) else if m < m2 then (m1, k, m) else (m1, k, m2))

/-- One check's new messages: the product of the other bits' signs with the least of their magnitudes, less the offset. -/
def checkOut (off : Nat) (qs : List Int) : List Int :=
  let (m1, k, m2) := twoLeast qs 0 (2 ^ 30, 0, 2 ^ 30)
  let odd := decide ((qs.countP (fun q => decide (q < 0))) % 2 = 1)
  qs.mapIdx (fun i q =>
    let mag : Int := ((if i = k then m2 else m1) - off : Nat)
    if odd ≠ decide (q < 0) then -mag else mag)

/-- One check of a layer. -/
def checkStep (off r : Nat) (row : List (Nat × Nat)) (st : LaneSt) (x : Nat) : LaneSt :=
  let vs := ldpcVars row r x
  let old := (st.msgs.getD (128 * r + x) [])
  let qs := vs.mapIdx (fun i v => st.post.getD v 0 - old.getD i 0)
  let new := checkOut off qs
  { post := (vs.zip (List.zipWith (· + ·) qs new)).foldl (fun p e => p.setIfInBounds e.1 e.2) st.post
    msgs := st.msgs.setIfInBounds (128 * r + x) new }

/-- Every check is satisfied by the hard decisions. -/
def checksHold (post : Array Int) : Bool :=
  (List.range 32).all (fun r =>
    let row := ldpcRow r
    (List.range 128).all (fun x => decide ((ldpcVars row r x).foldl (fun acc v => acc + hardBit (post.getD v 0)) 0 % 2 = 0)))

/-- The layers of one iteration, which stops as soon as every check is satisfied at the end of a layer. -/
def layers (off : Nat) : List Nat → LaneSt → Bool × LaneSt
  | [], st => (false, st)
  | r :: rs, st =>
    let st := (List.range 128).foldl (checkStep off r (ldpcRow r)) st
    if checksHold st.post then (true, st) else layers off rs st

/-- Up to `n` iterations: whether the word converged, how many were begun, the state. -/
def iterate (off : Nat) : Nat → Nat → LaneSt → Bool × Nat × LaneSt
  | 0, used, st => (false, used, st)
  | n + 1, used, st =>
    match layers off (List.range 32) st with
    | (true, st) => (true, used + 1, st)
    | (false, st) => iterate off n (used + 1) st

/-- What a lane makes of a decoder state in up to `n` iterations: convergence, the iterations, the state, the 4,112 payload bytes. -/
structure Decoded where
  converged : Bool
  iters : Nat
  st : DecSt
  payload : List (BitVec 8)
  deriving DecidableEq, Repr

/-- Bytes of the hard decisions of the information part (R101). -/
def hardBytes (post : List Int) : List (BitVec 8) :=
  let a := post.toArray
  (List.range 4112).map (fun k => BitVec.ofNat 8 ((List.range 8).foldl (fun acc i => acc + hardBit (a.getD (8 * k + i) 0) * 2 ^ i) 0))

/-- R105, R106: a lane runs a decoder for up to `n` iterations. -/
def laneDecode (st : DecSt) (n : Nat) : Decoded :=
  let msgs := if st.msgs = [] then Array.replicate 4096 [] else st.msgs.toArray
  let (ok, used, e) := iterate Config.minSumOffset n 0 ⟨st.post.toArray, msgs⟩
  ⟨ok, used, ⟨e.post.toList, e.msgs.toList⟩, hardBytes e.post.toList⟩

/-- R114: how many hard decisions of the detector the decoder changed. -/
def flipped (word post : List Int) : Nat := (List.zip word post).countP (fun e => decide (hardBit e.1 ≠ hardBit e.2))

end Sys2Proof.Machine
end

