-- ==== Sys2Proof/Machine/FetchOps.lean ====
section
/-!
DEFINITION. Sys2Proof/Machine/FetchOps.lean: Pool bytes and segments by cell (R244, R251), the withdrawal of a sequencer item and its
decode jobs (R109, R193), and the reads of a fetch: read-around, exhausted and lost positions, the completion of a Retrieve
(R20, R234-R238, R297).
-/
namespace Sys2Proof.Machine
open Reg

/-! ### Pool bytes and segments -/

/-- A Pool byte. A byte that nothing has written reads 0 (notes/assumptions/8.md). -/
def poolByte (s : State) (addr : Nat) : Byte := tget 0 s.pool.mem addr

/-- Store bytes in a table of bytes from an address on. -/
def putBytes : List Byte → Nat → Table (BitVec 8) → Table (BitVec 8)
  | [], _, t => t
  | b :: bs, a, t => putBytes bs (a + 1) (tput 0 t a b)

/-- Store bytes in the Pool from an address on. -/
def poolPut (addr : Nat) (bs : List Byte) (s : State) : State :=
  { s with pool := { s.pool with mem := putBytes bs addr s.pool.mem } }

/-- Codewords that a write fills whole lose their poison. -/
def unpoisonRange (a n : Nat) (s : State) : State :=
  { s with pool := { s.pool with poison := s.pool.poison.filter (fun e => !decide (a ≤ e.1 * 16 ∧ e.1 * 16 + 16 ≤ a + n)) } }

/-- Store bytes as a writer does that fills codewords whole: fresh codes. -/
def poolFill (addr : Nat) (bs : List Byte) (s : State) : State := unpoisonRange addr bs.length (poolPut addr bs s)

/-- Read bytes of the Pool. -/
def poolBytes (s : State) (addr n : Nat) : List Byte := (List.range n).map (fun i => poolByte s (addr + i))

/-- R244: the address of segment `e`. -/
def segAddr (e : Nat) : Nat := 0xFA0000000 + e * 0x100000

/-- The directory entry of a cell. -/
def segOf (s : State) (c : CellPlace) : Option (Nat × Seg) :=
  s.pool.segs.find? (fun e => decide (e.2.act = c.act) && decide (e.2.reach = c.reach) && decide (e.2.slot = c.slot))

/-- The place of a member's cell is resident: its segment holds the cell (R253). -/
def cellReady (s : State) (sid m : Nat) : Bool :=
  match memberPlace s sid m with
  | none => false
  | some c => match segOf s c with
    | none => false
    | some e => decide (e.2.state ≠ .filling)

/-- The Reservoir answers reads: it is in service, or out of service but readable (R282). -/
def rsvServes (s : State) : Bool := flag s rsvB RSV_STATUS_READY || flag s rsvB RSV_STATUS_READ_ONLY

/-- R19: a member whose cell the Reservoir holds, in staging or as a clean copy. -/
def cellInRsv (s : State) (sid m : Nat) : Bool :=
  match memberPlace s sid m with
  | none => false
  | some c => rsvServes s && (s.rsv.staged ++ s.rsv.clean).any (fun e => decide (e.1 = cellKey c))

/-! ### Results and withdrawals -/

/-- Record a result in the run and in the result map (R193). A converged re-read of a relocated slot stands for the logical slot. -/
def runResult (a tag sector code : Nat) (s : State) : State :=
  modAct a (fun x =>
    let mine := match x.cur with | some i => decide (i.tag = tag) | none => decide (tag = 65536)
    match x.run with
    | some r => if mine then { x with run := some { r with results := tins r.results sector code } } else x
    | none => x) s

/-- The result map byte of a read sector (R183, R193). -/
def mapByte (a tag sector code : Nat) (s : State) : State :=
  match (actOf s a).cur with
  | some i => if i.tag = tag ∧ i.sector ≤ sector ∧ sector < i.sector + i.count then poolPut (i.resultMap + (sector - i.sector)) [BitVec.ofNat 8 code] s else s
  | none => s

/-- CH_LAST_SECTOR (R111): the marks, the result, the iterations of all framings. -/
def showSector (j : Job) (code : Nat) (s : State) : State :=
  let b := actBase j.act
  let pos (m : Option (Int × Nat)) := match m with | some e => toBits 5 e.1 | none => 0
  let dist (m : Option (Int × Nat)) := match m with | some e => e.2 | none => 0
  let s := wr b CH_LAST_SECTOR_MARK1_POS (pos j.m1) (setF b CH_LAST_SECTOR_MARK1_FOUND j.m1.isSome s)
  let s := wr b CH_LAST_SECTOR_MARK2_POS (pos j.m2) (setF b CH_LAST_SECTOR_MARK2_FOUND j.m2.isSome s)
  let s := wr b CH_LAST_SECTOR_MARK1_DIST (dist j.m1) (wr b CH_LAST_SECTOR_MARK2_DIST (dist j.m2) s)
  let s := wr b CH_LAST_SECTOR_RESULT code (wr b CH_LAST_SECTOR_ITERATIONS (min 255 j.iters) s)
  setF b CH_LAST_SECTOR_FROM_MARK2 j.fromMark2 s

/-- R184: the item's final code of a sector. -/
def itemCode (a tag sector code : Nat) (s : State) : State :=
  modAct a (fun x => match x.cur with
    | some i => if i.tag = tag then { x with curCodes := tins x.curCodes sector code } else x
    | none => x) s

/-- R193, R184: a read sector's code reaches the run, the result map and the item. A relocated copy stands for its logical sector once it is
good, and leaves the original's code where it fails (R209). -/
def readCode (j : Job) (code : Nat) (s : State) : State :=
  let own (s : State) := itemCode j.act j.tag j.sector code (mapByte j.act j.tag j.sector code (runResult j.act j.tag j.sector code s))
  if j.slot = j.sector then own s
  else
    let s := runResult j.act j.tag (2 ^ 20 + j.sector) code s
    if code ≤ 3 then own s else s

/-- R115: the rewrite queue's entry of a verify job. -/
def rewriteOf (j : Job) (code : Nat) : Rewrite := ⟨j.sector, j.slot, code, j.wseq.getD 0⟩

/-- A job of an item is reported WITHDRAWN (R109); a written sector whose verify job is withdrawn fails read-after-write (R114). -/
def reportWithdrawn (j : Job) (s : State) : State :=
  let s := incF dpB DP_COUNTS_B_WITHDRAWN (showSector j 13 s)
  if j.cls = .verify then syncAct j.act (rewriteAdd j.act j.reach (rewriteOf j 13) (runResult j.act j.tag j.slot 13 s))
  else readCode j 13 s

/-- R109, R193: withdraw the jobs of an item over sectors that `p` accepts: a queued job is dropped at once, a running one at its end. -/
def withdrawJobs (a tag : Nat) (p : Nat → Nat → Bool) (s : State) : State :=
  let mine (j : Job) := decide (j.act = a) && decide (j.tag = tag) && p j.reach j.sector
  let d := s.dec
  let gone := (d.first ++ d.deep).filter mine
  let d := { d with first := d.first.filter (fun j => !mine j), deep := d.deep.filter (fun j => !mine j), sums := d.sums.filter (fun j => !mine j) }
  let d := { d with lanes := d.lanes.map (fun e : Nat × Job => if mine e.2 then (e.1, { e.2 with withdrawn := true }) else e) }
  syncDecode a (forEach gone reportWithdrawn { s with dec := d })

/-- The firmware's read items move up into a work queue that has room. -/
def refillWork (a : Nat) (s : State) : State :=
  syncAct a (modAct a (fun x => let n := 16 - x.work.length; { x with work := x.work ++ x.backlog.take n, backlog := x.backlog.drop n }) s)

/-- The firmware queues an item on an actuator (R183), behind those that wait for room. -/
def queueItem (a : Nat) (i : Item) (s : State) : State := refillWork a (modAct a (fun x => { x with backlog := x.backlog ++ [i] }) s)

/-- R193, R202: withdraw the item of An with a TAG whose first sector `p` accepts: a queued one completes with 0x05, the running one has its
jobs withdrawn. -/
def withdrawItem (a tag : Nat) (p : Nat → Nat → Bool) (s : State) : State :=
  let mine (i : Item) := decide (i.tag = tag) && p i.reach i.sector
  let s := modAct a (fun x => { x with backlog := x.backlog.filter (fun i => !mine i) }) s
  match (actOf s a).work.find? mine with
  | some i => refillWork a (syncAct a (post a tag 5 (modAct a (fun x => { x with work := x.work.erase i }) s)))
  | none => match (actOf s a).cur with
    | some i => if mine i then withdrawJobs a tag p (modAct a (fun x => { x with cur := some { i with withdrawn := true } }) s) else s
    | none => s

/-! ### Read-around (R234-R237) -/

def fetchOf (s : State) (tag : Nat) : Option Fetch := s.str.fetches.find? (fun f => decide (f.tag = tag))

def modFetch (tag : Nat) (g : Fetch → Fetch) (s : State) : State :=
  { s with str := { s.str with fetches := s.str.fetches.map (fun f => if f.tag = tag then g f else f) } }

/-- Sector i of a member is good: its cell is resident, or its result was 0-3, or it was rebuilt. -/
def isGood (s : State) (f : Fetch) (sid m i : Nat) : Bool :=
  f.good.contains (sid, m, i) || f.rebuilt.contains (sid, m, i) || cellReady s sid m

def isAsked (f : Fetch) (sid m i : Nat) : Bool := f.asked.any (fun x => decide (x.sid = sid) && decide (x.member = m) && decide (x.first ≤ i))

def isBad (f : Fetch) (sid m i : Nat) : Bool := f.bad.contains (sid, m, i)

/-- How many members a stripe has. -/
def stripeWidth (s : State) (sid : Nat) : Nat := match stripeOf s sid with | some r => r.j + r.m | none => 0
def stripeData (s : State) (sid : Nat) : Nat := match stripeOf s sid with | some r => r.j | none => 0

/-- R235: the members whose sector i is good; those that the Reservoir holds count too (R19). -/
def goodCount (s : State) (f : Fetch) (sid i : Nat) : Nat := (List.range (stripeWidth s sid)).countP (fun m => isGood s f sid m i || cellInRsv s sid m)

def outstanding (s : State) (f : Fetch) (sid i : Nat) : Nat :=
  (List.range (stripeWidth s sid)).countP (fun m => isAsked f sid m i && !isBad f sid m i && !isGood s f sid m i && !cellInRsv s sid m)

/-- R235: the next member of sources that has not been asked for sector i. -/
def nextSource (s : State) (f : Fetch) (sid i : Nat) : Option Nat :=
  (List.range (stripeWidth s sid)).find? (fun m => memberUp s sid m && !isAsked f sid m i && !isGood s f sid m i && !cellInRsv s sid m)

/-- A read item over `n` sectors from sector i of a member's cell, with deadline DL (R234): the fetch's tag, library entry 1, the Pool place of
the cell's segment, or a buffer of the firmware's where it has none. Channel, buffer and result map are free values (DESIGN CHOICE,
notes/assumptions/29.md). -/
def readItem (s : State) (tag i n v w : Nat) (combine : Bool) (c : CellPlace) : Item :=
  let pool := match segOf s c with | some e => segAddr e.1 + 4096 * i | none => v % 0xFA0000 * 4096
  { tag := tag, entry := 1, reach := c.reach, sector := c.slot + i, count := n, deadline := rd s srB SR_RA_DEADLINE, pool := pool, mover := v % 32,
    resultMap := w % 2 ^ 36, wseq := (c.slot + i + (ledEntry s c.act c.reach).gen * 2 ^ 24) % 2 ^ 32, combine := combine, withdrawn := false }

def queueRead (tag sid m i n : Nat) (combine : Bool) (s : State) : State :=
  match memberPlace s sid m with
  | none => s
  | some c =>
    let (v, s) := takeFree s
    let (w, s) := takeFree s
    queueItem c.act (readItem s tag i n v w combine c) s

/-- R235: member m is read from sector i to the end of its cell. -/
def askRead (tag sid i : Nat) (m : Nat) (s : State) : State :=
  queueRead tag sid m i (256 - i) false (modFetch tag (fun f => { f with asked := f.asked ++ [⟨sid, m, i, now s⟩] }) s)

/-- R237: with position i exhausted, each member that is bad there is read again with COMBINE, until its combined reads are used up. -/
def reReads (tag sid i : Nat) (s : State) : State :=
  match fetchOf s tag with
  | none => s
  | some f =>
    let todo := (List.range (stripeWidth s sid)).filter (fun m =>
      isBad f sid m i && memberUp s sid m && !isGood s f sid m i && !f.rereads.contains (sid, m, i) && !f.spent.contains (sid, m, i))
    if f.exhausted.contains (sid, i) then
      forEach todo (fun m s => queueRead tag sid m i 1 true (modFetch tag (fun f => { f with rereads := f.rereads ++ [(sid, m, i)] }) s)) s
    else s

/-- R235's inner loop: ask further members until j are good or outstanding, or the position is exhausted. -/
def askMore (tag sid i : Nat) : Nat → State → State
  | 0, s => s
  | n + 1, s =>
    match fetchOf s tag with
    | none => s
    | some f =>
      if stripeData s sid ≤ goodCount s f sid i + outstanding s f sid i then s
      else match nextSource s f sid i with
        | some m => askMore tag sid i n (askRead tag sid i m s)
        | none => reReads tag sid i (if f.exhausted.contains (sid, i) then s else modFetch tag (fun f => { f with exhausted := f.exhausted ++ [(sid, i)] }) s)

/-- R238, R297: the status of a fetch that cannot go on. -/
def endFetch (f : Fetch) (status : Nat) (s : State) : State :=
  let s := { s with str := { s.str with fetches := s.str.fetches.filter (fun g => decide (g.tag ≠ f.tag)) } }
  let o := s.obj
  let keep (l : Lock) := !(decide (l.ticket = f.tag))
  let s := syncLocks { s with obj := { o with locks := o.locks.filter keep } }
  complete f.cmd status 0 0 s

/-- R235: with j members good at i and a data sector bad there, the engine rebuilds. -/
def rebuildIfGood (tag sid i : Nat) (s : State) : State :=
  match fetchOf s tag with
  | none => s
  | some f =>
    let j := stripeData s sid
    if j ≤ goodCount s f sid i ∧ (List.range j).any (fun c => f.need.contains (sid, c) && !isGood s f sid c i && !cellInRsv s sid c && (isBad f sid c i || !memberUp s sid c)) = true then
      if enginesOut s then endFetch f 0xC3 s else addEngineJob ⟨1, .readAround tag sid i⟩ s
    else s

/-- The Pool bytes of an object's range, cell by cell; a cell without a segment gives the bytes the object was stored with. -/
def objectByte (s : State) (o : Obj) (x : Nat) : Byte :=
  let stored := o.value.getD x 0
  match locate o.stripes x with
  | none => stored
  | some (r, c) => match r.places.getD c none with
    | none => stored
    | some p => match segOf s p with
      | some e => poolByte s (segAddr e.1 + x % 2 ^ 20)
      | none => stored

/-- Bytes [lo, hi) of an object as the Pool holds them. -/
def objectBytes (s : State) (o : Obj) (lo n : Nat) : List Byte := (List.range n).map (fun i => objectByte s o (lo + i))

/-- R20, R297: every span that the range touches matches its hash. -/
def spansMatch (s : State) (o : Obj) (lo n : Nat) : Bool :=
  o.spans.all (fun sp => decide (sp.offset + sp.len ≤ lo ∨ lo + n ≤ sp.offset) || decide (sha256 (objectBytes s o sp.offset sp.len) = sp.hash))

/-- R233: bytes that the hash lanes hash. -/
def hashCount (n : Nat) (s : State) : State := pairAdd 0x150100 n s

/-- R297: a Retrieve sends its bytes once every span it touches has matched, or fails with Fixity Mismatch (R20). -/
def sendValue (c : Sqe) (o : Obj) (offset len : Nat) (s : State) : State :=
  let s := hashCount ((o.spans.filter (fun sp => !decide (sp.offset + sp.len ≤ offset ∨ offset + len ≤ sp.offset))).foldl (fun n sp => n + sp.len) 0) s
  if spansMatch s o offset len then
    let size := o.value.length
    let s := send (.data c (objectBytes s o offset len)) s
    let s := { s with obj := { s.obj with readBytes := s.obj.readBytes + len } }
    complete c 0 (size % 2 ^ 32) (size / 2 ^ 32) s
  else
    let s := incF srB HASH_MISMATCH_FETCHES s
    complete c 0xC0 0 0 s

/-- A member is complete: every sector of its cell is good. -/
def memberDone (s : State) (f : Fetch) (sid m : Nat) : Bool := (List.range 256).all (fun i => isGood s f sid m i)

/-- R235: a member whose data sectors are all good needs no further read: its item is withdrawn. -/
def memberEnd (tag sid m : Nat) (s : State) : State :=
  match fetchOf s tag, memberPlace s sid m with
  | some f, some c =>
    if memberDone s f sid m then withdrawItem c.act tag (fun r p => decide (r = c.reach ∧ c.slot ≤ p ∧ p < c.slot + 256)) s else s
  | _, _ => s

/-- A fetch with every needed data cell good completes its Retrieve. -/
def fetchEnd (tag : Nat) (s : State) : State :=
  match fetchOf s tag with
  | none => s
  | some f =>
    if f.need.all (fun x => memberDone s f x.1 x.2) then
      match objOf s f.obj with
      | none => endFetch f 0x88 s
      | some o =>
        let s := { s with str := { s.str with fetches := s.str.fetches.filter (fun g => decide (g.tag ≠ tag)) } }
        let s := syncLocks { s with obj := { s.obj with locks := s.obj.locks.filter (fun l => decide (l.ticket ≠ tag)) } }
        sendValue f.cmd o f.offset f.len s
    else s

/-- R237: an exhausted position is lost once every member that is bad there has used up its combined reads. -/
def lostCheck (tag sid i : Nat) (s : State) : State :=
  match fetchOf s tag with
  | none => s
  | some f =>
    let bad := (List.range (stripeWidth s sid)).filter (fun m => isBad f sid m i && memberUp s sid m)
    if f.exhausted.contains (sid, i) && bad.all (fun m => f.spent.contains (sid, m, i)) && decide (goodCount s f sid i < stripeData s sid) then
      endFetch f 0x88 (incF srB SR_COUNTS_A_RA_LOST s)
    else s

/-- R235: a sector is marked bad, and further members are asked. -/
def sectorBad (tag sid m i : Nat) (s : State) : State :=
  match fetchOf s tag with
  | none => s
  | some f =>
    if isGood s f sid m i then s
    else
      let s := if isBad f sid m i then s else modFetch tag (fun f => { f with bad := f.bad ++ [(sid, m, i)] }) s
      lostCheck tag sid i (rebuildIfGood tag sid i (askMore tag sid i (stripeWidth s sid + 1) s))

/-- R235, R236: a sector of a member has a good result. One that converges after its rebuild counts as a late decode. -/
def sectorGood (tag sid m i : Nat) (s : State) : State :=
  match fetchOf s tag with
  | none => s
  | some f =>
    let s := when (f.rebuilt.contains (sid, m, i) && !f.good.contains (sid, m, i)) (incF srB SR_COUNTS_B_LATE_DECODES) s
    let s := if f.good.contains (sid, m, i) then s else modFetch tag (fun f => { f with good := f.good ++ [(sid, m, i)] }) s
    fetchEnd tag (memberEnd tag sid m (rebuildIfGood tag sid i s))

/-- The member of a fetch's stripes whose cell contains a slot. -/
def fetchMember (s : State) (f : Fetch) (a reach slot : Nat) : Option (Nat × Nat × Nat) :=
  let hit (x : Nat × Nat) : Option (Nat × Nat × Nat) :=
    match memberPlace s x.1 x.2 with
    | some c => if c.act = a ∧ c.reach = reach ∧ c.slot ≤ slot ∧ slot < c.slot + 256 then some (x.1, x.2, slot - c.slot) else none
    | none => none
  let members := (f.need.map Prod.fst).eraseDups.flatMap (fun sid => (List.range (stripeWidth s sid)).map (fun m => (sid, m)))
  members.findSome? hit

/-- A result of an item's sector reaches the fetch that the item's TAG names. `spent` says that its combined reads are used up, `late` that it
is stamped at or after its deadline (R234): a late result counts once the deadline has marked the sector bad. -/
def fetchResult (a tag reach slot code : Nat) (spent late : Bool) (s : State) : State :=
  match fetchOf s tag with
  | none => s
  | some f =>
    match fetchMember s f a reach slot with
    | none => s
    | some (sid, m, i) =>
      if code ≤ 3 then sectorGood tag sid m i (when late (sectorBad tag sid m i) s)
      else
        let s := modFetch tag (fun f => { f with rereads := f.rereads.erase (sid, m, i) }) s
        let s := when spent (modFetch tag (fun f => { f with spent := f.spent ++ [(sid, m, i)] })) s
        sectorBad tag sid m i s

end Sys2Proof.Machine
end

