-- ==== Sys2Proof/Machine/TempOps.lean ====
section
/-!
DEFINITION. Sys2Proof/Machine/TempOps.lean: the temperatures of the HDAs, the Reservoir and the controller die, the composite temperature
(R81, R294), and what the hour and the minutes of R415 and R419 take from them.
-/
namespace Sys2Proof.Machine
open Reg

/-- R81, R80: an HDA's temperature in 1/16 °C: the environmental sensor's, or the mean of the two PRE_TEMP values while the sensor link
is in its fault state or the last reading was not valid. -/
def hdaTemp (s : State) (n : Nat) : Rat :=
  if (portOf s n).sensBad || (portOf s n).envInvalid then
    let pre (a : Nat) : Int := ofBits 16 (tget 0 (actOf s a).pre 7 % 65536)
    ((pre (actU n) : Rat) + pre (actL n)) / 2
  else (ofBits 16 (rd s (portBase n) HDA_ENV_TEMP) : Rat)

/-- The same in whole °C. -/
def hdaDegrees (s : State) (n : Nat) : Int := roundAway (hdaTemp s n / 16)

/-- The ports that are Online. -/
def onlinePorts (s : State) : List Nat := (List.range 24).filter (fun n => decide (portState s n = 4))

/-- The hottest HDA that is Online, in °C. -/
def hottestHda (s : State) : Int := (onlinePorts s).foldl (fun acc n => max acc (hdaDegrees s n)) (-128)

def rsvTemp (s : State) : Int := ofBits 8 (rd s rsvB RSV_HEALTH_TEMP_MAX)

/-- The controller die's hottest site as the Bursar last read it (R404); before that the free value `v`. -/
def dieTemp (s : State) (v : Nat) : Int :=
  match tfind s.bur.zone 1 with
  | some t => t
  | none => ofBits 8 (v % 256)

/-- °C in K. -/
def kelvin (c : Int) : Nat := (c + 273).toNat

/-- R294: the composite temperature, from that of the controller die. -/
def composite (s : State) (die : Int) : Int := max die (max (rsvTemp s) (hottestHda s))

/-- The composite temperature of what has been read: a die that has not been is left out. -/
def compositeNow (s : State) : Int := composite s ((tfind s.bur.zone 1).getD (-128))

/-- One HDA's part in the hour's extremes (R419). -/
def hourPort (s : State) (x : TempHour) (n : Nat) : TempHour :=
  let t := hdaDegrees s n
  let x := if x.hdaMax < t then { x with hdaMax := t, hottest := n } else x
  { x with hdaMin := min x.hdaMin t, humidity := max x.humidity (rd s (portBase n) HDA_ENV_HUMIDITY / 100) }

/-- R419: the present values join the extremes of the hour that runs. -/
def hourJoin (s : State) (x : TempHour) : TempHour :=
  let x := match tfind s.bur.zone 1 with
    | some t => { x with dieMax := max x.dieMax t, dieMin := min x.dieMin t }
    | none => x
  (onlinePorts s).foldl (hourPort s) { x with rsvMax := max x.rsvMax (rsvTemp s) }

/-- R415, R419: a temperature may have changed: the time at or above WCTEMP 358 K and CCTEMP 378 K goes on, and the hour's extremes
follow. -/
def tempTrack (s : State) : State :=
  let b := s.bur
  let past := match b.trackK with | some k => (k, now s - b.trackAt) | none => (0, 0)
  { s with bur := { b with
    warnTicks := if 358 ≤ past.1 then b.warnTicks + past.2 else b.warnTicks
    critTicks := if 378 ≤ past.1 then b.critTicks + past.2 else b.critTicks
    trackK := some (kelvin (compositeNow s)), trackAt := now s, hourNow := hourJoin s b.hourNow } }

end Sys2Proof.Machine
end

