-- ==== Sys2Proof/Machine/LedgerOps.lean ====
section
/-!
DEFINITION. Sys2Proof/Machine/LedgerOps.lean: what several families do to a reach: the slots that go onto it (R97, R98, R208), its header
(R210), its index journal (R211, R212), its write pointer (R207, R437), opening and closing (R215), admission of cells (R213), the store
reach (R230), relocations (R209), defect windows (R221), the pass in progress (R219).
-/
namespace Sys2Proof.Machine
open Reg

/-- The last slot of a reach. -/
def lastSlot : Nat := 1048575

/-! ### Journals -/

def journalOf (s : State) (a r : Nat) : List JEntry := tget [] s.led.journals (ledKey a r)

def setJournal (a r : Nat) (l : List JEntry) (s : State) : State :=
  { s with led := { s.led with journals := tput [] s.led.journals (ledKey a r) l } }

/-- R207: one slot at the write pointer has been started. The last slot leaves WP where it is and sets FULL. A cursor that an item has set to
the write pointer follows it (R187, R200). -/
def wpAdvance (a r : Nat) (s : State) : State :=
  let e := ledEntry s a r
  let follows := (actOf s a).cur.isSome && decide ((actOf s a).curReach = r) && decide (rd s (actBase a) AS_CURSOR_SECTOR = e.wp)
  let s := modEntry a r (fun e => if e.wp = lastSlot then e.flagSet fFull true else { e with wp := e.wp + 1 }) s
  when follows (showCursor a r (ledEntry s a r).wp) s

/-! ### What goes onto a slot -/

/-- R9: the 12 bytes of a full stamp: time, source, sequence. -/
def stampBytes (t : Stamp) : List Byte := leBytes 8 t.time ++ leBytes 2 t.src ++ leBytes 2 t.seq

/-- R97, R98, R101: the write path writes a slot that carries 4,096 user bytes, their tag and a write sequence. -/
def slotOut (a r slot wseq : Nat) (user : List Byte) (s : State) : State :=
  let b := actBase a
  let bits := slotBits (sectorPayload (fillTo 4096 user) a r slot wseq)
  send (.slot a bits (slotShifts (rd s b CH_WPC_SHIFT_NEAR) (rd s b CH_WPC_SHIFT_FAR) bits)) s

/-- R208: the write sequence of a sector of a KIND that is first written at a slot. -/
def wseqOf (e : LedEntry) (kind slot : Nat) : Nat := slot + kind * 2 ^ 20 + e.gen * 2 ^ 24

/-- A sector of a KIND is written at WP. -/
def kindSector (a r kind : Nat) (user : List Byte) (s : State) : State :=
  let e := ledEntry s a r
  wpAdvance a r (slotOut a r e.wp (wseqOf e kind e.wp) user s)

/-- The SHELF_ID of the configuration image. -/
def shelfId (s : State) : Nat := (List.range 4).foldr (fun i acc => rd s cfgB (CFG_SHELF_SHELF.ix i) + 2 ^ 32 * acc) 0

/-- R210: the bytes of a reach header. Its open stamp is that of the command or of the firmware that opened the reach. -/
def headerBytes (s : State) (a r : Nat) : List Byte :=
  let e := ledEntry s a r
  let l := layoutOf s a
  let (start, spt) := match reachPlace l r with | some (_, st, spt, _) => (st, spt) | none => (0, 0)
  leBytes 4 0x48524D4C ++ leBytes 2 2 ++ leBytes 1 (if bitOf e.flags fRetiring then 3 else 1) ++ leBytes 1 e.gen ++ leBytes 1 a
    ++ leBytes 1 e.temp ++ leBytes 2 r ++ stampBytes (tget ⟨0, 0, 0⟩ s.led.openStamps (ledKey a r)) ++ leBytes 16 (shelfId s)
    ++ leBytes 16 (idSerial s (portOfAct a)) ++ leBytes 4 start ++ leBytes 2 spt ++ leBytes 1 l.skew

/-- R210, R215: slot 0 of an Open reach takes the header before anything else is written there. -/
def headerFirst (a r : Nat) (s : State) : State :=
  let e := ledEntry s a r
  if e.state = 1 ∧ e.wp = 0 then kindSector a r 1 (headerBytes s a r) s else s

/-- R211: the 64 bytes of a journal entry. -/
def entryBytes (j : JEntry) : List Byte :=
  fillTo 64 (leBytes 1 j.kind ++ leBytes 1 j.key.length ++ fillTo 6 (j.geom.map (BitVec.ofNat 8)) ++ leBytes 4 j.a ++ leBytes 4 j.b
    ++ fillTo 16 j.key ++ leBytes 8 j.sid ++ leBytes 4 (j.sid % 2 ^ 24) ++ leBytes 4 0 ++ stampBytes j.stamp)

/-- R211: the bytes of a journal sector. -/
def journalBytes (prev : Nat) (t : Stamp) (l : List JEntry) : List Byte :=
  fillTo 64 (leBytes 4 0x4A524D4C ++ leBytes 4 prev ++ leBytes 4 l.length ++ stampBytes t) ++ l.flatMap entryBytes

/-- R211: a journal sector of KIND 2, or the closing one of KIND 3, goes to WP with the first 63 entries pending; it joins the chain. -/
def journalOut (a r kind : Nat) (s : State) : State :=
  let key := ledKey a r
  let slot := (ledEntry s a r).wp
  let l := (journalOf s a r).take 63
  let (t, s) := stamp (srcAct a) s
  let prev := tget 0 s.led.jslot key
  let s := setJournal a r ((journalOf s a r).drop 63) s
  let led := { s.led with jslot := tput 0 s.led.jslot key slot, chains := tput [] s.led.chains key (tget [] s.led.chains key ++ l) }
  kindSector a r kind (journalBytes prev t l) { s with led := led }

/-- R211, R212: write one journal sector at WP with at most 63 pending entries. -/
def journalSector (a r : Nat) (s : State) : State :=
  let s := headerFirst a r s
  let e := ledEntry s a r
  if e.state = 1 ∧ e.wp < lastSlot then journalOut a r 2 s else s

/-- Add an entry to a reach's pending journal; 63 pending entries are written at once (R212). -/
def addJournal (a r : Nat) (j : JEntry) (s : State) : State :=
  let s := setJournal a r (journalOf s a r ++ [{ j with since := now s }]) s
  if 63 ≤ (journalOf s a r).length then journalSector a r s else s

/-- Journal sectors until at most 63 entries are pending. -/
def journalDrain (a r : Nat) : Nat → State → State
  | 0, s => s
  | n + 1, s => if 63 < (journalOf s a r).length then journalDrain a r n (journalSector a r s) else s

/-- R437: the closing journal holds every entry still pending; the reach then leaves Open (R215). -/
def closeReach (a r : Nat) (s : State) : State :=
  if (ledEntry s a r).state = 1 then
    let s := headerFirst a r s
    let s := journalOut a r 3 (journalDrain a r ((journalOf s a r).length) s)
    modEntry a r (fun e => if e.state = 1 then { e with state := if bitOf e.flags fRetiring then 4 else 2 } else e) s
  else s

/-- R437: when WP reaches the last slot, the closing journal is written there at once. -/
def closeIfLast (a r : Nat) (s : State) : State :=
  let e := ledEntry s a r
  if e.state = 1 ∧ e.wp = lastSlot then closeReach a r s else s

/-! ### Opening -/

/-- R214: the write temperature of a port: its temperature rounded to 1 °C. -/
def writeTemp (s : State) (n : Nat) : Nat :=
  let v := hdaDegrees s n
  toBits 8 (if v < -128 then -128 else if 127 < v then 127 else v)

/-- R215: open a reach for a command; the open stamp is the requester's. -/
def openReach (a r src : Nat) (retiring : Bool) (s : State) : State :=
  let (t, s) := stamp src s
  let temp := writeTemp s (portOfAct a)
  let s := setJournal a r [] s
  let key := ledKey a r
  let led := { s.led with provData := s.led.provData.filter (fun e => decide (e.1 / 2 ^ 20 ≠ key)), relocs := tdel s.led.relocs key, jslot := tdel s.led.jslot key, chains := tdel s.led.chains key, openStamps := tput ⟨0, 0, 0⟩ s.led.openStamps key t, passes := s.led.passes.filter (fun e => !(decide (e.1 = a) && decide (e.2.reach = r))) }
  modEntry a r (fun e =>
    ⟨t.time / 2 ^ 24, 0, 1, temp, 0xFF, 0, 0, if retiring then 2 ^ fRetiring else 0, (e.gen + 1) % 256⟩) { s with led := led }

/-! ### Where new cells go (R213, R230) -/

/-- R213: a reach takes `n` more slots. -/
def admits (s : State) (a r n : Nat) : Bool :=
  let e := ledEntry s a r
  decide (e.state = 1) && !bitOf e.flags fRetiring && decide (e.wp + n + rd s ledB LEDGER_CFG_TAIL ≤ 1048576)

/-- The reaches of an actuator in ascending order whose entry satisfies `p`. -/
def reachesWith (s : State) (a : Nat) (p : LedEntry → Bool) : List Nat :=
  (s.led.entries.filter (fun e => decide (e.1 / 10240 = a) && p e.2)).map (fun e => e.1 % 10240)

/-- The Open reaches of an actuator that take cells. -/
def openReaches (s : State) (a : Nat) : List Nat := reachesWith s a (fun e => decide (e.state = 1) && !bitOf e.flags fRetiring)

/-- A reach holds a live cell: some stripe of a present object, or a state kept for undoing (R312), has a member there. -/
def liveOn (s : State) (a r : Nat) : Bool :=
  let on (o : Obj) := o.stripes.any (fun t => t.places.any (fun p => match p with | some c => decide (c.act = a ∧ c.reach = r) | none => false))
  s.obj.index.any (fun e => match objOf s e.obj with | some o => on o | none => false)
    || s.obj.undo.any (fun u => match u.before with | some b => on b.2 | none => false)

/-- Cells of the directory, or waiting for a segment, that are still to be written on a reach. -/
def unwritten (s : State) (a r : Nat) : Nat :=
  s.pool.waiting.countP (fun e => decide (e.act = a ∧ e.reach = r ∧ e.state = .dirty)) + s.pool.segs.countP (fun e => decide (e.2.act = a ∧ e.2.reach = r) && decide (e.2.state = .dirty ∨ e.2.state = .staged ∨ (e.2.state = .draining ∧ e.2.wasDirty = true)))

/-- R213, R230: the store reach of an actuator for `n` more slots: the Open reach that takes them beside its cells still to be written. -/
def storeReach (s : State) (a n : Nat) : Option Nat := (openReaches s a).find? (fun r => admits s a r (n + 256 * unwritten s a r))

/-- R230: the reach that is opened next: the lowest-numbered Empty one, else the lowest-numbered Filled one without a live cell. -/
def nextReach (s : State) (a : Nat) : Option Nat :=
  match (reachesWith s a (fun e => decide (e.state = 0))).head? with
  | some r => some r
  | none => (reachesWith s a (fun e => decide (e.state = 2))).find? (fun r => !liveOn s a r)

/-- R230: an actuator can take `n` slots: its store reach does, or it can open one. -/
def storeChoice (s : State) (a n : Nat) : Option Nat := (storeReach s a n).orElse (fun _ => nextReach s a)

/-- Some item of an actuator names a reach. -/
def reachNamed (s : State) (a r : Nat) : Bool :=
  let x := actOf s a
  x.work.any (fun i => decide (i.reach = r)) || (match x.cur with | some i => decide (i.reach = r) | none => false)

/-- R213: a reach in which no further cell fits is closed, once its assigned cells are written and no item names it. -/
def closeFull (a : Nat) (s : State) : State :=
  forEach (openReaches s a) (fun r s =>
    if admits s a r 256 || decide (unwritten s a r ≠ 0) || reachNamed s a r then s else closeReach a r s) s

/-- R216: before the firmware reopens or retires a reach, the delete entries of its journal whose objects still have cells on the shelf join
a pending journal elsewhere: that of an Open reach of the same HDA, else of any. Where none is Open they join the reach's own new journal
once it is open (DESIGN CHOICE, notes/assumptions/27.md). -/
def movedDeletes (s : State) (a r : Nat) : List JEntry :=
  let key := ledKey a r
  let all (k : Nat) := tget [] s.led.chains k ++ tget [] s.led.journals k
  let keys := ((s.led.chains.map Prod.fst) ++ (s.led.journals.map Prod.fst)).filter (fun k => decide (k ≠ key))
  (all key).filter (fun d => decide (d.kind = 3) && keys.any (fun k => (all k).any (fun e => decide (e.kind = 1 ∧ e.key = d.key))))

/-- An Open reach other than a given one: of the same HDA, else of any. -/
def otherOpen (s : State) (a r : Nat) : Option (Nat × Nat) :=
  let places (l : List Nat) := (l.flatMap (fun x => (openReaches s x).map (fun q => (x, q)))).filter (fun p => decide (p ≠ (a, r)))
  ((places [actU (portOfAct a), actL (portOfAct a)]) ++ places (List.range 48)).head?

/-- R214, R216: the firmware opens a reach, or opens it to retire it, with a Teller's stamp. -/
def firmwareOpen (a r : Nat) (retiring : Bool) (s : State) : State :=
  let moved := movedDeletes s a r
  let dest := (otherOpen s a r).getD (a, r)
  let (src, s) := tellerSrc s
  let add (s : State) := forEach moved (fun d => addJournal dest.1 dest.2 d) s
  if dest = (a, r) then add (openReach a r src retiring s) else openReach a r src retiring (add s)

/-- R230: make an actuator's store reach ready for `n` slots: close what is full, and open the next where none takes them. -/
def storeReady (a n : Nat) (s : State) : State :=
  let s := closeFull a s
  match storeReach s a n, nextReach s a with
  | none, some r => firmwareOpen a r false s
  | _, _ => s

/-- R212: the delete entries of an object: on one Open reach of each HDA that holds a cell of its first stripe. -/
def journalDelete (o : Obj) (st : Stamp) (s : State) : State :=
  match o.stripes with
  | [] => s
  | r :: _ =>
    let hdas := (r.places.filterMap (fun p => p.map (fun c => portOfAct c.act))).eraseDups
    forEach hdas (fun n s =>
      match ([actU n, actL n].flatMap (fun x => (openReaches s x).map (fun q => (x, q)))).head? with
      | some (x, q) => addJournal x q ⟨3, o.key, [], 0, 0, 0, st, 0⟩ s
      | none => s) s

/-! ### Relocations (R209) -/

def relocsOf (s : State) (a r : Nat) : List (Nat × Nat) := tget [] s.led.relocs (ledKey a r)

/-- A rewritten copy has passed: the relocation entry, the flag, the item's status. -/
def relocate (a r logical slot : Nat) (s : State) : State :=
  let (t, s) := stamp (srcAct a) s
  let l := (relocsOf s a r).filter (fun e => decide (e.1 ≠ logical)) ++ [(logical, slot)]
  let s := { s with led := { s.led with relocs := tput [] s.led.relocs (ledKey a r) l } }
  let s := modEntry a r (fun e => e.flagSet fRelocated true) s
  let s := modAct a (fun x => { x with curRewritten := true }) s
  addJournal a r ⟨2, [], [], logical, slot, 0, t, 0⟩ s

/-! ### Defect windows (R221) -/

/-- WINDOWS follows the table. -/
def syncDefects (s : State) : State :=
  let n := s.led.defects.length
  ledDirty (wr ledB LEDGER_DEF_STATUS_WINDOWS (if 16384 ≤ n then 0x7FFF else n) s)

/-- The order of windows: actuator, reach, slot, first bit. -/
def defectLt (x y : Defect) : Bool :=
  decide (x.act < y.act) || (decide (x.act = y.act) && (decide (x.reach < y.reach) || (decide (x.reach = y.reach) &&
    (decide (x.slot < y.slot) || (decide (x.slot = y.slot) && decide (x.bit < y.bit))))))

def defectIns (d : Defect) : List Defect → List Defect
  | [] => [d]
  | x :: xs => if defectLt d x then d :: x :: xs else x :: defectIns d xs

/-- R221: a window joins the table, and the journal of an Open reach. -/
def defectAdd (d : Defect) (s : State) : State :=
  if s.led.defects.contains d then s
  else if 16384 ≤ s.led.defects.length then wr ledB LEDGER_DEF_STATUS_FULL 1 s
  else
    let s := syncDefects { s with led := { s.led with defects := defectIns d s.led.defects } }
    if (ledEntry s d.act d.reach).state = 1 then
      let (t, s) := stamp (srcAct d.act) s
      addJournal d.act d.reach ⟨4, [], [], d.slot, d.bit + d.len * 2 ^ 16, 0, t, 0⟩ s
    else s

/-! ### Verifying passes (R219) -/

/-- The number of written slots of a reach (R207). -/
def writtenSlots (e : LedEntry) : Nat := if bitOf e.flags fFull then 1048576 else e.wp

/-- R219: an item of library entry 3 starts or continues the pass of its actuator. -/
def passItem (a r first : Nat) (s : State) : State :=
  let goes := match tfind s.led.passes a with
    | some p => decide (p.reach = r) && decide (p.next = first)
    | none => false
  if goes then s
  else
    let s := modEntry a r (fun e => { e with tally := 0 }) s
    { s with led := { s.led with passes := tins s.led.passes a ⟨r, 0, false⟩ } }

/-- R219: the end of a pass. -/
def passEnd (a r : Nat) (lost : Bool) (s : State) : State :=
  let margin := rd s ledB LEDGER_MARGIN_MARGIN_TALLY
  let s := { s with led := { s.led with passes := tdel s.led.passes a } }
  modEntry a r (fun e =>
    let bad := lost || decide (margin ≤ e.tally)
    let e := { e with days := 0 }
    let e := (e.flagSet fVerifyDue false).flagSet fVerified true
    let e := if bad then e.flagSet fRewriteDue true else e
    if e.state = 2 ∧ bitOf e.flags fRewriteDue = false then { e with state := 3 } else e) s

/-- R219: a verifying run of `n` slots from `first` has ended, with the codes of its slots. -/
def passRun (a r first n : Nat) (results : Table Nat) (s : State) : State :=
  match tfind s.led.passes a with
  | none => s
  | some p =>
    if p.reach = r ∧ p.next = first then
      let moved := relocsOf s a r
      let slots := (List.range n).map (fun i => first + i)
      let code (k : Nat) := tget 8 results k
      let copyOk (k : Nat) := moved.any (fun e => decide (e.1 = k) && decide (tget 8 results (2 ^ 20 + k) ≤ 3))
      let counts (k : Nat) := decide (code k = 2 ∨ code k = 3 ∨ 8 ≤ code k) && !copyOk k
      let s := modEntry a r (fun e => { e with tally := min 0xFFFF (e.tally + slots.countP counts) }) s
      let lost := p.lost || slots.any (fun k => decide (8 ≤ code k) && !copyOk k)
      let s := { s with led := { s.led with passes := tins s.led.passes a ⟨r, first + n, lost⟩ } }
      if writtenSlots (ledEntry s a r) ≤ first + n then passEnd a r lost s else s
    else s

end Sys2Proof.Machine
end

