-- ==== Sys2Proof/Machine/RsvOps.lean ====
section
/-!
DEFINITION. Sys2Proof/Machine/RsvOps.lean: the Reservoir's shared operations (13_reservoir.md): bands and map entries (R267-R272), the
map journal (R271, R281), staged and clean cells and their space (R280), the health quantities (R284).
-/
namespace Sys2Proof.Machine
open Reg

/-! ### Names -/

/-- The Reservoir has started and is in service. -/
def rsvUp (s : State) : Bool := flag s rsvB RSV_STATUS_READY && !flag s rsvB RSV_STATUS_OUT_OF_SERVICE

/-- The Reservoir starts program operations: in service, and no power-fail sequence runs (R49). -/
def rsvTakes (s : State) : Bool := rsvUp s && !s.pwr.failing

/-- R267: the partition of a TU number: 0 staging, 1 clean, 2 index, 3 mirrors. -/
def tuPartition (u : Nat) : Option Nat :=
  if u < 0x30000000 then some 0
  else if 0x100000000 ≤ u ∧ u < 0x110000000 then some 1
  else if 0x200000000 ≤ u ∧ u < 0x210000000 then some 2
  else if 0x300000000 ≤ u ∧ u < 0x301000000 then some 3
  else none

/-- R267: one past the last TU of a partition. -/
def partitionEnd (k : Nat) : Nat :=
  if k = 0 then 0x30000000 else if k = 1 then 0x110000000 else if k = 2 then 0x210000000 else 0x301000000

/-- The key of the second copy of a TU in the map. -/
def copyB (u : Nat) : Nat := 2 ^ 40 + u

def modRsv (f : RsvState → RsvState) (s : State) : State := { s with rsv := f s.rsv }

/-! ### Health (R284) -/

/-- A threshold of R284 is crossed: the event bit, the early-warning, its record. -/
def rsvWarn (f : Field) (w value : Nat) (s : State) : State := earlyWarn w 4 0x19FC00 value (wr rsvB f 1 s)

/-- WEAR_PCT: the mean erase count of the in-service blocks, in percent of 3,000. -/
def wearPct (s : State) : Nat :=
  let live := s.rsv.blocks.filter (fun e => !e.2.retired)
  let n := 699392 - s.rsv.blocks.countP (fun e => e.2.retired)
  min 255 (live.foldl (fun acc e => acc + e.2.erases) 0 * 100 / (n * 3000))

/-- Bring SPARE_PCT and WEAR_PCT up to date; a crossing warns once. -/
def rsvHealth (s : State) : State :=
  let spare := s.rsv.spare * 100 / 2048
  let wear := wearPct s
  let low := rd s rsvB RSV_WARN_SPARE_WARN
  let high := rd s rsvB RSV_WARN_WEAR_WARN
  let fell := decide (low ≤ rd s rsvB RSV_HEALTH_SPARE_PCT ∧ spare < low)
  let rose := decide (rd s rsvB RSV_HEALTH_WEAR_PCT < high ∧ high ≤ wear)
  let s := wr rsvB RSV_HEALTH_SPARE_PCT spare (wr rsvB RSV_HEALTH_WEAR_PCT wear s)
  let s := when fell (fun s => critWarn 0 2 (rsvWarn RSV_EVENTS_SPARE_LOW 4 spare s)) s
  when rose (rsvWarn RSV_EVENTS_WEAR_HIGH 5 wear) s

/-! ### Service (R282) -/

/-- The Reservoir leaves service. -/
def rsvOut (readable : Bool) (s : State) : State :=
  if flag s rsvB RSV_STATUS_OUT_OF_SERVICE then setF rsvB RSV_STATUS_READ_ONLY readable s
  else
    let s := wr rsvB RSV_STATUS_OUT_OF_SERVICE 1 (wr rsvB RSV_STATUS_READY 0 s)
    let s := setF rsvB RSV_STATUS_READ_ONLY readable s
    lastingFault 0x19FC00 0 1 (rsvWarn RSV_EVENTS_OUT 9 0 s)

/-! ### Blocks and bands (R266, R268, R272) -/

/-- The number of a block: die and block within the die. -/
def blockNum (die b : Nat) : Nat := die * 10928 + b

def dieFailed (s : State) (d : Nat) : Bool := s.rsv.deadDies.contains d

/-- RSV_DIES and DIES_FAILED show the dies out of service. -/
def showDies (s : State) : State :=
  let mask (lo : Nat) := ((List.range 32).filter (fun i => dieFailed s (lo + i))).foldl (fun acc i => acc + 2 ^ i) 0
  wr rsvB RSV_STATUS_DIES_FAILED s.rsv.deadDies.length (wr rsvB RSV_DIES_LO_FAILED_LO (mask 0) (wr rsvB RSV_DIES_HI_FAILED_HI (mask 32) s))

/-- The dies of group g: positions 2g and 2g + 1 on every channel. -/
def groupDies (g : Nat) : List Nat := (List.range 64).filter (fun d => decide (d % 8 / 2 = g))

/-- A block that is retired or belongs to a band. -/
def blockTaken (s : State) (b : Nat) : Bool :=
  s.rsv.bands.any (fun e => e.2.blocks.contains b) || (tget blkEntry0 s.rsv.blocks b).retired

/-- The lowest free block of a die. -/
def freeBlock (s : State) (d : Nat) : Option Nat :=
  let taken := s.rsv.bands.length + s.rsv.blocks.length
  ((List.range (min 10928 (taken + 1))).map (blockNum d)).find? (fun b => !blockTaken s b)

/-- How many TUs a band holds. -/
def bandCap (b : Band) : Nat := b.blocks.length * 3072

/-- R272: the map entry of place `i` of a band, which is written page position by page position. -/
def tuEntry (b : Band) (i : Nat) : Nat :=
  let n := max 1 b.blocks.length
  let blk := b.blocks.getD (i / 4 % n) 0
  i % 4 + i / (4 * n) * 4 + blk % 10928 * 2 ^ 12 + blk / 10928 * 2 ^ 26

/-- The block of a map entry. -/
def entryBlock (e : Nat) : Nat := blockNum (e / 2 ^ 26) (e / 2 ^ 12 % 2 ^ 14)

/-- The open band of a kind that still has room. -/
def bandFor (s : State) (kind : Nat) : Option (Nat × Band) :=
  s.rsv.bands.find? (fun e => decide (e.2.kind = kind) && e.2.isOpen && decide (e.2.next < bandCap e.2))

/-- R268: open a band: one free block of each in-service die of a group. Copy A of metadata lies in groups 0 and 1, copy B in 2 and 3.
Which of the groups and blocks is the model's choice (notes/assumptions/45.md). -/
def bandOpen (kind : Nat) (s : State) : State :=
  let groups := if kind = 2 then [0, 1] else if kind = 3 then [2, 3] else [0, 1, 2, 3]
  let g := groups.getD (s.rsv.bands.length % groups.length) 0
  let dies := (groupDies g).filter (fun d => !dieFailed s d)
  let blocks := dies.filterMap (freeBlock s)
  if s.rsv.freeBands = 0 ∨ blocks = [] then s
  else
    let t := now s / 2 ^ 24
    modRsv (fun r =>
      let mark (acc : Table BlkEntry) (b : Nat) :=
        tput blkEntry0 acc b { tget blkEntry0 acc b with programTime := t, temp := tget 0 r.dieTemps (b / 10928) }
      { r with bands := tins r.bands (firstGap 0 r.bands) ⟨g, kind, blocks, 0, true, false, false, true⟩, freeBands := r.freeBands - 1, blocks := blocks.foldl mark r.blocks }) s

/-- Bytes programmed into NAND: the TU, and an amount of parity, map and journal pages that the spec does not state for it. -/
def countProgram (s : State) : State :=
  let (f, s) := takeFree s
  pairAdd 0x190048 (4096 + f) s

/-- The XOR of two pages' bytes; a place past an end counts as 0. -/
def xorBytes : List Byte → List Byte → List Byte
  | [], bs => bs
  | as_, [] => as_
  | a :: as_, b :: bs => (a ^^^ b) :: xorBytes as_ bs

/-- The place in a band's parity of an entry's page and slot (R269). -/
def parityKey (band e : Nat) : Nat := band * 4096 + e % 2 ^ 12

/-- R269: the parity of a place takes in the bytes of one member. -/
def parityAdd (band e : Nat) (bytes : List Byte) (t : Table (List Byte)) : Table (List Byte) :=
  tput [] t (parityKey band e) (xorBytes (tget [] t (parityKey band e)) bytes)

/-- R270: the parity of a band is released. -/
def parityDrop (band : Nat) (t : Table (List Byte)) : Table (List Byte) := t.filter (fun x => decide (x.1 / 4096 ≠ band))

/-- R269: the bytes of one member of an open band, from the parity of its place and the other members written there. -/
def parityTu (s : State) (band : Nat) (b : Band) (e : Nat) : List Byte :=
  let others := s.rsv.tus.filter (fun x => decide (x.1 % 2 ^ 12 = e % 2 ^ 12 ∧ x.1 ≠ e) && b.blocks.contains (entryBlock x.1))
  others.foldl (fun acc x => xorBytes acc x.2) (tget [] s.rsv.parity (parityKey band e))

/-- Program a TU's bytes into the open band of a kind, with its die parity; the entry of its place. Where no band can be formed the
Reservoir leaves service, still readable (R282). -/
def programRaw (kind : Nat) (bytes : List Byte) (s : State) : Option Nat × State :=
  let s := if (bandFor s kind).isSome then s else bandOpen kind s
  match bandFor s kind with
  | none => (none, rsvOut true s)
  | some (k, b) =>
    let e := tuEntry b b.next
    (some e, countProgram (modRsv (fun r => { r with bands := tins r.bands k { b with next := b.next + 1 }, tus := tins r.tus e bytes, parity := parityAdd k e bytes r.parity }) s))

/-- Program and map a TU. Its journal record is not programmed yet. -/
def programTu (kind key : Nat) (bytes : List Byte) (s : State) : State :=
  match programRaw kind bytes s with
  | (none, s) => s
  | (some e, s) => modRsv (fun r => { r with map := tins r.map key e, unprogrammed := r.unprogrammed ++ [(key, e)], discards := r.discards.filter (fun u => decide (u ≠ key)), dropped := tdel r.dropped key }) s

/-- A program operation of a TU starts, unless the power-fail sequence runs (R49). -/
def startTu (kind key : Nat) (bytes : List Byte) (s : State) : State := if s.pwr.failing then s else programTu kind key bytes s

/-- R267: write a TU in its partition, index and mirror TUs in both copies. -/
def storeTu (u : Nat) (bytes : List Byte) (s : State) : State :=
  match tuPartition u with
  | none => s
  | some 0 => programTu 0 u bytes s
  | some 1 => programTu 1 u bytes s
  | some _ => programTu 3 (copyB u) bytes (programTu 2 u bytes s)

/-- R277: the map update: a TU whose entry is still the one noted moves to its copy. -/
def gcMap (copies : List (Nat × Nat × Nat)) (s : State) : State :=
  forEach copies (fun c s => if tfind s.rsv.map c.1 = some c.2.1 then modRsv (fun r => { r with map := tins r.map c.1 c.2.2 }) s else s) s

/-- R277: the map update of the collection in progress goes with the next journal record, which marks its victim erase pending. -/
def gcUpdate (s : State) : State :=
  match s.rsv.gc with
  | none => s
  | some g =>
    if g.mapped then s
    else
      modRsv (fun r => { r with gc := some { g with mapped := true }, bands := match tfind r.bands g.victim with | some b => tins r.bands g.victim { b with erasePending := true } | none => r.bands })
        (gcMap g.copies s)

/-- R271, R272, R274, R277: a map journal record is programmed with the map update of a collection: pending mappings stand, discarded TUs
are unmapped. -/
def journalCommit (s : State) : State := journalRecord (gcUpdate s)

/-- The bytes that the map gives for a TU. -/
def tuBytes (s : State) (u : Nat) : Option (List Byte) :=
  match tfind s.rsv.map u with
  | none => none
  | some e => tfind s.rsv.tus e

/-- A read of a TU. One that has been discarded gives its last bytes or zeros, as the free value `f` says (R274); an unmapped one zeros. -/
def tuRead (s : State) (f u : Nat) : List Byte :=
  let gone := s.rsv.discards.contains u
  let kept := bitOf f (u % 64)
  match (if (tuBytes s u).isSome then tuBytes s u else (tfind s.rsv.dropped u).bind (tfind s.rsv.tus)) with
  | some b => if (gone || (tuBytes s u).isNone) && !kept then List.replicate 4096 0 else b
  | none => List.replicate 4096 0

/-! ### Space (R280) -/

/-- RSV_SPACE and STAGING_LOW follow the free cells. -/
def syncSpace (s : State) : State :=
  let gib := s.rsv.stageFree / 1024
  let s := wr rsvB RSV_SPACE_STAGE_FREE_GIB (min 65535 gib) s
  let s := wr rsvB RSV_SPACE_CLEAN_FREE_GIB (min 65535 (s.rsv.cleanFree / 1024)) s
  let pace := rd s rsvB RSV_PACE_STAGE_PACE_GIB
  if gib < pace then wr rsvB RSV_STATUS_STAGING_LOW 1 s
  else if max pace (rd s rsvB RSV_PACE_STAGE_RESUME_GIB) ≤ gib then wr rsvB RSV_STATUS_STAGING_LOW 0 s
  else s

/-- The first place of 256 TUs from `base` on that no cell of a list uses. -/
def freePlace (base : Nat) (cells : List (Nat × Nat)) : Nat :=
  match (List.range (cells.length + 1)).find? (fun i => !cells.any (fun c => decide (c.2 = base + 256 * i))) with
  | some i => base + 256 * i
  | none => base + 256 * cells.length

/-- Write the 256 TUs of a cell. -/
def storeCell (base : Nat) (bytes : List Byte) (s : State) : State :=
  forEach (List.range 256) (fun i s => storeTu (base + i) ((bytes.drop (4096 * i)).take 4096) s) s

/-- The 256 TUs of a cell are to be unmapped with the next record (R274). -/
def dropCell (base : Nat) (s : State) : State :=
  modRsv (fun r => { r with discards := r.discards ++ (List.range 256).map (base + ·) }) s

/-- R274: the staging copy of a cell is discarded. -/
def unstage (key : Nat) (s : State) : State :=
  match s.rsv.staged.find? (fun e => decide (e.1 = key)) with
  | none => s
  | some (_, base) => syncSpace (modRsv (fun r => { r with staged := r.staged.filter (fun e => decide (e.1 ≠ key)), stageFree := r.stageFree + 1 }) (dropCell base s))

/-- R271: a Dirty segment's copy is durable: its TUs, parity and journal record are programmed. -/
def stageCell (key : Nat) (bytes : List Byte) (s : State) : State :=
  let s := unstage key s
  let base := freePlace 0 s.rsv.staged
  let s := pairAdd 0x190050 (2 ^ 20) (storeCell base bytes s)
  syncSpace (journalCommit (modRsv (fun r => { r with staged := r.staged ++ [(key, base)], stageFree := r.stageFree - 1 }) s))

/-- R280: the least recently written clean cells are discarded down to 95 % full once no place is left. -/
def trimClean (s : State) : State :=
  if s.rsv.cleanFree = 0 then
    let n := min 52429 s.rsv.clean.length
    let gone := s.rsv.clean.take n
    let s := forEach gone (fun e s => dropCell e.2 s) s
    modRsv (fun r => { r with clean := r.clean.drop n, cleanFree := n }) s
  else s

/-- R280: whether a Clean offer is accepted; a refusal counts under its cause. -/
def acceptClean (s : State) : Bool × State :=
  let s := trimClean s
  if rd s rsvB RSV_BUDGET_CLEAN_GIB_DAY * 2 ^ 30 ≤ s.rsv.cleanBytes then (false, incF rsvB RSV_DECLINES_DECLINED_BUDGET s)
  else if s.rsv.cleanFree = 0 ∨ flag s rsvB RSV_STATUS_STAGING_LOW = true
      ∨ (flag s rsvB RSV_STATUS_GC_ACTIVE = true ∧ s.rsv.freeBands < rd s rsvB RSV_CTL_GC_LOW) then
    (false, incF rsvB RSV_DECLINES_DECLINED_FULL s)
  else (true, s)

/-- A Clean victim has been copied. -/
def cleanCell (key : Nat) (bytes : List Byte) (s : State) : State :=
  let s := trimClean s
  let old := s.rsv.clean.filter (fun e => decide (e.1 = key))
  let s := forEach old (fun e s => dropCell e.2 s) s
  let s := modRsv (fun r => { r with clean := r.clean.filter (fun e => decide (e.1 ≠ key)), cleanFree := r.cleanFree + old.length }) s
  let base := freePlace 0x100000000 s.rsv.clean
  let s := pairAdd 0x190050 (2 ^ 20) (storeCell base bytes s)
  let s := modRsv (fun r => { r with clean := r.clean ++ [(key, base)], cleanFree := r.cleanFree - 1, cleanBytes := r.cleanBytes + 2 ^ 20 }) s
  syncSpace (wr rsvB RSV_BUDGET_CLEAN_GIB_TODAY (min 65535 (s.rsv.cleanBytes / 2 ^ 30)) (journalCommit s))

/-- The bytes of a cell that the Reservoir holds: its staging copy, else its clean copy. A TU that reads nothing gives zeros. -/
def rsvCell (s : State) (key : Nat) : Option (List Byte) :=
  match (s.rsv.staged ++ s.rsv.clean).find? (fun e => decide (e.1 = key)) with
  | none => none
  | some (_, base) => some ((List.range 256).flatMap (fun i => match tuBytes s (base + i) with | some b => b | none => List.replicate 4096 0))

end Sys2Proof.Machine
end

