-- ==== Sys2Proof/Machine/PoolOps.lean ====
section
/-!
DEFINITION. Sys2Proof/Machine/PoolOps.lean: the directory (R251-R258): the segments of a cell, victims and offers, the sequential-store
detectors, the ends of drains and fills; the address-folded code and its error log (R246-R248).
-/
namespace Sys2Proof.Machine
open Reg

/-! ### Segments -/

/-- R251, R252: the segments that a cell may use: the first and how many. -/
def segRange (s : State) (c : CellPlace) : Nat × Nat :=
  let cv := rd s poolB POOL_DIR_STATUS_CARVE_IN_FORCE
  if flag s poolB POOL_DIR_STATUS_MODE_IN_FORCE then (8 * dirSet c.act c.reach c.slot ((1536 - 48 * cv) / 8), 8)
  else (c.act * (32 - cv), 32 - cv)

def segPlace (g : Seg) : CellPlace := ⟨g.act, g.reach, g.slot⟩

def putSeg (k : Nat) (g : Seg) (s : State) : State := { s with pool := { s.pool with segs := tins s.pool.segs k g } }

/-- An entry becomes Invalid. The segment's bytes stay in the Pool (R13). -/
def dropSeg (k : Nat) (s : State) : State := { s with pool := { s.pool with segs := tdel s.pool.segs k } }

/-- An entry is used now. -/
def touchSeg (k : Nat) (s : State) : State :=
  match tfind s.pool.segs k with
  | none => s
  | some g => { s with pool := { s.pool with segs := tins s.pool.segs k { g with used := s.pool.useClock }, useClock := s.pool.useClock + 1 } }

/-- The member whose cell lies at a place, or is being copied there (R216). -/
def memberAt (s : State) (c : CellPlace) : Option (Nat × Nat) :=
  (membersOn s (fun p => decide (p = c))).head?.orElse (fun _ => (s.led.copying.find? (fun x => decide (x.target = c))).map (fun x => (x.sid, x.member)))

/-- The bytes of the cell at a place, as its object was stored; zeros where no object has a member there. -/
def placedBytes (s : State) (c : CellPlace) : List Byte :=
  match memberAt s c with
  | none => List.replicate (2 ^ 20) 0
  | some (sid, m) => match stripeOf s sid, objOf s (sid / 2 ^ 24) with
    | some r, some o => memberCell o r m
    | _, _ => List.replicate (2 ^ 20) 0

/-! ### Sequential-store detectors (R256) -/

def seqOn (s : State) (a : Nat) : Bool :=
  if a < 32 then bitOf (rd s poolB POOL_DIR_SEQ_LO_ACTIVE_LO) a else bitOf (rd s poolB POOL_DIR_SEQ_HI_ACTIVE_HI) (a - 32)

def setSeq (a : Nat) (v : Bool) (s : State) : State :=
  let s := { s with pool := { s.pool with dets := tmod seqDet0 s.pool.dets a (fun d => { d with on := v }) } }
  if a < 32 then wr poolB POOL_DIR_SEQ_LO_ACTIVE_LO (setBit (rd s poolB POOL_DIR_SEQ_LO_ACTIVE_LO) a v) s
  else wr poolB POOL_DIR_SEQ_HI_ACTIVE_HI (setBit (rd s poolB POOL_DIR_SEQ_HI_ACTIVE_HI) (a - 32) v) s

/-- The detector turns off; its run starts again. -/
def seqOff (a : Nat) (s : State) : State :=
  setSeq a false { s with pool := { s.pool with dets := tmod seqDet0 s.pool.dets a (fun d => { d with run := 0 }) } }

/-- A cell of object `obj`, stripe `st` is allocated on an actuator. -/
def seqAlloc (a obj st : Nat) (s : State) : State :=
  let d := tget seqDet0 s.pool.dets a
  let run := if d.run ≠ 0 ∧ d.obj = obj ∧ d.last < st then d.run + 1 else 1
  let on := (d.on && decide (d.obj = obj)) || decide (rd s poolB POOL_DIR_CTL_SEQ_CELLS ≤ run)
  setSeq a on { s with pool := { s.pool with dets := tins s.pool.dets a ⟨obj, st, run, now s, on⟩ } }

/-! ### Offers and victims (R254, R255) -/

/-- R255: a Dirty segment is offered; in service, the Reservoir accepts. -/
def offerDirty (k : Nat) (s : State) : State :=
  match tfind s.pool.segs k with
  | some g => if g.state = .dirty ∧ rsvTakes s = true then putSeg k { g with state := .draining, wasDirty := true } s else s
  | none => s

/-- Every Dirty segment is offered. -/
def offerAll (s : State) : State := forEach (s.pool.segs.map Prod.fst) offerDirty s

/-- The entries of a segment range. -/
def segsIn (s : State) (lo n : Nat) : List (Nat × Seg) := s.pool.segs.filter (fun e => decide (lo ≤ e.1 ∧ e.1 < lo + n))

/-- The entry last used longest ago. -/
def oldestSeg : List (Nat × Seg) → Option (Nat × Seg)
  | [] => none
  | e :: t => match oldestSeg t with
    | none => some e
    | some x => if e.2.used ≤ x.2.used then some e else some x

/-- The entry holds a cell that is not yet on media. -/
def newCell (g : Seg) : Bool := decide (g.state = .dirty ∨ g.state = .staged) || (decide (g.state = .draining) && g.wasDirty)

/-- An allocation takes entry `k`: a new cell brings its bytes and is offered once complete. -/
def placeSeg (k : Nat) (g : Seg) (s : State) : State :=
  let s := touchSeg k (putSeg k g s)
  if g.state = .dirty then offerDirty k (poolFill (segAddr k) (placedBytes s (segPlace g)) s) else s

/-- R254-R256: an allocation of a cell that the directory does not hold: a free entry, else the least recently used Clean or Staged one;
a Clean victim that the Reservoir takes drains first, one for each allocation that waits. Answers whether the allocation was made. -/
def allocNew (first : Bool) (g : Seg) (s : State) : Bool × State :=
  let (lo, n) := segRange s (segPlace g)
  let here := segsIn s lo n
  let limited := seqOn s g.act && decide (g.state = .dirty)
    && decide (rd s poolB POOL_DIR_CTL_SEQ_WAYS ≤ s.pool.segs.countP (fun e => decide (e.2.act = g.act) && newCell e.2))
  let free := ((List.range n).map (lo + ·)).find? (fun k => (tfind s.pool.segs k).isNone)
  match (if limited then none else free) with
  | some k => (true, placeSeg k g s)
  | none =>
    let want := s.pool.waiting.countP (fun w => decide (segRange s (segPlace w) = (lo, n))) + b2n first
    if want ≤ here.countP (fun e => decide (e.2.state = .draining) && !e.2.wasDirty) then (false, s)
    else
      let ok (e : Nat × Seg) := if limited then decide (e.2.act = g.act ∧ e.2.state = .staged) else decide (e.2.state = .clean ∨ e.2.state = .staged)
      match oldestSeg (here.filter ok) with
      | none => (false, when first (incF poolB POOL_DIR_COUNTS_ALLOC_WAITS) s)
      | some (k, v) =>
        if v.state = .clean ∧ flag s poolB POOL_DIR_CTL_OFFER_CLEAN = true ∧ seqOn s v.act = false ∧ rsvTakes s = true then
          let (yes, s) := acceptClean s
          if yes then (false, putSeg k { v with state := .draining, wasDirty := false } s)
          else (true, placeSeg k g (dropSeg k (incF poolB POOL_DIR_OFFERS_DECLINED s)))
        else (true, placeSeg k g (dropSeg k s))

/-- R257: an allocation of a cell that the directory holds. A new cell's write waits for a fill and stalls for a drain; otherwise the entry
becomes Dirty again, and a Reservoir copy is superseded. -/
def allocTry (first : Bool) (g : Seg) (s : State) : Bool × State :=
  match segOf s (segPlace g) with
  | none => allocNew first g s
  | some (k, v) =>
    if g.state = .filling then (true, s)
    else match v.state with
      | .filling => (false, s)
      | .draining => (false, when first (incF poolB POOL_DIR_COUNTS_WRITE_STALLS) s)
      | .staged => (true, placeSeg k g (unstage (cellKey (segPlace g)) s))
      | _ => (true, placeSeg k g s)

/-- Allocate a segment for a cell, or wait (R254). -/
def allocSeg (g : Seg) (s : State) : State :=
  let (done, s) := allocTry true g s
  if done then s else { s with pool := { s.pool with waiting := s.pool.waiting ++ [g] } }

/-- The waiting allocations are tried again, oldest first. -/
def allocWaiting (s : State) : State :=
  forEach s.pool.waiting (fun g s =>
    let (done, s') := allocTry false g s
    if done then { s' with pool := { s'.pool with waiting := s'.pool.waiting.erase g } } else s') s

/-- Allocate the segment of a new cell (to Dirty). -/
def allocDirty (c : CellPlace) (obj st : Nat) (s : State) : State :=
  let s := seqAlloc c.act obj st s
  allocSeg ⟨c.act, c.reach, c.slot, .dirty, false, 0, obj⟩ s

/-- Allocate the segment of a fill (to Filling), unless the cell is resident, filling or waiting already (R257). -/
def allocFill (c : CellPlace) (obj : Nat) (s : State) : State :=
  if (segOf s c).isSome || s.pool.waiting.any (fun g => decide (segPlace g = c)) then s
  else
    let d := tget seqDet0 s.pool.dets c.act
    let s := when (decide (d.run ≠ 0 ∧ d.obj ≠ obj)) (seqOff c.act) s
    allocSeg ⟨c.act, c.reach, c.slot, .filling, false, 0, obj⟩ s

/-- A segment becomes Clean; with its actuator's detector on it is made Invalid at once (R256). -/
def cleanSeg (k : Nat) (s : State) : State :=
  match tfind s.pool.segs k with
  | none => s
  | some g =>
    if seqOn s g.act then allocWaiting (dropSeg k (incF poolB POOL_DIR_OFFERS_SEQ_DISCARDS s))
    else allocWaiting (putSeg k { g with state := .clean, wasDirty := false } s)

/-- R253: the copy of a Draining segment has ended: a Dirty one becomes Staged, a Clean victim Invalid. With the Reservoir out of service
the copy was not made, and a Dirty one stays Dirty. -/
def drainEndOp (k : Nat) (s : State) : State :=
  match tfind s.pool.segs k with
  | none => s
  | some g =>
    if g.state ≠ .draining then s
    else
      let bytes := poolBytes s (segAddr k) (2 ^ 20)
      let key := cellKey (segPlace g)
      if g.wasDirty then
        if rsvUp s then allocWaiting (putSeg k { g with state := .staged } (stageCell key bytes s))
        else putSeg k { g with state := .dirty, wasDirty := false } s
      else
        let s := if rsvUp s then cleanCell key bytes s else incF poolB POOL_DIR_OFFERS_DECLINED s
        allocWaiting (dropSeg k s)

/-- The Reservoir's copy of a cell, while it answers reads (R19, R282). -/
def servedCell (s : State) (key : Nat) : Option (List Byte) := if rsvServes s then rsvCell s key else none

/-- R253: a fill ends: with the Reservoir's copy of the cell, or once the reads and the read-around of a fetch have given every sector of the
member. Where no fetch is left that waits for the cell the fill has failed, and the command has had its error. -/
def fillEndOp (k : Nat) (s : State) : State :=
  match tfind s.pool.segs k with
  | none => s
  | some g =>
    if g.state ≠ .filling then s
    else
      let c := segPlace g
      let mine (x : Nat × Nat) := decide (memberPlace s x.1 x.2 = some c)
      let waiting := s.str.fetches.filter (fun f => f.need.any mine)
      let full := waiting.any (fun f => f.need.any (fun x => mine x && memberDone s f x.1 x.2))
      let clean (s : State) : State := forEach waiting (fun f s => fetchEnd f.tag s) (allocWaiting (putSeg k { g with state := .clean } s))
      match servedCell s (cellKey c) with
      | some b => clean (poolFill (segAddr k) b s)
      | none => if full then clean s else if waiting.isEmpty then allocWaiting (dropSeg k s) else s

/-- R253, R255, R258, R274: a cell has been destaged and verified: Clean, its offer cancelled, its staging copy discarded. -/
def destageOp (k : Nat) (s : State) : State :=
  match tfind s.pool.segs k with
  | none => s
  | some g =>
    if newCell g then unstage (cellKey (segPlace g)) (cleanSeg k s)
    else if g.state = .clean then unstage (cellKey (segPlace g)) s
    else s

/-! ### The code (R246, R247) -/

/-- A column of the check matrix: of odd weight. -/
def poolCol (i : Nat) : Nat :=
  let v := Config.poolColumn i % 65536
  if popCount 16 v % 2 = 1 then v else v ^^^ 1

/-- R246: the syndrome of a codeword with stored syndrome `p`, flipped bits and the address reached. -/
def poolSyndrome (p a a' : Nat) (flips : List Nat) : Nat := flips.foldl (fun acc i => acc ^^^ poolCol i) (p ^^^ poolG a ^^^ poolG a')

/-- R247: a correctable syndrome is a column; one flipped bit at the right address always is. -/
def poolCorrectable (syn : Nat) : Bool := (List.range 144).any (fun i => decide (poolCol i = syn))

/-- R247: the syndrome equals some v_i. -/
def addrSuspect (syn : Nat) : Bool := (List.range 32).any (fun i => decide (poolVec i = syn))

/-- The slot of the log for an address: its entry, else a free one. -/
def poolLogSlot (s : State) (cw : Nat) : Option Nat :=
  let used (i : Nat) := flag s poolB (POOL_LOG_4_VALID.ix i)
  match (List.range 32).find? (fun i => used i && decide (rd s poolB (POOL_LOG_0_ADDR.ix i) = cw)) with
  | some i => some i
  | none => (List.range 32).find? (fun i => !used i)

/-- R248: log an event at codeword `cw` (address bits [35:4]). -/
def poolLog (cw syn : Nat) (ue : Bool) (s : State) : State :=
  match poolLogSlot s cw with
  | none => wr poolB POOL_STATUS_LOG_OVERFLOW 1 s
  | some i =>
    let s := when (!flag s poolB (POOL_LOG_4_VALID.ix i)) (fun s =>
      incF poolB POOL_STATUS_LOG_USED (wr poolB (POOL_LOG_4_VALID.ix i) 1 (wr poolB (POOL_LOG_0_ADDR.ix i) cw s))) s
    let s := wr poolB (POOL_LOG_4_SYNDROME.ix i) syn (incF poolB (POOL_LOG_4_COUNT.ix i) s)
    let s := when ue (wr poolB (POOL_LOG_4_UE.ix i) 1) s
    let s := when (ue && addrSuspect syn) (wr poolB (POOL_LOG_4_ADDR_SUSPECT.ix i) 1) s
    wr poolB (POOL_LOG_8_LAST.ix i) (now s % 2 ^ 32) s

/-- R247, R381, R391: an error is counted, logged and recorded. -/
def poolError (cw syn : Nat) (ue : Bool) (s : State) : State :=
  let s := if ue then wr poolB POOL_STATUS_UE_SEEN 1 (incF poolB POOL_ERR_COUNTS_UE s) else wr poolB POOL_STATUS_CE_SEEN 1 (incF poolB POOL_ERR_COUNTS_CE s)
  let s := poolLog cw syn ue s
  let s := hist 0x17FC00 { code := if ue then 5 else 4, detail := cw % 2 ^ 28, hi := syn } s
  when (ue && flag s 0x17FC00 FLT_REACT_TRAP) trapAll s

/-- The segment that holds an address of the array. -/
def segAt (s : State) (addr : Nat) : Option (Nat × Seg) :=
  if addr < segAddr 0 then none
  else
    let k := (addr - segAddr 0) / 2 ^ 20
    match tfind s.pool.segs k with
    | some g => some (k, g)
    | none => none

/-- R243: an object is marked damaged: the count, the record of severity 7, the early-warning. -/
def markDamaged (o : Nat) (s : State) : State :=
  match objOf s o with
  | none => s
  | some x =>
    if x.damaged then s else
    let s := { s with obj := { s.obj with objs := tins s.obj.objs o { x with damaged := true } } }
    let s := incF srB SR_COUNTS_C_DAMAGED_OBJECTS s
    let s := tellerEvent 0x700 7 srB (o % 2 ^ 32) (o / 2 ^ 32) 0 s
    earlyWarn 11 4 0x15FC00 (o % 2 ^ 32) s

/-- R257: what an uncorrectable error means for the segment that holds it. -/
def segError (addr : Nat) (s : State) : State :=
  match segAt s addr with
  | none => s
  | some (k, g) =>
    let c := segPlace g
    match g.state with
    | .clean => allocWaiting (dropSeg k s)
    | .staged => match servedCell s (cellKey c) with
      | some b => poolFill (segAddr k) b s
      | none => s
    | .dirty | .draining =>
      if g.state = .draining ∧ g.wasDirty = false then allocWaiting (dropSeg k s)
      else match memberAt s c with
        | none => s
        | some (sid, m) => match stripeOf s sid with
          | none => s
          | some r =>
            let good := (List.range (r.j + r.m)).countP (fun i => decide (i ≠ m) && (memberUp s sid i || cellReady s sid i))
            let s := tellerEvent 0x700 4 poolB (addr / 16 % 2 ^ 32) 0 0 s
            if r.j ≤ good then poolFill (segAddr k) (placedBytes s c) s else markDamaged (sid / 2 ^ 24) s
    | .filling => s

/-- The bytes of a partial write merged into a codeword. -/
def mergeBytes (enable : Nat) : Nat → List Byte → List Byte → List Byte
  | _, [], _ => []
  | i, o :: os, ds => (if bitOf enable i then ds.headD 0 else o) :: mergeBytes enable (i + 1) os (ds.drop 1)

/-- The data bytes of a codeword with some of its bits toggled; bits 128 to 143 are check bits. -/
def toggled (bits : List Nat) (bs : List Byte) : List Byte :=
  bits.foldl (fun acc i => if i < 128 then acc.set (i / 8) (acc.getD (i / 8) 0 ^^^ BitVec.ofNat 8 (2 ^ (i % 8))) else acc) bs

/-- R247: the data after a correction. A single flipped bit is put right; a syndrome of several errors that equals a column toggles that
column's bit too. -/
def correctedData (single : Bool) (syn : Nat) (flips : List Nat) (bs : List Byte) : List Byte :=
  if single then bs
  else match (List.range 144).find? (fun i => decide (poolCol i = syn)) with
    | some i => toggled (i :: flips) bs
    | none => bs

/-- R247: one access to a codeword. A wrong address that the devices reach shows in the syndrome. Answers the bytes read, none for a bus
error. -/
def poolAccessOp (x : PoolAcc) (s : State) : Option (List Byte) × State :=
  let a := x.addr / 16
  let r := x.reached / 16
  if x.write ∧ x.enable % 65536 = 65535 then
    let s := poolPut (r * 16) ((x.data.take 16) ++ List.replicate (16 - x.data.length) 0) s
    (some [], { s with pool := { s.pool with poison := tput 0 s.pool.poison r (poolG (a * 16) ^^^ poolG (r * 16)) } })
  else
    let stored := tget 0 s.pool.poison r
    let syn := poolSyndrome stored (a * 16) (r * 16) x.flips
    let old := poolBytes s (r * 16) 16
    let done (s : State) : Option (List Byte) × State :=
      if x.write then (some [], poolPut (r * 16) (mergeBytes x.enable 0 old x.data) s) else (some old, s)
    if syn = 0 then done s
    else if stored = 0 ∧ poolCorrectable syn = true then
      let right := decide (a = r)
      let fixed := correctedData (right && decide (x.flips.length ≤ 1)) syn x.flips old
      let s := poolPut (r * 16) (if x.write then mergeBytes x.enable 0 fixed x.data else fixed) (poolError a syn false s)
      let s := if right then s else { s with pool := { s.pool with poison := tput 0 s.pool.poison r (poolG (a * 16) ^^^ poolG (r * 16)) } }
      (some (if x.write then [] else fixed), s)
    else
      let s := poolError a syn true s
      let s := if a = r then { s with pool := { s.pool with poison := tput 0 s.pool.poison r syn } } else s
      (none, segError (a * 16) s)

end Sys2Proof.Machine
end

