-- ==== Sys2Proof/Machine/PlaceOps.lean ====
section
/-!
DEFINITION. Sys2Proof/Machine/PlaceOps.lean: the placement of stripes (R226-R231), commits (R308, R312), provenance (R321-R325), the
repairs of an audit (R243, R300, R327).
-/
namespace Sys2Proof.Machine
open Reg

/-! ### HDAs and actuators (R229, R230) -/

/-- Slots left in an actuator's store reach. -/
def reachFree (s : State) (a : Nat) : Nat :=
  match storeReach s a 256 with
  | some r => 1048576 - (ledEntry s a r).wp - 256 * unwritten s a r
  | none => 0

/-- A port that holds Foreign reaches takes no members (R332). -/
def foreignPort (s : State) (n : Nat) : Bool :=
  s.led.entries.any (fun e => decide (e.1 / 10240 / 2 = n) && decide (e.2.state = 5))

/-- R230: the actuator of an HDA that takes `n` slots: the fewer items queued, then the more free slots, then the even one. -/
def hdaAct (s : State) (port n : Nat) : Option Nat :=
  let can (a : Nat) := actInService s a && (storeChoice s a n).isSome
  let u := actU port
  let l := actL port
  if can u && can l then
    let qu := (actOf s u).work.length
    let ql := (actOf s l).work.length
    if ql < qu ∨ (ql = qu ∧ reachFree s u < reachFree s l) then some l else some u
  else if can u then some u
  else if can l then some l
  else none

/-- R229: an HDA is available for placement; no reach of it is used during its inventory (R222). -/
def hdaAvail (s : State) (port : Nat) : Bool :=
  decide (portState s port = 4) && !portHeld s port && !bitOf (rd s ledB LEDGER_STATUS_INV_BUSY) port && !foreignPort s port
    && (hdaAct s port 256).isSome

/-- The HDAs of class q in ascending order. -/
def hdaList (s : State) (q : Nat) : List Nat := (List.range 24).filter (fun n => bitOf (rd s srB (SR_CLASS_4_HDAS.ix q)) n)

/-- Give each member without a port the first available HDA of the rotation that carries no member. -/
def fillRest (avail : Nat → Bool) (rot : List Nat) : List (Option Nat) → List Nat → List (Option Nat)
  | [], _ => []
  | some p :: t, used => some p :: fillRest avail rot t used
  | none :: t, used =>
    match rot.find? (fun p => avail p && !used.contains p) with
    | some p => some p :: fillRest avail rot t (p :: used)
    | none => none :: fillRest avail rot t used

/-- The preferred port of member c of stripe s of object o. -/
def preferred (l : List Nat) (o st c : Nat) : Nat := l.getD ((o + st + c) % max 1 l.length) 0

/-- R229: the ports of the members of a stripe of `w` members. Members whose preferred HDA is available keep it. -/
def assignPorts (s : State) (q o st w : Nat) : List (Option Nat) :=
  let l := hdaList s q
  let want := (List.range w).map (preferred l o st)
  let first := want.map (fun p => if hdaAvail s p then some p else none)
  let rot := (List.range l.length).map (fun i => preferred l o st (w + i))
  fillRest (hdaAvail s) rot first (first.filterMap id)

/-- The next place of a cell on a port: its actuator's store reach is made ready. Slot 0 is kept for the reach header (R210). -/
def nextPlace (port n : Nat) (s : State) : Option CellPlace × State :=
  match hdaAct s port n with
  | none => (none, s)
  | some a =>
    let s := storeReady a n s
    match storeReach s a n with
    | none => (none, s)
    | some r => (some ⟨a, r, max 1 (ledEntry s a r).wp + 256 * unwritten s a r⟩, s)

/-- Places for the members of a stripe. -/
def placeAll : List (Option Nat) → State → List (Option CellPlace) × State
  | [], s => ([], s)
  | none :: t, s => let (l, s) := placeAll t s; (none :: l, s)
  | some p :: t, s =>
    let (c, s) := nextPlace p 256 s
    let (l, s) := placeAll t s
    (c :: l, s)

/-! ### Stripes of a value (R227, R228) -/

def putObj (n : Nat) (o : Obj) (s : State) : State := { s with obj := { s.obj with objs := tins s.obj.objs n o } }

/-- Write stripe `st` with `j` data cells of object `n`: its members are placed, allocated in the directory and encoded; those without a
place enter the stripe debt. None where fewer than j + WMIN members can be written (R229). -/
def writeStripe (n st j : Nat) (o : Obj) (s : State) : Option (Obj × State) :=
  let q := o.ns - 1
  let m := rd s srB (SR_CLASS_0_M.ix q)
  let ports := assignPorts s q n st (j + m)
  if (ports.filterMap id).length < j + rd s srB (SR_CLASS_0_WMIN.ix q) then none
  else
    let l := hdaList s q
    let (places, s) := placeAll ports s
    let sid := n * 2 ^ 24 + st
    let o := { o with stripes := o.stripes ++ [⟨sid, j, m, places⟩] }
    let s := putObj n o s
    let s := forEach (places.filterMap id) (fun c s => allocDirty c n st s) s
    let debt := (List.range (j + m)).filterMap (fun i => match places.getD i none with | some _ => none | none => some (sid, i, preferred l n st i))
    let s := syncRebuild { s with str := { s.str with debt := addNew s.str.debt debt } }
    some (o, addEngineJob ⟨2, .encode sid⟩ s)

/-- Write the stripes that hold `left` bytes, from stripe `st` on, with `k` data cells each but the last. -/
def writeStripes (n k : Nat) : Nat → Nat → Nat → Obj → State → Option (Obj × State)
  | 0, _, _, o, s => some (o, s)
  | fuel + 1, st, left, o, s =>
    if left = 0 then some (o, s)
    else
      let j := min k (ceilDiv left (2 ^ 20))
      match writeStripe n st j o s with
      | none => none
      | some (o, s) => writeStripes n k fuel (st + 1) (left - j * 2 ^ 20) o s

/-! ### Namespaces (R291) -/

/-- A namespace is active: its class takes stores, or holds an object. -/
def nsActive (s : State) (ns : Nat) : Bool :=
  decide (1 ≤ ns ∧ ns ≤ 4) && (flag s srB (SR_CLASS_0_VALID.ix (ns - 1)) || s.obj.index.any (fun e => decide (e.ns = ns)))

def activeSet (s : State) : List Bool := [1, 2, 3, 4].map (nsActive s)

/-- R291: a change of the active set raises Namespace Attribute Changed, where the controller's event configuration asks for it (bit 8,
notes/assumptions/40.md). -/
def nsNotice (before : List Bool) (s : State) : State :=
  if activeSet s = before then s
  else forEach (List.range 4) (fun h => when ((ctrlOf s h).hostNqn.isSome && bitOf (ctrlOf s h).asyncCfg 8) (aerDeliver h 2 0 4)) s

/-! ### Commits (R308, R312) -/

/-- One commit: the key's object changes from `before` to `after`; the state before is kept until the durable mark passes it. -/
def commitKey (ns : Nat) (key : List Byte) (before after : Option (Nat × Obj)) (s : State) : State :=
  let act := activeSet s
  let n := s.obj.commit + 1
  let objs := match before with | some (i, _) => tdel s.obj.objs i | none => s.obj.objs
  let objs := match after with | some (i, o) => tins objs i o | none => objs
  let s := { s with obj := { s.obj with commit := n, objs := objs, undo := s.obj.undo ++ [⟨n, ns, key, before⟩] } }
  when before.isSome syncRebuild (nsNotice act (idxSet ns key (after.map Prod.fst) s))

/-- A fresh object record. -/
def obj0 (ns : Nat) (key : List Byte) : Obj := ⟨ns, key, [], [], sha256 [], shaInit.map BitVec.toNat, 0, [], [], [], false, [], none⟩

/-- R321, R322: the object's hash state takes more bytes, which form one span. -/
def hashSpan (o : Obj) (bytes : List Byte) : Obj :=
  let st : ShaState := shaUpdate ⟨o.midState.map (BitVec.ofNat 32), o.midLen, o.midPending⟩ bytes
  let spans := if bytes = [] then o.spans else o.spans ++ [⟨o.value.length, bytes.length, sha256 bytes⟩]
  { o with value := o.value ++ bytes, spans := spans, hash := shaFinal st, midState := st.words.map BitVec.toNat, midLen := st.len, midPending := st.rest }

/-! ### Provenance (R324, R325) -/

/-- R325: the two HDAs of an object's provenance sectors. -/
def provPorts (s : State) (n : Nat) (o : Obj) : List Nat :=
  match o.stripes with
  | r :: _ => [0, r.j].filterMap (fun m => match r.places.getD m none with | some c => some (portOfAct c.act) | none => none)
  | [] => let l := hdaList s (o.ns - 1); [preferred l n 0 0, preferred l n 0 1]

/-- R324: the 64 bytes of a provenance event. -/
def eventBytes (e : ProvEvent) : List Byte :=
  leBytes 1 e.kind ++ zeros 3 ++ leBytes 4 e.len ++ leBytes 8 e.offset ++ stampBytes e.stamp ++ leBytes 4 e.commit ++ (fillTo 32 e.info).take 32

/-- R324: an event from its 64 bytes. -/
def eventOf (bs : List Byte) (o : Nat) : ProvEvent :=
  ⟨leAt bs o 1, leAt bs (o + 4) 4, leAt bs (o + 8) 8, ⟨leAt bs (o + 0x10) 8, leAt bs (o + 0x18) 2, leAt bs (o + 0x1A) 2⟩, leAt bs (o + 0x1C) 4, (bs.drop (o + 0x20)).take 32⟩

/-- `n` events from a byte offset on. -/
def eventsFrom (bs : List Byte) : Nat → Nat → List ProvEvent
  | 0, _ => []
  | n + 1, o => eventOf bs o :: eventsFrom bs n (o + 64)

/-- R321, R324: the spans that store and append events give. -/
def spansOf (l : List ProvEvent) : List Span :=
  (l.filter (fun e => decide (e.kind = 1 ∨ e.kind = 2) && decide (e.len ≠ 0))).map (fun e => ⟨e.offset, e.len, e.info⟩)

/-- The k of an object's class. -/
def classK (s : State) (ns : Nat) : Nat := rd s srB (SR_CLASS_0_K.ix (ns - 1))

/-- R325, R328: a head in the layout of a provenance sector: its 252 bytes, with `tail` from HERE on, and the CRC over them and the events
that follow. -/
def provHead (s : State) (magic n spans : Nat) (o : Obj) (damaged : Bool) (tail : List Byte) (events : List ProvEvent) : List Byte :=
  let head := leBytes 4 magic ++ leBytes 2 2 ++ leBytes 1 o.ns ++ leBytes 1 o.key.length ++ fillTo 16 o.key ++ leBytes 8 o.value.length ++ leBytes 8 n
    ++ leBytes 4 o.events.length ++ leBytes 4 spans ++ fillTo 32 o.hash ++ leBytes 1 (classK s o.ns)
    ++ leBytes 1 (rd s srB (SR_CLASS_0_M.ix (o.ns - 1))) ++ leBytes 1 (b2n damaged)
  let head := fillTo 0xFC (head ++ tail)
  let ev := events.flatMap eventBytes
  head ++ leBytes 4 (crc32c (head ++ ev)) ++ ev

/-- R325: the events that an object's newest provenance sector holds. -/
def hereEvents (o : Obj) : List ProvEvent := o.events.drop ((o.events.length - 1) / 60 * 60)

/-- R325: the 4,096 bytes of an object's newest provenance sector. The spec gives no byte order of MID_STATE's words; they are written as the
module writes every number, the low byte first (DEDUCED, notes/assumptions/37.md). -/
def provBytes (s : State) (n : Nat) (o : Obj) : List Byte :=
  let prev := match o.prev with
    | none => [0xFF] ++ zeros 7
    | some c => leBytes 1 c.act ++ zeros 1 ++ leBytes 2 c.reach ++ leBytes 4 c.slot
  let tail := leBytes 1 (hereEvents o).length ++ prev ++ zeros 4 ++ o.midState.flatMap (leBytes 4) ++ leBytes 8 o.midLen ++ o.midPending
  fillTo 4096 (provHead s 0x56504D4C n o.spans.length o o.damaged tail (hereEvents o))

/-- Write one copy of an object's newest provenance sector at the write pointer of a port's store reach, with its journal entry; the first
item of a reach writes its header first. -/
def provSector (port copy n : Nat) (o : Obj) (t : Stamp) (s : State) : Option CellPlace × State :=
  match hdaAct s port 1 with
  | none => (none, s)
  | some a =>
    let s := storeReady a 1 s
    match storeReach s a 1 with
    | none => (none, s)
    | some r =>
      let s := headerFirst a r s
      let slot := (ledEntry s a r).wp
      let bytes := provBytes s n o
      let s := { s with led := { s.led with provData := tins s.led.provData (cellKey ⟨a, r, slot⟩) bytes } }
      let s := addJournal a r ⟨5, o.key, [], slot, copy, n * 2 ^ 24, t, 0⟩ (kindSector a r 4 bytes s)
      (some ⟨a, r, slot⟩, closeIfLast a r s)

/-- R324, R325: an event joins an object's provenance, and its sector is written twice. -/
def addEvent (n : Nat) (e : ProvEvent) (s : State) : State :=
  match objOf s n with
  | none => s
  | some o =>
    let prev := if o.events ≠ [] ∧ o.events.length % 60 = 0 then o.provs.head? else o.prev
    let ports := provPorts s n o
    let o := { o with events := o.events ++ [e], prev := prev }
    let (p0, s) := match ports[0]? with | some p => provSector p 0 n o e.stamp s | none => (none, s)
    let (p1, s) := match ports[1]? with | some p => provSector p 1 n o e.stamp s | none => (none, s)
    putObj n { o with provs := [p0, p1].filterMap id } s

/-! ### The firmware's own work on an actuator's reaches (R213, R216, R219, R220) -/

/-- The live cells of a reach: stripe, member, place. -/
def liveCells (s : State) (a r : Nat) : List (Nat × Nat × CellPlace) :=
  (membersOn s (fun c => decide (c.act = a ∧ c.reach = r))).filterMap (fun e => (memberPlace s e.1 e.2).map (fun c => (e.1, e.2, c)))

/-- R216: a live cell is copied to another reach on its HDA: its copy is placed, and its bytes, which the read-around rebuilds where no slot
passes (R220), go to a Dirty segment, from which an ordinary write item verifies them (R114). -/
def copyCell (sid m : Nat) (c : CellPlace) (s : State) : State :=
  if s.led.copying.any (fun x => decide (x.sid = sid ∧ x.member = m)) then s
  else match nextPlace (portOfAct c.act) 256 s with
    | (some t, s) => allocDirty t (sid / 2 ^ 24) (sid % 2 ^ 24) { s with led := { s.led with copying := s.led.copying ++ [⟨sid, m, c, t⟩] } }
    | (none, s) => s

/-- R220: reaches marked REWRITE_DUE are copied out; one without a live cell is retired where TALLY has reached RETIRE_TALLY, and else stays
for reuse by Reopen. -/
def copyOut (a : Nat) (s : State) : State :=
  let s := { s with led := { s.led with copying := s.led.copying.filter (fun c => (stripeOf s c.sid).isSome) } }
  let due (e : LedEntry) := decide (e.state = 2 ∨ e.state = 3) && bitOf e.flags fRewriteDue
  forEach (reachesWith s a due) (fun r s =>
    if liveOn s a r then forEach (liveCells s a r) (fun e s => copyCell e.1 e.2.1 e.2.2 s) s
    else if rd s ledB LEDGER_MARGIN_RETIRE_TALLY ≤ (ledEntry s a r).tally then closeReach a r (firmwareOpen a r true s) else s) s

/-- R219, R220: where the next verifying item of an actuator starts: the pass in progress goes on; else the VERIFY_DUE reach with the oldest
DAYS, the lowest-numbered of equals. -/
def passNext (s : State) (a : Nat) : Option (Nat × Nat) :=
  let fresh : Option (Nat × Nat) :=
    let due (e : LedEntry) := decide (e.state = 2 ∨ e.state = 3 ∨ e.state = 5) && bitOf e.flags fVerifyDue && decide (0 < writtenSlots e)
    let l := reachesWith s a due
    let top := l.foldl (fun m r => max m (ledEntry s a r).days) 0
    (l.find? (fun r => decide ((ledEntry s a r).days = top))).map (fun r => (r, 0))
  match tfind s.led.passes a with
  | some p => if p.next < writtenSlots (ledEntry s a p.reach) then some (p.reach, p.next) else fresh
  | none => fresh

/-- R220: the firmware queues an item of library entry 3, over up to 256 slots, on an actuator in service whose work queue is empty. Its TAG,
its channel (that of the rebuild) and its buffer in the general region (R244) are the firmware's own (DESIGN CHOICE,
notes/assumptions/27.md). -/
def queuePass (a : Nat) (s : State) : State :=
  let x := actOf s a
  if !x.work.isEmpty || x.cur.isSome || !actInService s a || !flag s (actBase a) AS_CTL_RUN
      || bitOf (rd s ledB LEDGER_STATUS_INV_BUSY) (portOfAct a) then s
  else match passNext s a with
    | none => s
    | some (r, first) =>
      let e := ledEntry s a r
      let (v, s) := takeFree s
      let buf := v % 0xFA0000 * 4096
      let i : Item := ⟨0xFFFF, 3, r, first, min 256 (writtenSlots e - first), 0, buf, rd s srB SR_REBUILD_MOVER, buf, wseqOf e 0 first, false, false⟩
      syncAct a (modAct a (fun x => { x with work := [i] }) s)

/-- What the firmware does on an actuator that has ended its work: full reaches close, REWRITE_DUE ones are copied out, a verifying pass is
queued. -/
def idleWork (a : Nat) (s : State) : State :=
  if (actOf s a).work.isEmpty && (actOf s a).cur.isNone then queuePass a (copyOut a (closeFull a s)) else s

/-! ### Audits (R243, R300, R327) -/

/-- R241 steps 3 to 5, R230: a member is written on a port with its journal entry, and stands in the index; none where no actuator of the port
has room. -/
def writeMember (sid m port : Nat) (s : State) : Option State :=
  match stripeOf s sid, objOf s (sid / 2 ^ 24), hdaAct s port 256 with
  | some r, some o, some a =>
    let s := storeReady a 256 s
    match storeReach s a 256 with
    | none => none
    | some q =>
      let s := headerFirst a q s
      let e := ledEntry s a q
      let cell := memberCell o r m
      let s := forEach (List.range 256) (fun i s => slotOut a q (e.wp + i) (wseqOf e 0 (e.wp + i)) ((cell.drop (4096 * i)).take 4096) s) s
      let s := modEntry a q (fun e => { e with wp := min lastSlot (e.wp + 256) }) s
      let s := modStripe sid (fun r => { r with places := r.places.set m (some ⟨a, q, e.wp⟩) }) s
      let valid := if m < r.j then min (2 ^ 20) (o.value.length - (stripeStart o.stripes sid + m * 2 ^ 20)) else 2 ^ 20
      some (closeIfLast a q (addJournal a q ⟨1, o.key, [r.j, r.m, m], e.wp, valid, sid, storeStamp o, 0⟩ s))
  | _, _, _ => none

/-- R243: a member is written again on its HDA. -/
def rewriteMember (sid m : Nat) (s : State) : State :=
  match memberPlace s sid m with
  | some old => (writeMember sid m (portOfAct old.act) s).getD s
  | none => s

/-- What an audit finds (R243, R300, R327): parity members that disagree, whether the object's hash matches, the single members whose
reconstruction makes it match, lost sector positions, spans whose hash differs, the hash of what was read. -/
structure AuditFound where
  parityBad : List (Nat × Nat)
  hashOk : Bool
  choices : List (Nat × Nat)
  lost : List (Nat × Nat × Nat)
  spanBad : List Nat
  hash : List Byte
  deriving DecidableEq, Repr

/-- The bytes that an audit reads of member `m` of a stripe. -/
def auditCell (o : Obj) (x : AuditRead) (r : StripeRec) (m : Nat) : List Byte :=
  match x.cells.find? (fun c => decide (c.1 = r.sid % 2 ^ 24 ∧ c.2.1 = m)) with
  | some c => wholeCell (c.2.2.take (2 ^ 20))
  | none => memberCell o r m

/-- The value that the data members give, with the cells of `f`, up to the object's size. -/
def auditValue (o : Obj) (f : StripeRec → Nat → List Byte) : List Byte :=
  (o.stripes.flatMap (fun r => (List.range r.j).flatMap (f r))).take o.value.length

/-- R231: the bytes of data member `m` from the other members, byte position by byte position. -/
def rsRebuild (j m : Nat) : Nat → List (Nat × List Byte) → List Byte
  | 0, _ => []
  | n + 1, others =>
    BitVec.ofNat 8 ((rsRecover j (others.map (fun e => (e.1, (e.2.headD 0).toNat)))).getD m 0) :: rsRebuild j m n (others.map (fun e => (e.1, e.2.tail)))

/-- R243: data member `m` of a stripe is treated as missing and reconstructed from the first j other members. -/
def auditRebuilt (o : Obj) (x : AuditRead) (r : StripeRec) (m : Nat) : List Byte :=
  rsRebuild r.j m (2 ^ 20) ((((List.range (r.j + r.m)).filter (fun i => decide (i ≠ m))).take r.j).map (fun i => (i, auditCell o x r i)))

/-- The spans of an object whose bytes do not match their hash. -/
def badSpans (o : Obj) (value : List Byte) : List Nat :=
  (List.range o.spans.length).filter (fun i => match o.spans[i]? with
    | some sp => decide (sha256 ((value.drop sp.offset).take sp.len) ≠ sp.hash)
    | none => false)

/-- R243: an audit of an object: its parity is recomputed over the data read, its hash and spans are checked, and where the hash does not
match each data member in turn is treated as missing. -/
def auditOf (o : Obj) (x : AuditRead) : AuditFound :=
  let value := auditValue o (auditCell o x)
  let hash := sha256 value
  let ok := decide (hash = o.hash)
  let parity (r : StripeRec) : List (Nat × Nat) :=
    let data := (List.range r.j).map (auditCell o x r)
    ((List.range r.m).filter (fun i => decide (wholeCell (parityCell i (2 ^ 20) data) ≠ auditCell o x r (r.j + i)))).map (fun i => (r.sid % 2 ^ 24, r.j + i))
  let fits (r : StripeRec) (m : Nat) : Bool :=
    decide (sha256 (auditValue o (fun q i => if q.sid = r.sid ∧ i = m then auditRebuilt o x r m else auditCell o x q i)) = o.hash)
  let choices := if ok then [] else o.stripes.flatMap (fun r => ((List.range r.j).filter (fits r)).map (fun m => (r.sid % 2 ^ 24, m)))
  ⟨o.stripes.flatMap parity, ok, choices, x.lost, badSpans o value, hash⟩

/-- R243, R323: whether the hash matches: the object hash and every span hash. -/
def auditHashOk (x : AuditFound) : Bool := x.hashOk && x.spanBad.isEmpty

/-- R300: the result of an audit: 0 intact, 1 repaired, 2 damaged. Without repair, what would be rewritten gives 2. -/
def auditResult (x : AuditFound) (repair : Bool) : Nat :=
  if !x.lost.isEmpty then 2
  else if auditHashOk x then (if x.parityBad.isEmpty then 0 else if repair then 1 else 2)
  else if x.choices.length = 1 ∧ repair = true then 1 else 2

/-- The members that a repairing audit rewrites. -/
def auditRewrites (x : AuditFound) : List (Nat × Nat) := if auditHashOk x then x.parityBad else x.choices

/-- R243: the outcome of an audit of object `n`, with its provenance event (R324). -/
def auditApply (n : Nat) (x : AuditFound) (repair : Bool) (s : State) : State :=
  let res := auditResult x repair
  let lostAll := !x.lost.isEmpty || (!auditHashOk x && decide (x.choices.length ≠ 1))
  let s := when (!auditHashOk x) (incF srB HASH_MISMATCH_AUDITS) s
  let s := if res = 1 then
      let s := forEach (auditRewrites x) (fun e s => incF srB SR_COUNTS_C_PARITY_MISMATCH (rewriteMember (n * 2 ^ 24 + e.1) e.2 s)) s
      when (!auditHashOk x) (tellerEvent 0x700 4 srB (n % 2 ^ 32) (n / 2 ^ 32) 1) s
    else s
  let s := when (lostAll) (markDamaged n) s
  let (t, s) := tellerStamp s
  addEvent n ⟨if res = 0 then 5 else if res = 1 then 4 else 6, 0, 0, t, 0, x.hash⟩ s

/-- R327: one finding of a report. -/
def finding (st m kind action detail : Nat) : List Byte := leBytes 4 st ++ leBytes 1 m ++ leBytes 1 kind ++ leBytes 1 action ++ leBytes 1 0 ++ leBytes 8 detail

/-- R327: the findings of an audit. -/
def auditFindings (x : AuditFound) (res : Nat) : List (List Byte) :=
  let act := if res = 1 then 1 else 0
  x.parityBad.map (fun e => finding e.1 e.2 1 act 0)
    ++ (if x.choices.length = 1 ∧ auditHashOk x = false then x.choices.map (fun e => finding e.1 e.2 2 act 0) else [])
    ++ x.lost.map (fun e => finding e.1 e.2.1 3 0 e.2.2)
    ++ x.spanBad.map (fun i => finding 0 0 4 0 i)

/-- R327: the report of an audit, before it is cut to its length. -/
def auditReport (n : Nat) (o : Obj) (x : AuditFound) (res : Nat) : List Byte :=
  let f := auditFindings x res
  leBytes 4 0x52414D4C ++ leBytes 1 res ++ leBytes 3 0 ++ leBytes 8 n ++ leBytes 8 o.value.length ++ leBytes 4 o.stripes.length
    ++ leBytes 4 f.length ++ x.hash ++ f.flatten

end Sys2Proof.Machine
end

