-- ==== Sys2Proof/Machine/PageOps.lean ====
section
/-!
DEFINITION. Sys2Proof/Machine/PageOps.lean: the log pages (R295, R327, R346, R414, R415, R418, R419) and the Identify data (R289, R292)
byte by byte: the bytes that the spec gives, and none for a byte that it leaves open.
-/
namespace Sys2Proof.Machine
open Reg

/-! ### Bytes -/

/-- A page: each byte, none where it is open (notes/assumptions/7.md). -/
abbrev Page := Nat → Option Byte

/-- Byte `i` of a free value. -/
def freeByte (v i : Nat) : Byte := BitVec.ofNat 8 (v / 256 ^ i)

/-- A page from the fields it lists: (offset, bytes). -/
def pageOf (fs : List (Nat × List Byte)) : Page := fun i =>
  match fs.find? (fun f => decide (f.1 ≤ i ∧ i < f.1 + f.2.length)) with
  | some f => f.2[i - f.1]?
  | none => none

/-- A page whose open bytes read 0. -/
def zeroFill (p : Page) : Page := fun i => some ((p i).getD 0)

/-- `len` bytes of a page from `offset` on, the open ones filled from a free value. -/
def pageBytes (p : Page) (offset len v : Nat) : List Byte := (List.range len).map (fun k => (p (offset + k)).getD (freeByte v k))

/-- The bytes of a record with the CRC-32C of what stands before it. -/
def withCrc (bs : List Byte) : List Byte := bs ++ leBytes 4 (crc32c bs)

/-! ### Log page 0x01 (R295, R319) -/

/-- The status field of a completion: the code, the type of R319 and DNR. A status of the governing documents carries its type
above its code. -/
def statusField (status dnr : Nat) : Nat :=
  let sct := if 0x100 ≤ status then status / 256 else if 0xC0 ≤ status then 7 else if 0x85 ≤ status then 1 else 0
  2 * (status % 256) + 512 * (sct % 8) + 32768 * dnr

/-- Entry `k` of the error log, in the layout of the NVMe specification (notes/assumptions/41.md). -/
def errorFields (s : State) (h k : Nat) : List (Nat × List Byte) :=
  match (ctrlOf s h).errors[k]? with
  | none => [(64 * k, leBytes 8 0)]
  | some (c, st, dnr) => [(64 * k, leBytes 8 ((ctrlOf s h).errCount - k)), (64 * k + 8, leBytes 2 c.qid), (64 * k + 10, leBytes 2 c.cid), (64 * k + 12, leBytes 2 (statusField st dnr))]

def errorPage (s : State) (h : Nat) : Page := pageOf ((List.range 64).flatMap (errorFields s h))

/-! ### Log page 0x02 (R415) -/

/-- R415: the Critical Warning. -/
def critBits (s : State) (h : Nat) (die : Int) : Nat :=
  let k := kelvin (composite s die)
  b2n (decide (rd s rsvB RSV_HEALTH_SPARE_PCT < rd s rsvB RSV_WARN_SPARE_WARN))
    + 2 * b2n (decide ((ctrlOf s h).tempOver ≤ k ∨ k ≤ (ctrlOf s h).tempUnder))
    + 4 * b2n (decide (service s = 2 ∨ service s = 4)) + 16 * b2n (flag s pwrB PWR_STATUS_HOLDUP_LOW)

/-- R415: SMART / Health, in the layout of the NVMe specification. `die` stands for the controller die's temperature. -/
def healthPage (s : State) (h : Nat) (die : Int) : Page :=
  pageOf [(0, leBytes 1 (critBits s h die)), (1, leBytes 2 (kelvin (composite s die))), (3, leBytes 1 (rd s rsvB RSV_HEALTH_SPARE_PCT)),
    (4, leBytes 1 (rd s rsvB RSV_WARN_SPARE_WARN)), (5, leBytes 1 (rd s rsvB RSV_HEALTH_WEAR_PCT)),
    (32, leBytes 16 (ceilDiv s.obj.readBytes 512000)), (48, leBytes 16 (ceilDiv s.obj.writeBytes 512000)),
    (64, leBytes 16 s.obj.readCmds), (80, leBytes 16 s.obj.writeCmds), (112, leBytes 16 s.obj.powerCycles),
    (128, leBytes 16 (tget 0 s.bur.hours 24)), (144, leBytes 16 s.obj.unsafeDowns), (160, leBytes 16 s.obj.mediaErrs),
    (176, leBytes 16 (ctrlOf s h).errCount), (192, leBytes 4 (s.bur.warnTicks / secs 60)), (196, leBytes 4 (s.bur.critTicks / secs 60)),
    (200, leBytes 2 (kelvin die)), (202, leBytes 2 (kelvin (rsvTemp s))), (206, leBytes 2 (kelvin (hottestHda s))), (208, zeros 8)]

/-! ### Log pages 0x03 and 0x05 -/

/-- Firmware Slot Information: the slot that runs, the slot that runs next, the VERSION of each (R422). -/
def firmwarePage (s : State) : Page :=
  let ver (x : Option FwSlot) : List (List Byte) := match x with | some y => [y.version.take 8] | none => []
  let at_ (o : Nat) (l : List (List Byte)) := l.map (fun b => (o, b))
  pageOf ([(0, leBytes 1 (rd s burB BUR_FW_RUNNING_SLOT + 16 * rd s burB BUR_FW_NEXT_SLOT))]
    ++ at_ 8 (ver (s.cfg.flash.map (fun f => f.fw1))) ++ at_ 16 (ver (s.cfg.flash.map (fun f => f.fw2))))

/-- R292, R293: the opcodes supported. -/
def adminOpcodes : List Nat := [0x02, 0x06, 0x08, 0x09, 0x0A, 0x0C, 0x10, 0x11, 0x18, 0x7F, 0xC1, 0xC2, 0xC4, 0xC6, 0xC8]
def ioOpcodes : List Nat := [0x00, 0x01, 0x02, 0x06, 0x10, 0x14, 0x81, 0x84, 0x85, 0x86]

/-- Commands Supported and Effects: 4 bytes for each opcode, admin before I/O; bit 0 says supported. The other bits of a supported
command are open, those of an unsupported one 0. -/
def effectsPage (v : Nat) : Page := fun i =>
  let op := i / 4 % 256
  let sup := if i < 1024 then adminOpcodes.contains op else ioOpcodes.contains op
  if 2048 ≤ i then none
  else if !sup then some 0
  else if i % 4 = 0 then some (BitVec.ofNat 8 (freeByte v i).toNat ||| 1)
  else none

/-! ### Log page 0xC1 (R418) -/

/-- R418: the counts of one actuator, 2 bytes each. -/
def actCounts (s : State) (a : Nat) : List Byte :=
  let b := actBase a
  let retired := s.led.entries.countP (fun e => decide (e.1 / 10240 = a) && decide (e.2.state = 4) && !bitOf e.2.flags fAbsent)
  [rd s (fbAct a) (FLT_UNIT_COUNT_RECOVERIES.ix 0), rd s (fbAct a) (FLT_UNIT_COUNT_TRANSIENTS.ix 0), rd s b SV_COUNTS_C_RETRACTS,
    rd s b SV_COUNTS_C_LOAD_FAILS, rd s b CH_COUNT_B_DECODE_FAILS, rd s b CH_COUNT_D_RAW_FAILS, retired, rd s b CH_ITER_AVG_AVG].flatMap (leBytes 2)

/-- R418: the entry of one port. -/
def portFields (s : State) (n : Nat) : List (Nat × List Byte) :=
  let b := portBase n
  let o := 0x100 + 128 * n
  let bad (fb u : Nat) := b2n (unitOf s fb u).inFault
  [(o, leBytes 1 (portState s n)), (o + 1, leBytes 1 (spState s n)),
    (o + 2, leBytes 1 (bad (fbAct (actU n)) 0 + 2 * bad (fbAct (actL n)) 0 + 4 * bad (fbPort n) 0 + 8 * bad (fbPort n) 1)),
    (o + 4, leBytes 16 (idSerial s n)), (o + 0x14, leBytes 4 (regValue s (b + 0x20))), (o + 0x18, leBytes 4 (tget 0 s.bur.hours n)),
    (o + 0x1C, leBytes 2 (rd s b SP_COUNTS_A_STARTS) ++ leBytes 2 (rd s b SP_COUNTS_B_LOSSES)), (o + 0x20, leBytes 4 (regValue s (b + 0x24))),
    (o + 0x24, actCounts s (actU n)), (o + 0x34, actCounts s (actL n))]

/-- R418: HDA health. -/
def hdaPage (s : State) : Page :=
  zeroFill (pageOf ([(0, leBytes 4 (rd s burB BUR_WARN_PENDING)), (8, leBytes 8 s.bur.lastWarn)]
    ++ (List.range 32).map (fun w => (0x40 + 2 * w, leBytes 2 (tget 0 s.bur.warnCounts w)))
    ++ (List.range 24).flatMap (portFields s)))

/-- R417: the PENDING bits that a read of `len` bytes from `offset` on reports. -/
def pendingMask (offset len : Nat) : Nat :=
  ((List.range 4).filter (fun k => decide (offset ≤ k ∧ k < offset + len))).foldl (fun acc k => acc + 255 * 256 ^ k) 0

/-! ### Log page 0xC2 (R408, R414) -/

/-- R408: the 128 bytes of a record. -/
def recordBytes (r : DayRec) : List Byte :=
  let snap := r.snap.flatMap (leBytes 4)
  withCrc (stampBytes r.stamp ++ leBytes 2 r.trig ++ leBytes 1 (r.sev % 8) ++ leBytes 1 (r.set % 8 + 8 * r.snap.length)
    ++ leBytes 4 r.d0 ++ leBytes 4 r.d1 ++ leBytes 4 r.d2 ++ leBytes 4 r.d3 ++ leBytes 4 r.dseq ++ zeros 4
    ++ (snap ++ zeros (84 - snap.length)))

/-- R414: the Daybook's ring, its header and its slots. -/
def dayPage (s : State) (ring : Table DayRec) (dropped : Nat) (t : Stamp) : Page := fun i =>
  if i < 0x40 then
    pageOf [(0, leBytes 4 (rd s dbB DB_SEQ_NEWEST)), (4, leBytes 4 ring.length), (8, leBytes 4 dropped), (0xC, leBytes 4 (rd s dbB DB_STATUS_FROZEN)), (0x10, stampBytes t)] i
  else match tfind ring ((i - 0x40) / 128) with
    | some r => (recordBytes r)[(i - 0x40) % 128]?
    | none => some 0

/-! ### Log page 0xC3 (R341, R343, R346) -/

/-- R341: the 64 bytes of a mark. -/
def markBytes (m : Mark) : List Byte :=
  withCrc (stampBytes m.stamp ++ leBytes 1 m.kind ++ leBytes 1 m.source ++ zeros 2 ++ leBytes 8 m.before ++ leBytes 8 m.after
    ++ leBytes 8 (toBits 64 m.d) ++ leBytes 4 (toBits 32 m.rate) ++ leBytes 4 m.seq ++ zeros 12)

/-- R343: the 128 bytes of a meter record. -/
def meterBytes (m : Meter) : List Byte :=
  withCrc (stampBytes m.stamp ++ leBytes 2 m.length ++ leBytes 1 m.flags ++ leBytes 1 1 ++ (List.range 26).flatMap (fun c => leBytes 4 (m.energy.getD c 0)) ++ leBytes 4 m.seq)

/-- R346: the header of the sealed log's page. -/
def sealedHeader (s : State) (newest held lapped : Nat) (t : Stamp) : Page :=
  zeroFill (pageOf [(0, leBytes 4 newest), (4, leBytes 4 held), (8, leBytes 4 lapped), (0xC, leBytes 4 (rd s asyB ASY_SW_VERSION)), (0x10, leBytes 4 (rd s asyB ASY_SW_CRC_CRC)),
    (0x14, leBytes 4 (rd s asyB ASY_PARAM_INTERVAL_S)), (0x18, stampBytes t)])

def meterPage (s : State) (t : Stamp) : Page := fun i =>
  if i < 0x40 then sealedHeader s (rd s asyB ASY_METER_SEQ_SEQ) s.asy.meters.length s.asy.metersOver t i
  else match tfind s.asy.meters ((i - 0x40) / 128) with
    | some m => (meterBytes m)[(i - 0x40) % 128]?
    | none => some 0

def markPage (s : State) (t : Stamp) : Page := fun i =>
  if i < 0x40 then sealedHeader s (rd s asyB ASY_MARK_SEQ_SEQ) s.asy.marks.length s.asy.marksOver t i
  else match tfind s.asy.marks ((i - 0x40) / 64) with
    | some m => (markBytes m)[(i - 0x40) % 64]?
    | none => some 0

/-! ### Log page 0xC4 (R419) -/

/-- R419: one hour: the seven one-byte fields follow the hour in the order of the list, the minutes stand at byte 12
(notes/assumptions/41.md). -/
def hourFields (e : Nat) (hour : Nat) (x : TempHour) : List (Nat × List Byte) :=
  let o := 0x40 + 16 * e
  let t (v : Int) : List Byte := leBytes 1 (toBits 8 v)
  [(o, leBytes 4 hour), (o + 4, t x.dieMax ++ t x.dieMin ++ t x.rsvMax ++ t x.hdaMax ++ t x.hdaMin ++ leBytes 1 x.humidity ++ leBytes 1 x.hottest), (o + 12, leBytes 2 x.minutes)]

/-- R419: temperature history. -/
def tempPage (s : State) : Page :=
  let held := s.bur.history
  pageOf ([(0, leBytes 4 s.bur.newest), (4, leBytes 4 held.length)] ++ held.flatMap (fun e => hourFields e.1 e.2.1 e.2.2))

/-- The bytes of an address block of the configuration that runs: section 3 of a host port, section 0x10 of the management port. -/
def addressBlock (s : State) (port : Option HostId) : Option (List Byte) :=
  (match port with
   | some h => findSection s.cfg.running 3 h.val
   | none => findSection s.cfg.running 0x10 0).map (fun (x : Section) => s.cfg.running.drop x.off)

/-- The IP version of an address block. -/
def ipVersion (b : List Byte) : Nat := leAt b 0 1

/-! ### Discovery (R288) -/

/-- The ASCII bytes of a text, filled with zeros. -/
def asciiBytes (n : Nat) (t : String) : List Byte :=
  let b : List Byte := t.toList.map (fun c => BitVec.ofNat 8 c.toNat)
  (b ++ zeros (n - b.length)).take n

/-- R288: the NQN of the subsystem in the UUID form. -/
def subsystemNqn (s : State) : List Byte :=
  let shelf := (List.range 4).foldl (fun acc i => acc + rd s cfgB (CFG_SHELF_SHELF.ix i) * 2 ^ (32 * i)) 0
  asciiBytes 32 "nqn.2014-08.org.nvmexpress:uuid:" ++ (List.range 36).map (Config.nqnUuid shelf) ++ zeros 188

/-- An IPv4 address as text. -/
def ipv4Text (b : List Byte) : String := String.intercalate "." ((b.take 4).map (fun x => toString x.toNat))

/-- A hexadecimal digit as text. -/
def hexText (n : Nat) : String := toString (("0123456789abcdef".toList).getD (n % 16) '0')

/-- An IPv6 address as text: eight groups of four digits. -/
def ipv6Text (b : List Byte) : String :=
  String.intercalate ":" ((List.range 8).map (fun i => String.join ([b.getD (2 * i) 0, b.getD (2 * i + 1) 0].map (fun x => hexText (x.toNat / 16) ++ hexText x.toNat))))

/-- One entry of the discovery log, in the layout of the NVMe specification: TCP, the address family, an NVM subsystem, the port, a static
controller, the port number, the NQN, the address. -/
def discoveryEntry (s : State) (o : Nat) (h : HostId) (b : List Byte) : List (Nat × List Byte) :=
  let v6 := decide (ipVersion b = 6)
  let text := if v6 then ipv6Text ((b.drop 8).take 16) else ipv4Text (b.drop 8)
  [(o, leBytes 1 3 ++ leBytes 1 (if v6 then 2 else 1) ++ leBytes 1 2), (o + 4, leBytes 2 h.val ++ leBytes 2 (h.val + 1) ++ leBytes 2 32),
    (o + 32, asciiBytes 32 "4420"), (o + 256, subsystemNqn s), (o + 512, asciiBytes 256 text)]

/-- The ports that have an IP address. -/
def addressed (s : State) : List (HostId × List Byte) :=
  ((List.finRange 4).filter (fun h => (addressBlock s (some h)).any (fun b => decide (ipVersion b = 4 ∨ ipVersion b = 6)))).map
    (fun h => (h, (addressBlock s (some h)).getD []))

/-- R288: log page 0x70: one entry for each port that has an IP address. -/
def discoveryPage (s : State) : Page :=
  let ports := addressed s
  pageOf ((8, leBytes 8 ports.length) :: (16, leBytes 2 0) :: ports.zipIdx.flatMap (fun x => discoveryEntry s (1024 + 1024 * x.2) x.1.1 x.1.2))

/-! ### Identify (R289, R292) -/

/-- The bytes of the running package's VERSION: the Firmware Revision. -/
def runningVersion (s : State) : List (Nat × List Byte) :=
  match s.cfg.flash with
  | none => []
  | some f => let r := rd s burB BUR_FW_RUNNING_SLOT
    if r = 1 then [(64, f.fw1.version.take 8)] else if r = 2 then [(64, f.fw2.version.take 8)] else []

/-- Identify Controller, in the layout of the NVMe specification: the fields that this spec gives. -/
def controllerData (s : State) (h : Nat) : Page :=
  pageOf (runningVersion s ++ [(77, leBytes 1 12), (78, leBytes 2 (h + 1)), (80, leBytes 4 0x20000), (256, leBytes 2 4), (258, leBytes 1 0xFF), (259, leBytes 1 3),
    (262, leBytes 1 63), (266, leBytes 2 358), (268, leBytes 2 378), (319, leBytes 1 1), (320, leBytes 2 1), (328, leBytes 4 0), (516, leBytes 4 4), (768, subsystemNqn s), (1792, leBytes 4 516)])

/-- The reaches of an actuator's layout (R205) that are not Retired. -/
def usable (s : State) (e : Nat × LedEntry) : Bool :=
  decide (e.2.state ≠ 4) && decide (e.1 % 10240 < (layoutOf s (e.1 / 10240)).reaches)

/-- R21: raw capacity in bytes: 4 GiB a reach, less the surfaces that an identity record does not declare and the Retired reaches. -/
def rawCapacity (s : State) : Nat := (s.led.entries.filter (usable s)).length * 2 ^ 32

/-- R21: user capacity of raw bytes at k + m. -/
def userCapacity (raw k m : Nat) : Nat := raw * k / max 1 (k + m)

/-- The free slots of a reach: all of an Empty one and of a Filled one without a live cell, which is opened anew (R230), and the rest of an
Open one. -/
def freeSlots (s : State) (e : Nat × LedEntry) : Nat :=
  if e.2.state = 0 ∨ (e.2.state = 2 ∧ liveOn s (e.1 / 10240) (e.1 % 10240) = false) then 1048576
  else if e.2.state = 1 then 1048576 - e.2.wp
  else 0

/-- R291: the free user capacity at a class's own geometry, over the HDAs that it lists. -/
def freeCapacity (s : State) (q : Nat) : Nat :=
  let mine (e : Nat × LedEntry) := usable s e && bitOf (rd s srB (SR_CLASS_4_HDAS.ix q)) (portOfAct (e.1 / 10240))
  let raw := (s.led.entries.filter mine).foldl (fun n e => n + freeSlots s e * 4096) 0
  userCapacity raw (rd s srB (SR_CLASS_0_K.ix q)) (rd s srB (SR_CLASS_0_M.ix q))

/-- KV Identify Namespace, in the layout of the Key Value command set (notes/assumptions/41.md): the capacity, the maximum key size and the
maximum value size of R291. -/
def kvNamespace (s : State) (ns : Nat) : Page := pageOf [(0, leBytes 8 (freeCapacity s (ns - 1))), (72, leBytes 2 16), (76, leBytes 4 (2 ^ 24))]

/-- Identify's active namespace list: the active identifiers above one, then zeros. -/
def activeList (s : State) (above : Nat) : Page := zeroFill (pageOf [(0, ([1, 2, 3, 4].filter (fun n => decide (above < n) && nsActive s n)).flatMap (leBytes 4))])

end Sys2Proof.Machine
end

