-- ==== Sys2Proof/Machine/NvmeOps.lean ====
section
/-!
DEFINITION. Sys2Proof/Machine/NvmeOps.lean: when a command that a host has sent is fetched (R288-R290, R315), the properties, the
features, Get Log Page and Identify, which the management link shares (R403).
-/
namespace Sys2Proof.Machine
open Reg

/-- The queue number that stands for the discovery controller's admin queue on port 8009 (R288); no NVMe queue has it. -/
def discQid : Nat := 65536

/-- The module fetches a command: its queue is connected, an I/O queue's controller is ready, no activation has stopped the fetching
(R315) and no power-fail sequence runs (R49). -/
def fetched (s : State) (c : Sqe) : Bool :=
  let b := hostBase c.port.val
  s.obj.activating.isNone && !s.pwr.failing &&
    (if c.qid = 0 then flag s b HP_CONN_ADMIN
     else if c.qid = discQid then decide ((ctrlOf s c.port.val).discovery ≠ 0)
     else flag s b HP_CONN_READY && (ctrlOf s c.port.val).queues.any (fun e => decide (e.1 = c.qid)))

/-- A command of a host: its effect if it is fetched. -/
def nvme (c : Sqe) (f : State → State) (s : State) : Res State := run .core (when (fetched s c) f) s

/-- An admin command: on the admin queue. One sent on an I/O queue is no command of that queue (R293). -/
def admin (c : Sqe) (f : State → State) (s : State) : Res State :=
  nvme c (fun s => if c.qid = 0 then f s else complete c 1 0 0 s) s

/-! ### Properties (R286, R289, R290) -/

/-- The property at an offset as two halves; the bits that the spec does not give are open. None: no such property. -/
def property (s : State) (h ofst v : Nat) : Option (Nat × Nat) :=
  let b := hostBase h
  let x := ctrlOf s h
  if ofst = 0 then some (x.depthMax - 1 + v % 256 * 2 ^ 16 + 0x46 * 2 ^ 24, setBit (v / 256 % 2 ^ 16) 4 true + v / 2 ^ 24 % 2 ^ 12 * 2 ^ 20)
  else if ofst = 8 then some (0x20000, 0)
  else if ofst = 0x14 then some (b2n (flag s b HP_CONN_ENABLED) + 2 * (v % 2 ^ 31), 0)
  else if ofst = 0x1C then some (b2n (flag s b HP_CONN_READY) + 32 * b2n (flag s b HP_CONN_PROCESSING_PAUSED) + 2 * (v % 16) + 64 * (v / 16 % 2 ^ 26), 0)
  else none

/-! ### Time for hosts (R294) -/

/-- UTC milliseconds since 1970 of 2000-01-01T00:00:00. -/
def utcBase : Nat := 946684800000

/-- R294: the Assay time in UTC milliseconds. -/
def utcMillis (s : State) : Nat := s.time.assay * 1000 / 2 ^ 24 + utcBase - rd s asyB ASY_UTC_TAI_UTC * 1000

/-! ### Get Features (R294) -/

/-- The value of a feature, with the bytes that it transfers. -/
def featureValue (s : State) (h fid v : Nat) : Option (Nat × List Byte) :=
  let x := ctrlOf s h
  if fid = 2 then some (0, [])
  else if fid = 4 then some (x.tempOver, [])
  else if fid = 6 then some (1, [])
  else if fid = 7 then some ((x.ioqMax - 1) * 65537, [])
  else if fid = 0xB then some (x.asyncCfg, [])
  else if fid = 0xE then some (v % 2 ^ 32, leBytes 6 (utcMillis s) ++ leBytes 2 (v / 2 ^ 32))
  else if fid = 0xF then some (x.kato, [])
  else none

/-! ### Get Log Page (R295) -/

/-- The page of an identifier on an admin queue; none: Invalid Field in Command. -/
def logPage (s : State) (h lid lsp : Nat) (t : Stamp) (v : Nat) : Option Page :=
  if lid = 1 then some (errorPage s h)
  else if lid = 2 then some (healthPage s h (dieTemp s v))
  else if lid = 3 then some (firmwarePage s)
  else if lid = 5 then some (effectsPage v)
  else if lid = 0xC0 then some (fun _ => none)
  else if lid = 0xC1 then some (hdaPage s)
  else if lid = 0xC2 then
    if lsp = 0 then some (dayPage s s.day.sram (rd s dbB DB_DROPS_DROPPED) t)
    else if lsp = 1 ∧ !(flag s rsvB RSV_STATUS_OUT_OF_SERVICE && !flag s rsvB RSV_STATUS_READ_ONLY) then some (dayPage s s.day.ring s.day.ringDropped t)
    else none
  else if lid = 0xC3 then (if lsp = 0 then some (meterPage s t) else if lsp = 1 then some (markPage s t) else none)
  else if lid = 0xC4 then some (tempPage s)
  else none

/-- Read a log page: its bytes, with the stamp of the read and a free value for its open bytes. `src` stamps the read. -/
def readPage (src h lid lsp offset len : Nat) (s : State) : Option (List Byte) × State :=
  let (v, s1) := takeFree s
  let (t, s2) := stamp src s1
  match logPage s2 h lid lsp t v with
  | some p => (some (pageBytes p offset len (v / 256)), s2)
  | none => (none, s)

/-- R417: what a read of page 0xC1 reported is pending no longer. -/
def clearPending (offset len : Nat) (s : State) : State :=
  wr burB BUR_WARN_PENDING (rd s burB BUR_WARN_PENDING &&& (0xFFFFFFFF ^^^ pendingMask offset len)) s

/-! ### Identify (R292) -/

/-- The status and the data of an Identify. The bytes that neither this spec nor a field of it gives are open. -/
def identifyData (s : State) (h cns csi nsid : Nat) : Nat × Page :=
  let open_ : Page := fun _ => none
  let ns (p : Page) : Nat × Page := if nsActive s nsid then (0, p) else (0xB, open_)
  if cns = 0 ∨ cns = 3 then ns open_
  else if cns = 1 then (0, controllerData s h)
  else if cns = 2 then (0, activeList s nsid)
  else if cns = 5 ∧ csi = 1 then ns (kvNamespace s nsid)
  else if cns = 6 ∧ csi = 1 then (0, open_)
  else (2, open_)

end Sys2Proof.Machine
end

