-- ==== Sys2Proof/Machine/Assay.lean ====
section
/-!
DEFINITION. Sys2Proof/Machine/Assay.lean: the Assay tile (R333-R351): time offers, steps and slews (R337-R340), continuity marks (R341),
the meter (R342-R344), the backup cell (R348) and the seal (R349).
-/
namespace Sys2Proof.Machine
open Reg

def modAsy (f : AssayState → AssayState) (s : State) : State := { s with asy := f s.asy }

/-- |d| in ticks is at least `us` microseconds. -/
def atLeastUs (d : Int) (us : Nat) : Bool := decide (us * 2 ^ 24 ≤ d.natAbs * 1000000)

def timeValid (s : State) : Bool := flag s asyB ASY_STATUS_TIME_VALID

/-- R337: TIME_VALID in both registers. -/
def setTimeValid (v : Bool) (s : State) : State := setF asyB ASY_STATUS_TIME_VALID v (setF fabB STAMP_STATUS_TIME_VALID v s)

/-! ### Time (R336) -/

/-- R336: one cycle of the main oscillator: one tick, or with a rate adjustment none or two, so that they are evenly spread. -/
def oscCycle (s : State) : State :=
  let rate : Int := match s.asy.slew with | some (ppm, _) => ppm * 1000 | none => 0
  let sum := s.asy.rateAcc + rate
  let more : Int := if 10 ^ 9 ≤ sum then 1 else if sum ≤ -(10 ^ 9 : Int) then -1 else 0
  pass (1 + more).toNat (modAsy (fun a => { a with rateAcc := sum - more * 10 ^ 9 }) s)

/-! ### Marks (R341, R345) -/

/-- A mark enters the ring of the sealed log; a full ring's oldest entry is overwritten and counted. -/
def markPut (m : Mark) (s : State) : State :=
  let slot := m.seq % 262144
  modAsy (fun a => { a with marks := tins a.marks slot m, marksOver := a.marksOver + b2n (tfind a.marks slot).isSome }) (wr asyB ASY_MARK_SEQ_SEQ m.seq s)

/-- The severity of a mark's copy in the Daybook. -/
def markSev (kind : Nat) : Nat := if kind = 3 ∨ kind = 8 then 7 else 5

/-- R341: write a mark of a kind, with its copy in the Daybook (R334, R409). -/
def mark (kind source before after : Nat) (d rate : Int) (s : State) : State :=
  let (t, s) := stamp srcAssay s
  let m : Mark := ⟨t, kind, source, before, after, d, rate, (rd s asyB ASY_MARK_SEQ_SEQ + 1) % 2 ^ 32⟩
  let s := markPut m s
  dayRecord t (0x300 + kind) (markSev kind) (kind + 256 * source) (before % 2 ^ 32) (before / 2 ^ 32) (after % 2 ^ 32) s

/-- A mark of an event that leaves the time as it is. -/
def markNow (kind source : Nat) (d rate : Int) (s : State) : State := mark kind source s.time.assay s.time.assay d rate s

/-! ### Meter records (R343-R345) -/

/-- The end of the meter interval that contains a time (R343). -/
def intervalEnd (s : State) (t : Nat) : Nat :=
  let n := secs (max 1 (rd s asyB ASY_PARAM_INTERVAL_S))
  (t / n + 1) * n

/-- R342: a channel's rated load in 10 mW units: 250 W for the feeds, 20 W for a port. -/
def rated (c : Nat) : Nat := if c < 2 then 25000 else 2000

/-- R344: a power is above 120 % of the rated load. -/
def overrange (c p : Nat) : Bool := decide (rated c * 6 < p * 5)

/-- The channels of an interval, in channel order; none given reads 0. -/
def chansOf (l : List ChanMeter) : List ChanMeter := (List.range 26).map (fun c => l.getD c ⟨0, 0, 0, 0⟩)

/-- FLAGS of R343: those noted during the interval, and those that stand at its end. -/
def meterFlags (s : State) (chans : List ChanMeter) : Nat :=
  let overs := (List.range 26).any (fun c => overrange c (chans.getD c ⟨0, 0, 0, 0⟩).peak)
  s.asy.intFlags ||| (b2n (!timeValid s) + 8 * b2n (flag s asyB ASY_STATUS_LONG_SLEW) + 16 * b2n overs + 32 * b2n (!s.asy.sealed))

/-- R343, R345: the interval in progress ends at `till`: its record under the stamp of its start, the cumulative energies and the powers, the
copy in the Daybook. -/
def meterClose (till : Nat) (l : List ChanMeter) (s : State) : State :=
  let chans := chansOf l
  let q := (rd s asyB ASY_METER_SEQ_SEQ + 1) % 2 ^ 32
  let m : Meter := ⟨s.asy.intStamp, (till - s.asy.intStart) / 2 ^ 24, meterFlags s chans, chans.map (fun x => x.mJ % 2 ^ 32), q⟩
  let slot := q % 2097152
  let s := modAsy (fun a => { a with meters := tins a.meters slot m, metersOver := a.metersOver + b2n (tfind a.meters slot).isSome }) (wr asyB ASY_METER_SEQ_SEQ q s)
  let show_ (c : Nat) (s : State) : State :=
    let x := chans.getD c ⟨0, 0, 0, 0⟩
    setF asyB (ASY_POWER_OVERRANGE.ix c) (overrange c x.present) (wr asyB (ASY_POWER_POWER.ix c) x.mean (pairAdd (asyB + 0x100 + 8 * c) x.mJ s))
  let s := forEach (List.range 26) show_ s
  let (t, s) := stamp srcAssay s
  dayRecord t 0x310 0 q ((chans.getD 0 ⟨0, 0, 0, 0⟩).mJ % 2 ^ 32) ((chans.getD 1 ⟨0, 0, 0, 0⟩).mJ % 2 ^ 32) 0 s

/-- R343: an interval begins at `at_` with FLAGS bits `flags`; its full stamp is issued now. -/
def meterStart (at_ flags : Nat) (s : State) : State :=
  let (t, s) := stamp srcAssay s
  modAsy (fun a => { a with intStart := at_, intStamp := t, intFlags := flags }) s

/-- FLAGS bits that an interval has from its start. -/
def startFlags (s : State) : Nat := b2n (!timeValid s) + 8 * b2n (flag s asyB ASY_STATUS_LONG_SLEW)

/-- R343: an interval's end, at its aligned boundary. -/
def meterEndOp (l : List ChanMeter) (s : State) : State :=
  let till := intervalEnd s s.asy.intStart
  let s := meterClose till l (if s.time.assay < till then setAssay till s else s)
  meterStart till (startFlags s) s

def execMeterIntervalEnd (chans : List ChanMeter) (s : State) : Res State := run .always (meterEndOp chans) s

/-- The 26 channels of an interval that no command reports: free values. -/
def freeChans : Nat → State → List ChanMeter × State
  | 0, s => ([], s)
  | n + 1, s =>
    let (v, s) := takeFree s
    let (w, s) := takeFree s
    let (l, s) := freeChans n s
    (⟨v, w % 65536, w / 65536 % 65536, w / 2 ^ 32⟩ :: l, s)

/-! ### Steps and slews (R337, R339, R344) -/

/-- R339, R344, R351: step forward by d. The interval ends at the step, with energies that no command carries; both records carry STEP. The
groups start afresh. With the seal broken no step sets TIME_VALID (R349). -/
def stepForward (source : Nat) (d : Int) (s : State) : State :=
  let before := s.time.assay
  let (l, s) := freeChans 26 s
  let s := meterClose before l (modAsy (fun a => { a with intFlags := a.intFlags ||| 4 }) s)
  let s := setAssay (before + d.toNat) s
  let s := meterStart s.time.assay (4 ||| startFlags s) (when s.asy.sealed (setTimeValid true) s)
  let s := modAsy (fun a => { a with groups := [], bigSince := none }) s
  mark 3 source before s.time.assay d 0 s

/-- A slew starts: its rate in ppm. -/
def slewStart (source : Nat) (d ppm : Int) (s : State) : State :=
  let s := modAsy (fun a => { a with slew := some (ppm, source) }) s
  let s := wr asyB ASY_STATUS_SLEWING 1 (wr asyB ASY_RATE_RATE_PPB (toBits 32 (ppm * 1000)) s)
  let s := setF asyB ASY_STATUS_LONG_SLEW (decide (ppm = -1000)) s
  let s := when (decide (ppm = -1000)) (modAsy (fun a => { a with intFlags := a.intFlags ||| 8 })) s
  markNow 4 source d (ppm * 1000) s

/-- A slew ends: mark 5. -/
def slewEnd (d : Int) (s : State) : State :=
  match s.asy.slew with
  | none => s
  | some (_, source) =>
    let s := modAsy (fun a => { a with slew := none }) s
    let s := wr asyB ASY_STATUS_SLEWING 0 (wr asyB ASY_STATUS_LONG_SLEW 0 (wr asyB ASY_RATE_RATE_PPB 0 s))
    markNow 5 source d 0 s

/-- R339: mark 6, at most once an hour for a source. -/
def disagreeMark (source : Nat) (d : Int) (s : State) : State :=
  let due := match tfind s.asy.lastMark6 source with
    | some t => decide (t + secs 3600 ≤ s.time.assay)
    | none => true
  when due (fun s => markNow 6 source d 0 (modAsy (fun a => { a with lastMark6 := tins a.lastMark6 source s.time.assay }) s)) s

/-! ### Sources (R338) -/

/-- R338: the disciplining source: the lowest-numbered PTP port with a valid offer, else PPS_IN while TIME_VALID is set. -/
def discipline (s : State) : Nat :=
  match [1, 2, 3, 4].find? (fun k => (tfind s.asy.lastOffer k).isSome) with
  | some k => k
  | none => if (tfind s.asy.lastOffer 5).isSome && timeValid s then 5 else 0

/-- ASY_STATUS.SOURCE follows; another source's disagreement begins anew. -/
def syncSource (s : State) : State :=
  let k := discipline s
  if rd s asyB ASY_STATUS_SOURCE = k then s else wr asyB ASY_STATUS_SOURCE k (modAsy (fun a => { a with bigSince := none }) s)

/-- R340: TAI_UTC from the disciplining PTP port's value, otherwise the sealed parameter; a change writes mark 7. -/
def utcUpdate (source : Nat) (offset : Option Nat) (s : State) : State :=
  let v := match offset with | some u => u % 65536 | none => s.asy.taiUtc
  let s' := setF asyB ASY_UTC_FROM_PTP offset.isSome (wr asyB ASY_UTC_TAI_UTC v s)
  if rd s asyB ASY_UTC_TAI_UTC = v then s' else markNow 7 source 0 0 s'

/-- R339, R351: a source stops offering: its slew ends, and the next source takes over. -/
def loseSource (k : Nat) (s : State) : State :=
  let s := modAsy (fun a => { a with lastOffer := tdel a.lastOffer k, groups := tdel a.groups k }) s
  let s := match s.asy.slew with
    | some (_, src) => if src = k then slewEnd 0 s else s
    | none => s
  let was := rd s asyB ASY_STATUS_SOURCE
  let s := syncSource s
  if was = k ∧ (discipline s = 0 ∨ discipline s = 5) then utcUpdate (discipline s) none s else s

/-- A source's offer joins its group of the last 16. -/
def noteOffer (k : Nat) (d : Int) (s : State) : State :=
  modAsy (fun a => { a with groups := tins a.groups k ((tget [] a.groups k ++ [d]).drop ((tget [] a.groups k).length - 15)), lastOffer := tins a.lastOffer k s.time.assay }) s

/-- R339: a full group whose values lie within 1 ms of each other. -/
def consistent (g : List Int) : Bool := decide (g.length = 16) && g.all (fun x => g.all (fun y => !decide (2 ^ 24 < (x - y).natAbs * 1000)))

/-! ### Offers (R339) -/

/-- ASY_OFFSET: the last d, saturating. -/
def showOffset (d : Int) (s : State) : State :=
  wr asyB ASY_OFFSET_D (toBits 32 (if d < -(2 ^ 31 : Int) then -(2 ^ 31 : Int) else if (2 ^ 31 : Int) ≤ d then 2 ^ 31 - 1 else d)) s

/-- R339: |d| of 100 ms or more from the disciplining source. -/
def bigOffset (k : Nat) (d : Int) (s : State) : State :=
  let s := wr asyB ASY_STATUS_DISAGREE 1 (disagreeMark k d s)
  let since := match s.asy.bigSince with | some t => t | none => s.time.assay
  let s := modAsy (fun a => { a with bigSince := some since }) s
  let hours := rd s asyB ASY_PARAM_STEP_AFTER_H
  if hours = 0 ∨ s.time.assay < since + secs (3600 * hours) then s
  else if 0 < d then stepForward k d s
  else if s.asy.slew.any (fun x => decide (x.1 = -1000)) then s
  else slewStart k d (-1000) s

/-- R339: an offer of the disciplining source. One below 100 ms ends the time for which |d| has stayed there. -/
def disciplineOffer (k : Nat) (d : Int) (s : State) : State :=
  let s := when (!atLeastUs d 100000) (modAsy (fun a => { a with bigSince := none })) (showOffset d s)
  let small := !atLeastUs d 100
  let s := if small then slewEnd d (wr asyB ASY_STATUS_DISAGREE 0 s) else s
  let ok := consistent (tget [] s.asy.groups k)
  if !timeValid s && s.asy.sealed && ok && decide (0 < d) then stepForward k d s
  else if !ok then s
  else if !atLeastUs d 100000 then
    if atLeastUs d 1000 && s.asy.slew.isNone then slewStart k d (if 0 < d then 20 else -20) s else s
  else bigOffset k d s

/-- R338, R339: an offer of a source: it disciplines, or it is compared. -/
def offer (k : Nat) (d : Int) (s : State) : State :=
  let s := syncSource (noteOffer k d s)
  if discipline s = k then disciplineOffer k d s
  else if atLeastUs d 100000 then disagreeMark k d s
  else s

/-- An integer's place in an ascending list. -/
def insInt (d : Int) : List Int → List Int
  | [] => [d]
  | x :: xs => if d ≤ x then d :: x :: xs else x :: insInt d xs

/-- The median of one second's offsets: of an even number the lower of the middle two (DESIGN CHOICE, notes/assumptions/39.md). -/
def median (l : List Int) : Int := (l.foldr insInt []).getD ((l.length - 1) / 2) 0

/-- R338: a PTP port's offer counts: SLAVE, clockClass 6 or 7, the PTP timescale, and an offset in the second. -/
def ptpValid (x : PtpSecond) : Bool := x.slave && decide (x.clockClass = 6 ∨ x.clockClass = 7) && x.ptpScale && !x.offsets.isEmpty

/-- R338: a PTP port's offer, where the image lets it offer. -/
def ptpOp (h : Nat) (x : PtpSecond) (s : State) : State :=
  if !bitOf (timeSources s) h then s
  else if !ptpValid x then loseSource (h + 1) s
  else
    let s := modAsy (fun a => { a with lastPtp := some s.time.assay }) s
    let s := offer (h + 1) (median x.offsets) s
    if discipline s = h + 1 then utcUpdate (h + 1) x.utcOffset s else s

def execPtpOffer (h : HostId) (x : PtpSecond) (s : State) : Res State := run .mgmt (ptpOp h.val x) s

/-- R338: PPS_IN gives phase only: the whole second nearest to the edge, less the time, in (-0.5 s, 0.5 s]. -/
def ppsPhase (t : Nat) : Int := let f : Int := t % 2 ^ 24; if f < 2 ^ 23 then -f else 2 ^ 24 - f

/-- R338: a PPS_IN edge at a time. The offer is valid where the edges come every 1 s ± 1 ms. -/
def ppsOp (at_ : Nat) (s : State) : State :=
  let s := if s.time.assay < at_ then setAssay at_ s else s
  let last := s.asy.lastPps
  let s := modAsy (fun a => { a with lastPps := some s.time.assay }) s
  let valid := match last with
    | some t => decide (((s.time.assay : Int) - t - 2 ^ 24).natAbs * 1000 ≤ 2 ^ 24)
    | none => false
  if !bitOf (timeSources s) 4 then s
  else if valid then offer 5 (ppsPhase s.time.assay) s
  else loseSource 5 s

def execPpsInEdge (at_ : Nat) (s : State) : Res State := run .always (ppsOp at_) s

/-- R339: a Timestamp offer is advice: a step only while TIME_VALID is clear. -/
def timestampOffer (d : Int) (s : State) : State :=
  let s := showOffset d s
  let quiet := match s.asy.lastPtp with | some t => decide (t + secs 600 ≤ s.time.assay) | none => true
  if !timeValid s && s.asy.sealed && quiet && decide (0 < d) then stepForward 6 d s
  else if atLeastUs d 100000 then wr asyB ASY_STATUS_DISAGREE 1 (disagreeMark 6 d s)
  else s

/-- R294, R338: a Timestamp Set in UTC milliseconds. -/
def timestampOp (c : Sqe) (utcMs : Nat) (s : State) : State :=
  let tai : Int := (utcMs : Int) + rd s asyB ASY_UTC_TAI_UTC * 1000 - utcBase
  let d : Int := tai * 2 ^ 24 / 1000 - s.time.assay
  complete c 0 0 0 (if bitOf (timeSources s) 5 then timestampOffer d s else s)

def execSetTimestamp (c : Sqe) (save : Bool) (utcMs : Nat) (s : State) : Res State :=
  admin c (fun s => if save then complete c 2 0 0 s else timestampOp c utcMs s) s

/-! ### Cell and seal -/

/-- R348: the cell falls below 2.70 V. -/
def cellOp (mv : Nat) (s : State) : State :=
  if 2700 ≤ mv then s
  else
    let was := flag s asyB ASY_STATUS_CELL_LOW
    let s := wr asyB ASY_CELL_CELL_MV mv (wr asyB ASY_STATUS_CELL_LOW 1 s)
    if was then s else earlyWarn 12 4 0 mv (markNow 9 0 0 0 s)

def execCellLow (mv : Nat) (s : State) : Res State := run .always (cellOp mv) s

/-- R349: what the tile does at a breach: the seal is watched on the cell too. -/
def sealOp (s : State) : State :=
  let s := wr asyB ASY_STATUS_SEAL_BROKEN 1 (setTimeValid false s)
  modAsy (fun a => { a with sealed := false, intFlags := a.intFlags ||| 33 }) s

/-- R349, R389: with the module powered, the mark's copy reaches the Daybook and the dual-rail pair reports. -/
def sealRail (s : State) : State := railOp .assay false 1 (markNow 8 0 0 0 (sealOp s))

/-- Without power the mark enters the sealed log alone. -/
def sealAlone (s : State) : State :=
  let (t, s) := stamp srcAssay (sealOp s)
  markPut ⟨t, 8, 0, s.time.assay, s.time.assay, 0, 0, (rd s asyB ASY_MARK_SEQ_SEQ + 1) % 2 ^ 32⟩ s

def execSealBreach (s : State) : Res State :=
  runIf (!flag s asyB ASY_STATUS_SEAL_BROKEN) (fun s => if s.pwr.powered then sealRail s else sealAlone s) s

end Sys2Proof.Machine
end

