-- ==== Sys2Proof/Machine/ConfigCommit.lean ====
section
/-!
DEFINITION. Sys2Proof/Machine/ConfigCommit.lean: Configuration Commit (R305, R360, R361).
-/
namespace Sys2Proof.Machine
open Reg

def magicBytes : List Byte := leBytes 4 0x46434D4C

/-- R305: the header, the length and the CRC of an image as it was sent. -/
def sentOk (img : List Byte) : Bool :=
  imgCandidate img && decide (1 ≤ leAt img 6 2 ∧ leAt img 6 2 ≤ 256) && decide (leAt img 0x34 12 = 0) && decide (leAt img 0x18 16 ≠ 0)
    && decide (imgLength img = img.length) && decide (imgCrc img = leAt img 0x10 4)

/-- R360: SEQUENCE is CFG_RUNNING + 1, and the CRC is computed afresh; all other bytes are as the host sent them. -/
def renumber (seq : Nat) (img : List Byte) : List Byte :=
  let a := img.take 8 ++ leBytes 4 seq ++ img.drop 12
  a.take 0x10 ++ leBytes 4 (imgCrc a) ++ a.drop 0x14

/-- The whole image is received: it is checked, and the write to the other copy starts. -/
def commitFinal (c : Sqe) (img : List Byte) (s : State) : State :=
  let s := { s with obj := { s.obj with image := none } }
  let run := rd s cfgB CFG_RUNNING_SEQ
  if run = 0xFFFFFFFE ∨ sentOk img = false then complete c 0xC9 0 0 s
  else
    let s := wr cfgB CFG_STATUS_STATE 6 s
    { s with cfg := { s.cfg with committing := some (renumber ((run + 1) % 2 ^ 32) img) }, obj := { s.obj with commitCmd := some c } }

/-- The bytes received so far of the image of a controller. -/
def received (s : State) (h : Nat) : List Byte :=
  match s.obj.image with
  | some (k, b) => if k = h then b else []
  | none => []

/-- R305: one chunk. -/
def commitOp (c : Sqe) (first final : Bool) (offset : Nat) (data : List Byte) (s : State) : State :=
  let h := c.port.val
  let other := match s.obj.image with | some (k, _) => decide (k ≠ h) | none => false
  let got := if first then [] else received s h
  if data.length % 4 ≠ 0 ∨ 1048576 < data.length then complete c 2 0 0 s
  else if other = true ∨ s.cfg.committing.isSome = true then complete c 0xCA 0 0 s
  else if offset ≠ got.length ∨ 0x1000000 < offset + data.length then complete c 2 0 0 s
  else if final then commitFinal c (got ++ data) s
  else complete c 0 0 0 { s with obj := { s.obj with image := some (h, got ++ data) } }

def execConfigurationCommit (c : Sqe) (first final : Bool) (offset : Nat) (data : List Byte) (s : State) : Res State :=
  admin c (commitOp c first final offset data) s

/-- The copy that the module does not run from takes bytes. -/
def putCopy (img : List Byte) (s : State) : State :=
  let used := rd s cfgB CFG_STATUS_COPY_USED
  let flash := s.cfg.flash.map (fun f => if used = 0 then { f with copy1 := img } else { f with copy0 := img })
  let seq := if imgCandidate img then imgSeq img else 0xFFFFFFFF
  wr cfgB (if used = 0 then CFG_COPY1_SEQ else CFG_COPY0_SEQ) seq { s with cfg := { s.cfg with flash := flash, committing := none } }

/-- The command of a commit completes, if it has not been aborted. -/
def commitDone (status : Nat) (s : State) : State :=
  match s.obj.commitCmd with
  | none => s
  | some c => complete c status 0 0 { s with obj := { s.obj with commitCmd := none } }

/-- R360, R361: the copy has been erased, programmed and read back: MAGIC is programmed if what was read back passes R356. -/
def commitEndOp (readBack : List Byte) (s : State) : State :=
  match s.cfg.committing with
  | none => s
  | some _ =>
    let img := magicBytes ++ readBack.drop 4
    let s := wr cfgB CFG_STATUS_STATE 4 s
    if imgCheck img = (0, 0) then commitDone 0 (wr cfgB CFG_STATUS_COMMIT_DONE 1 (putCopy img s))
    else commitDone 0xC9 (wr cfgB CFG_STATUS_COMMIT_FAILED 1 (putCopy [] s))

def execConfigCommitWriteEnd (readBack : List Byte) (s : State) : Res State := run .core (commitEndOp readBack) s

end Sys2Proof.Machine
end

