-- ==== Sys2Proof/Machine/Ledger.lean ====
section
/-!
DEFINITION. Sys2Proof/Machine/Ledger.lean: the Reach Ledger (10_reaches_and_ledger.md): its commands, the day tick, journals, the
mirror, inventories, the table window, defect windows.
-/
namespace Sys2Proof.Machine
open Reg

/-! ### LEDGER_CMD (R215, R217, R225) -/

/-- The paths that have a LEDGER_CMD of their own (R225), with the source of their stamps. -/
def ledgerSource : Path → Option Nat
  | .teller n => some (srcTeller n.val)
  | .bursar => some srcBursar
  | _ => none

/-- No reach of an HDA is used until its inventory ends (R222). -/
def inventoried (s : State) (a : Nat) : Bool := bitOf (rd s ledB LEDGER_STATUS_INV_BUSY) (portOfAct a)

/-- R215, R217: the RESULT of a command: 0 done, 1 refused, 2 busy, 3 ABSENT. -/
def ledgerJudge (s : State) (op a r : Nat) : Nat :=
  let e := ledEntry s a r
  if 10240 ≤ r ∨ bitOf e.flags fAbsent = true then 3
  else if inventoried s a then 2
  else
    let from_ := e.state
    let allowed :=
      if op = 1 then decide (from_ = 0)
      else if op = 2 then decide (from_ = 1)
      else if op = 3 then decide (from_ = 2 ∨ from_ = 3 ∨ from_ = 5)
      else if op = 4 then decide (from_ = 0 ∨ from_ = 2 ∨ from_ = 3 ∨ from_ = 5)
      else false
    if decide (2 ≤ op ∧ op ≤ 4) && reachNamed s a r then 2
    else if allowed then 0 else 1

/-- R215: a command that is judged done. -/
def ledgerEffect (op a r src : Nat) (s : State) : State :=
  if op = 2 then closeReach a r s else openReach a r src (decide (op = 4)) s

/-- A LEDGER_CMD of a path: its RESULT goes to that path's own LEDGER_CMD_RESULT. -/
def ledgerCmdOp (p : Path) (op a r : Nat) (s : State) : State :=
  match ledgerSource p with
  | none => s
  | some src =>
    let v := ledgerJudge s op a r
    let s := if v = 0 then ledgerEffect op a r src s else s
    copySet p 0x160014 (v + 4) s

/-- The word that a command writes. -/
def ledgerWord (op a r : Nat) : Nat := r % 2 ^ 14 + a * 2 ^ 14 + op * 2 ^ 20

def ledgerRow (op : Nat) (p : Path) (r : ReachId) (s : State) : Res State :=
  runWrite p 0x160010 (ledgerWord op r.act.val r.reach) (ledgerCmdOp p op r.act.val r.reach) s

def execLedgerOpen (p : Path) (r : ReachId) (s : State) : Res State := ledgerRow 1 p r s
def execLedgerClose (p : Path) (r : ReachId) (s : State) : Res State := ledgerRow 2 p r s
def execLedgerReopen (p : Path) (r : ReachId) (s : State) : Res State := ledgerRow 3 p r s
def execLedgerRetire (p : Path) (r : ReachId) (s : State) : Res State := ledgerRow 4 p r s

/-! ### Aging (R218) -/

/-- The states that age. -/
def ages (e : LedEntry) : Bool := decide (e.state = 2 ∨ e.state = 3 ∨ e.state = 5)

/-- VERIFY_DUE whenever DAYS ≥ VERIFY_DAYS. -/
def dueEntry (limit : Nat) (e : LedEntry) : LedEntry := if ages e && decide (limit ≤ e.days) then e.flagSet fVerifyDue true else e

/-- Add whole days to every entry that ages. -/
def ageEntries (n : Nat) (s : State) : State :=
  let limit := rd s ledB LEDGER_CFG_VERIFY_DAYS
  forEach s.led.entries (fun e s =>
    if ages e.2 then setEntry (e.1 / 10240) (e.1 % 10240) (dueEntry limit { e.2 with days := min 0xFFFF (e.2.days + n) }) s else s) s

/-- The next whole stamp day, or one that has passed without its tick. -/
def dayTickOp (s : State) : State :=
  let d := now s / secs 86400
  let next := if s.led.lastTick < d then s.led.lastTick + 1 else d + 1
  let s := reach (next * secs 86400) s
  let s := if flag s ledB LEDGER_CTL_AGE_EN then ageEntries 1 s else s
  let s := wr rsvB RSV_BUDGET_CLEAN_GIB_TODAY 0 { s with rsv := { s.rsv with cleanBytes := 0 } }
  forEach (List.range 48) idleWork { s with led := { s.led with lastTick := next } }

def execDayTick (s : State) : Res State := run .core dayTickOp s

/-! ### Journals and mirror -/

/-- R212: the oldest pending entry has waited JOURNAL_AGE seconds. -/
def journalAgeOp (a r : Nat) (s : State) : State :=
  match journalOf s a r with
  | [] => s
  | j :: _ => journalSector a r (reach (j.since + secs (rd s ledB LEDGER_CFG_JOURNAL_AGE)) s)

def execJournalAge (r : ReachId) (s : State) : Res State := run .core (journalAgeOp r.act.val r.reach) s

/-- R223: ledger, serials and defect windows go to the Reservoir, while it is in service. -/
def mirrorOp (s : State) : State :=
  if flag s rsvB RSV_STATUS_OUT_OF_SERVICE then s
  else
    let l := s.led
    let m := { l.mirror with led := l.entries, serials := l.invSerial, defects := l.defects, lastTick := l.lastTick, valid := true }
    wr ledB LEDGER_STATUS_MIRROR_BEHIND 0 { s with led := { l with mirror := m } }

def execLedgerMirror (s : State) : Res State := run .core mirrorOp s

/-! ### Inventories (R222) -/

/-- A write of LEDGER_CTL; INVENTORY inventories the port that the write names. -/
def ledgerCtlOp (v : Nat) (s : State) : State :=
  let s := plainWrite 0x160000 v s
  let n := bitsOf v LEDGER_CTL_PORT.lo LEDGER_CTL_PORT.len
  if bitOf v 1 ∧ n < 24 ∧ portState s n = 4 then
    wr ledB LEDGER_STATUS_INV_BUSY (setBit (rd s ledB LEDGER_STATUS_INV_BUSY) n true) s
  else s

def execLedgerInventory (p : Path) (v : Word) (s : State) : Res State := runWrite p 0x160000 v.toNat (ledgerCtlOp v.toNat) s

/-- The last written slot as a write pointer: WP, and FULL for the last slot. -/
def wpAfter (lastSlot_ : Nat) : Nat × Nat := if lastSlot ≤ lastSlot_ then (lastSlot, 2 ^ fFull) else (lastSlot_ + 1, 0)

/-- R222: the entry of a reach from its slot 0. -/
def inventoryEntry (s : State) (z : SlotZero) (old : LedEntry) : LedEntry :=
  let foreign (f : Nat) : LedEntry := { old with state := 5, wp := min lastSlot z.lastSlot, flags := f, profile := 0xFF }
  match z.slot0 with
  | .syncFail => { old with state := 0, wp := 0, flags := 0, profile := 0xFF }
  | .unreadable => foreign 0
  | .header b =>
    if leAt b 0 4 ≠ 0x48524D4C then foreign 0
    else if leAt b 4 2 = 1 then foreign (2 ^ fFormat1)
    else if leAt b 4 2 ≠ 2 ∨ leAt b 0x18 16 ≠ shelfId s then foreign 0
    else
      let (wp, full) := wpAfter z.lastSlot
      let base : LedEntry := ⟨leAt b 0x0C 8 / 2 ^ 24, wp, 4, leAt b 9 1, 0xFF, 0, 0, 0, leAt b 7 1⟩
      if leAt b 6 1 = 3 then base
      else { base with state := if z.closing then 2 else 1, flags := 2 ^ fVerifyDue + full }

/-- R332: an object of the foreign index. Span-hash fields of 0; one whose value cannot be read is damaged. -/
def foreignObj (x : ForeignObj) : Obj :=
  let ev (e : ForeignEvent) : ProvEvent := ⟨e.kind, e.len, e.offset, ⟨e.time, e.src, e.seq⟩, e.commit, zeros 32⟩
  let value := match x.value with | some v => v | none => zeros x.size
  { obj0 x.ns x.key with value := value, hash := x.hash, events := x.events.map ev, damaged := x.value.isNone }

/-- R332: what an inventory finds on Foreign reaches joins the foreign index. -/
def foreignAdd (l : List ForeignObj) (s : State) : State :=
  { s with obj := { s.obj with foreign := l.foldl (fun t x => tins t x.num (foreignObj x)) s.obj.foreign } }

/-- R222, R239, R332: an inventory ends: the entries, the foreign objects, the serial, the rebuild of a replacement. -/
def inventoryEndOp (n : Nat) (found : List SlotZero) (foreign : List ForeignObj) (s : State) : State :=
  if bitOf (rd s ledB LEDGER_STATUS_INV_BUSY) n then
    let s := forEach found (fun z s =>
      let a := if z.lower then actL n else actU n
      if z.reach < (layoutOf s a).reaches then setEntry a z.reach (inventoryEntry s z (ledEntry s a z.reach)) s else s) s
    let new := decide (tfind s.led.invSerial n ≠ some (idSerial s n))
    let ser := idSerial s n
    let s := { s with led := { s.led with invSerial := tins s.led.invSerial n ser } }
    let s := forEach (List.range 4) (fun i s => wr ledB (LEDGER_SERIAL_SERIAL.ix (4 * n + i)) (ser / 2 ^ (32 * i)) s) s
    let s := wr ledB LEDGER_STATUS_INV_BUSY (setBit (rd s ledB LEDGER_STATUS_INV_BUSY) n false) s
    rebuildQueue (rebuildStart n new (ledDirty (foreignAdd foreign s)))
  else s

def execInventoryEnd (n : PortId) (found : List SlotZero) (foreign : List ForeignObj) (s : State) : Res State :=
  run .core (inventoryEndOp n.val found foreign) s

/-! ### The table window (R214, R225) -/

/-- The four 32-bit registers of an entry. -/
def entryWord (e : LedEntry) (part : Nat) : Nat :=
  let w0 := e.openTime % 2 ^ 40 + e.wp % 2 ^ 20 * 2 ^ 40 + e.state % 16 * 2 ^ 60
  let w1 := e.temp % 256 + e.profile % 256 * 2 ^ 8 + e.days % 65536 * 2 ^ 16 + e.tally % 65536 * 2 ^ 32 + e.flags % 256 * 2 ^ 48 + e.gen % 256 * 2 ^ 56
  match part with
  | 0 => w0 % 2 ^ 32
  | 1 => w0 / 2 ^ 32
  | 2 => w1 % 2 ^ 32
  | _ => w1 / 2 ^ 32

/-- The actuator, the reach and the word of an address of the table window. -/
def windowAt (addr : Nat) : Nat × Nat × Nat :=
  let o := addr - 0x40000000
  (o / 16 / 10240, o / 16 % 10240, o / 4 % 4)

/-- The value of a register of the table window. -/
def windowValue (s : State) (addr : Nat) : Nat :=
  let (a, r, part) := windowAt addr
  entryWord (ledEntry s a r) part

/-- R225: the writable fields of an entry take the values written. -/
def entryWrite (e : LedEntry) (part v : Nat) : LedEntry :=
  match part with
  | 2 => { e with profile := bitsOf v 8 8, days := bitsOf v 16 16 }
  | 3 => LedEntry.flagSet { e with tally := bitsOf v 0 16 } fRewriteDue (bitOf v 18)
  | _ => e

/-- R225: the bits of an entry's register that a write may change. -/
def entryMask (part : Nat) : Nat :=
  match part with
  | 2 => 0xFFFFFF00
  | 3 => 0x0004FFFF
  | _ => 0

/-- R225: a write of an entry. -/
def entryWriteOp (p : Path) (addr v : Nat) (s : State) : State :=
  let (a, r, part) := windowAt addr
  let e := ledEntry s a r
  let old := entryWord e part
  let bad := decide ((old ^^^ v) &&& (0xFFFFFFFF ^^^ entryMask part) ≠ 0)
  let s := if part < 2 then s else setEntry a r (dueEntry (rd s ledB LEDGER_CFG_VERIFY_DAYS) (entryWrite e part v)) s
  when bad (fun s => recordIgnored 0x16FC00 addr p (wr ledB LEDGER_STATUS_REFUSED 1 s)) s

/-- R217, R396: an uncorrectable error meets the write of a part of a word: a bus error, and the entry is loaded from the mirror again; the
recovery of R223 finds an Open reach's write pointer where the slots written with its GEN end. -/
def entryErrorOp (p : Path) (addr : Nat) (s : State) : State :=
  let (a, r, _) := windowAt addr
  let old := ledEntry s a r
  let m := tget ledEntry0 s.led.mirror.led (ledKey a r)
  let back := if m.state = 1 ∧ m.gen = old.gen then { m with wp := old.wp } else m
  let s := send (.busError p addr) s
  wr ledB LEDGER_STATUS_RELOADED 1 (setEntry a r back s)

/-- An entry that a write leaves as it was is not touched. -/
def ledgerWriteOp (p : Path) (addr v : Nat) (err : Option MemErr) (s : State) : State :=
  if inLedgerWindow addr then
    match err.map (fun e => sramRead 0x16FC00 0 0 e s) with
    | some (true, s) => entryErrorOp p addr s
    | some (false, s) => entryWriteOp p addr v s
    | none => entryWriteOp p addr v s
  else s

def execLedgerEntryWrite (p : Path) (addr : Nat) (v : Word) (err : Option MemErr) (s : State) : Res State :=
  runWrite p addr v.toNat (ledgerWriteOp p addr v.toNat err) s

/-! ### Defect windows (R221) -/

/-- The window that LEDGER_DEF_A-C describe. -/
def defectNow (s : State) : Defect :=
  ⟨rd s ledB LEDGER_DEF_A_ACTUATOR, rd s ledB LEDGER_DEF_A_REACH, rd s ledB LEDGER_DEF_B_SLOT, rd s ledB LEDGER_DEF_C_FIRST_BIT, rd s ledB LEDGER_DEF_C_LENGTH⟩

def defectAddOp (s : State) : State := defectAdd (defectNow s) s

def execDefectWindowAdd (p : Path) (s : State) : Res State := runWrite p 0x16008C 1 defectAddOp s

def defectRemoveOp (s : State) : State :=
  let d := defectNow s
  if s.led.defects.contains d then syncDefects { s with led := { s.led with defects := s.led.defects.erase d } }
  else wr ledB LEDGER_DEF_STATUS_NOT_FOUND 1 s

def execDefectWindowRemove (p : Path) (s : State) : Res State := runWrite p 0x16008C 2 defectRemoveOp s

end Sys2Proof.Machine
end

