-- ==== Sys2Proof/Machine/SeqOps.lean ====
section
/-!
DEFINITION. Sys2Proof/Machine/SeqOps.lean: how a sequencer starts and stops (R190, R202, R203), and the frames it and software send
to a preamplifier (R77, R87).
-/
namespace Sys2Proof.Machine
open Reg

/-- R190: the mirror holds a calibration recorded by word 0 for the SERIAL now in the port. -/
def calibration (s : State) (a : Nat) : Option (List Nat) :=
  (s.led.mirror.calib.find? (fun e => decide (e.1 = a) && decide (e.2.1 = idSerial s (portOfAct a)))).map (fun e => e.2.2)

def calibrated (s : State) (a : Nat) : Bool := (calibration s a).isSome

/-- R190: the calibration of an actuator's heads is what AS_HEAD holds of each: write current, heater words and jog. -/
def headWords (s : State) (a : Nat) : List Nat :=
  let b := actBase a
  (List.range 12).flatMap (fun h => [rd s b (AS_HEAD_0_WR_CUR.ix h), rd s b (AS_HEAD_0_HEAT.ix h), rd s b (AS_HEAD_4_JOG.ix h)])

/-- R190: word 0 records each head's calibration under the HDA's SERIAL. -/
def recordHeads (a : Nat) (s : State) : State :=
  let ser := idSerial s (portOfAct a)
  let m := s.led.mirror
  let rest := m.calib.filter (fun e => !(decide (e.1 = a) && decide (e.2.1 = ser)))
  { s with led := { s.led with mirror := { m with calib := rest ++ [(a, ser, headWords s a)] } } }

/-- R190: word 1 restores the recorded calibration. -/
def restoreHeads (a : Nat) (s : State) : State :=
  match calibration s a with
  | none => s
  | some l =>
    let b := actBase a
    forEach (List.range 12) (fun h s =>
      wr b (AS_HEAD_0_WR_CUR.ix h) (l.getD (3 * h) 0) (wr b (AS_HEAD_0_HEAT.ix h) (l.getD (3 * h + 1) 0) (wr b (AS_HEAD_4_JOG.ix h) (l.getD (3 * h + 2) 0) s))) s

/-- R190: the word entered when RUN is set for the first time. -/
def startWord (s : State) (a : Nat) : Nat := if (actOf s a).ranCold && calibrated s a then 1 else 0

/-- A default of the identity record in a field of `n` bits; one that the field cannot hold is open (notes/assumptions/7.md). -/
def headDefault (n v : Nat) : Nat := if v < 2 ^ n then v else Config.outOfRange v % 2 ^ n

/-- R203: the start routine fills AS_HEAD from the identity record's WR_CUR_DEF and HEAT_DEF and from the configuration image, whose
values stand where it has them. -/
def fillHeads (a : Nat) (s : State) : State :=
  let n := portOfAct a
  let b := actBase a
  let s := forEach (List.range 12) (fun h s =>
    let k := 12 * (a % 2) + h
    wr b (AS_HEAD_0_WR_CUR.ix h) (headDefault 7 (idBytes s n (0x3C + k) 1))
      (wr b (AS_HEAD_0_HEAT.ix h) (256 * idBytes s n (0x54 + k) 1) s)) s
  match portModel s n with
  | none => s
  | some x => forEach (modelPairs s x) (fun p s =>
      if bitOf p.1 (30 + a % 2) ∧ 0x680 ≤ p.1 % 4096 ∧ p.1 % 4096 < 0x6E0 then loadWrite false (b + p.1 % 4096) p.2 s else s) s

/-- AS_CTL.RUN is set (R190, R202): the horizontal entry, or the sequencer goes on where it stopped. -/
def seqRun (a : Nat) (s : State) : State :=
  let b := actBase a
  let s := wr b AS_CTL_RUN 1 s
  if (unitOf s (fbAct a) 0).inFault then wr b AS_STATUS_MODE 3 s
  else if underReset s 1 a then s
  else if (actOf s a).ranSince then
    gateUpdate a (if rd s b AS_STATUS_MODE = 0 then wr b AS_STATUS_MODE 1 s else s)
  else
    let w := startWord s a
    let s := fillHeads a (modAct a (fun x => { x with ranCold := true, ranSince := true }) s)
    enterHoriz a w (when (decide (w = 1)) (restoreHeads a) s)

/-- AS_CTL.RUN is cleared (R202, R195): the gate closes, the sequencer stops at the next microword boundary. -/
def seqStop (a : Nat) (s : State) : State :=
  let b := actBase a
  let s := wr b AS_CTL_RUN 0 s
  let s := modAct a (fun x => { x with wgReq := false }) s
  let s := if rd s b AS_STATUS_MODE = 1 then wr b AS_STATUS_MODE 0 s else s
  gateUpdate a s

/-- The loader sets RUN of both actuators of a port (R203). -/
def portRun (n : Nat) (s : State) : State := seqRun (actL n) (seqRun (actU n) s)

/-- The defined bits of a preamplifier register (R78). -/
def preMask (addr : Nat) : Nat :=
  match addr with
  | 2 => 7 | 3 => 0xF | 4 => 0x3F7F | 5 => 0xFFFF | 6 => 0x1F1F | 8 => 0x7F | _ => 0

/-- R77: the writes that are read back. -/
def readsBack (f : Frame) : Bool := !f.read && decide (2 ≤ f.addr ∧ f.addr ≤ 4)

/-- A new frame: the sequencer's go before software's, never before the one in flight (R87). -/
def addFrame (f : Frame) (l : List Frame) : List Frame :=
  if f.sw then l ++ [f]
  else match l with
    | [] => [f]
    | h :: t => h :: (t.filter (fun x => !x.sw) ++ f :: t.filter (fun x => x.sw))

/-- The bits that the module drives for a frame (R74, R75): all 32 with CHECK for a write, READ and ADDR for a read. -/
def frameBits (f : Frame) : Nat × Nat :=
  let head := b2n f.read * 2 ^ 7 + f.addr % 128
  if f.read then (8, head) else (32, (head * 2 ^ 16 + f.data % 2 ^ 16) * 2 ^ 8 + frameCheck false f.addr f.data)

/-- The frame at the head of an actuator's link goes out, a write of PRE_MODE, PRE_HEAD or PRE_WR_CUR with the read that follows it
(R77). -/
def driveFrame (a : Nat) (s : State) : State :=
  match (actOf s a).frames with
  | [] => s
  | f :: _ =>
    let out (g : Frame) (s : State) := send (.frame a (frameBits g).1 (frameBits g).2) s
    when (readsBack f) (out ⟨true, f.addr, 0, false, false⟩) (out f s)

/-- A frame joins an actuator's link, and goes out at once on an idle link. -/
def putFrame (a : Nat) (f : Frame) (s : State) : State :=
  let idle := (actOf s a).frames.isEmpty
  when idle (driveFrame a) (modAct a (fun x => { x with frames := addFrame f x.frames }) s)

/-- A head of an actuator whose surface the identity record's SURFACE_MAP lacks (R82). -/
def headAbsent (s : State) (a h : Nat) : Bool := decide (h < 12) && !bitOf (idSurfaces s (portOfAct a)) (12 * (a % 2) + h)

/-- R83: a write of the head number of an absent surface to PRE_HEAD, which is never sent. -/
def absentHead (s : State) (a : Nat) (read : Bool) (addr data : Nat) : Bool := !read && decide (addr = 3) && headAbsent s a (data % 16)

/-- Send a frame of the sequencer: to addresses 0x00 to 0x08 (R78), and no head select of an absent surface (R83). -/
def sendFrame (a : Nat) (read : Bool) (addr data : Nat) (s : State) : State :=
  if absentHead s a read addr data || decide (8 < addr) then s else putFrame a ⟨read, addr, data, false, false⟩ s

end Sys2Proof.Machine
end

