-- ==== Sys2Proof/Machine/LoopOps.lean ====
section
/-!
DEFINITION. Sys2Proof/Machine/LoopOps.lean: the loop engine: the law (R143-R146), the notches (R147), set loads (R148-R151), manual
(R152), the working setpoint (R153) and the relay tune (R155-R157).
-/
namespace Sys2Proof.Machine
open Reg

/-! ### The working copy of a set -/

/-- R151: the eight words of stored set `k`. A spindle instance has no notches (R140). -/
def storedSet (s : State) (i k : Nat) : List Nat :=
  let g (f : Field) := rd s (leBase i) (f.ix k)
  [g LE_SET_0_KP, g LE_SET_4_KI, g LE_SET_8_KD, g LE_SET_C_TF, g LE_SET_10_OUT_LO + g LE_SET_10_OUT_HI * 65536,
   g LE_SET_14_I_LO + g LE_SET_14_I_HI * 65536,
   if i < 48 then g LE_SET_18_N1_F0 + g LE_SET_18_N1_ZETA_Z * 2 ^ 16 + g LE_SET_18_N1_ZETA_P * 2 ^ 24 else 0,
   if i < 48 then g LE_SET_1C_NOTCH2 else 0]

/-- R150: an invalid set. -/
def setInvalid (w : List Nat) : Bool :=
  decide (sHigh (setWord w 4) ≤ sLow (setWord w 4)) || decide (sHigh (setWord w 5) < sLow (setWord w 5))

/-- R148: the set that a region's map entry names. -/
def mapEntry (s : State) (i region : Nat) : Nat :=
  let f := match region % 4 with
    | 0 => LE_REGION_MAP_ENTRY_0 | 1 => LE_REGION_MAP_ENTRY_1 | 2 => LE_REGION_MAP_ENTRY_2 | _ => LE_REGION_MAP_ENTRY_3
  rd s (leBase i) (f.ix (region / 4))

/-! ### Notches (R147) -/

def rnd64 (q : Rat) : Rat := ((q * 2 ^ 64).floor : Rat) / 2 ^ 64

/-- A Taylor sum of sine (start x, k = 1) or cosine (start 1, k = 0) in x², by terms. -/
def trigSum : Nat → Rat → Rat → Nat → Rat
  | 0, _, _, _ => 0
  | n + 1, x2, t, k => t + trigSum n x2 (rnd64 (-(t * x2 / ((k + 1) * (k + 2))))) (k + 2)

/-- The tangent below π/2, to better than 2^-50 (notes/assumptions/10.md). -/
def ratTan (x : Rat) : Rat :=
  let x := rnd64 x
  let x2 := rnd64 (x * x)
  trigSum 20 x2 x 1 / trigSum 20 x2 1 0

/-- F0 in Hz of a notch word. -/
def notchF0 (w : Nat) : Rat := (w % 65536 : Nat) * 10

/-- R147: a notch is bypassed. -/
def notchByp (w : Nat) (h : Rat) : Bool := decide (w % 65536 = 0) || decide (2 / 5 ≤ notchF0 w * h)

/-- R147: one step of a notch at an interval `h`, by the bilinear transform prewarped at F0 with the interval `hu` of its coefficients. -/
def notchStep (w : Nat) (h hu x : Rat) (n : Notch) : Rat × Notch :=
  if notchByp w h then (x, ⟨x, n.x1, x, n.y1⟩)
  else
    let k := ratTan (ratPi * notchF0 w * hu)
    let zz : Rat := (bitsOf w 16 8 : Rat) / 256
    let zp : Rat := ((if bitsOf w 24 8 = 0 then 1 else bitsOf w 24 8) : Nat) / 256
    let a0 := 1 + 2 * zp * k + k * k
    let b0 := 1 + 2 * zz * k + k * k
    let c1 := 2 * (k * k - 1)
    let b2 := 1 - 2 * zz * k + k * k
    let a2 := 1 - 2 * zp * k + k * k
    let y := (b0 * x + c1 * n.x1 + b2 * n.x2 - c1 * n.y1 - a2 * n.y2) / a0
    (y, ⟨x, n.x1, y, n.y1⟩)

/-- The h at which a notch's coefficients were last computed, renewed when h moves by more than 0.5 %. -/
def notchH (used h : Rat) : Rat := if (h - used) * 200 ≤ used ∧ (used - h) * 200 ≤ used then used else h

/-! ### One sample -/

/-- What a sample is computed from. -/
structure Sample where
  h : Rat
  m : Rat
  w : Rat
  ff : Rat
  xc : Rat
  frozen : Bool
  valid : Bool
  mode : Nat
  region : Nat
  deriving DecidableEq, Repr

/-- p, z and d of the law for a set (R143). -/
def lawParts (set : List Nat) (l : LoopSt) (x : Sample) : Rat × Rat × Rat :=
  let tf : Rat := (setWord set 3 : Rat) * 64 / 1000000000
  let z := (tf * l.z + (x.m - l.prevM)) / (tf + x.h)
  (coefVal (setWord set 0) * (x.w - x.m), z, -(coefVal (setWord set 2) * z))

/-- R143: the law under the working copy: the new loop state with the demand in `prevD`. -/
def lawStep (s : State) (i : Nat) (l : LoopSt) (x : Sample) : LoopSt :=
  let (p, z, d) := lawParts l.set l x
  let e := x.w - x.m
  let ilo : Rat := (sLow (setWord l.set 5) : Rat)
  let ihi : Rat := (sHigh (setWord l.set 5) : Rat)
  let held := x.frozen || (l.satHi && decide (0 < e)) || (l.satLo && decide (e < 0))
  let ii := if held then l.i else clampR ilo ihi (l.i + coefVal (setWord l.set 1) * x.h * e)
  let hu := notchH l.hUsed x.h
  let (u1, n1) := notchStep (setWord l.set 6) x.h hu (p + ii + d) l.n1
  let (u2, n2) := notchStep (setWord l.set 7) x.h hu u1 l.n2
  let (lo, hi) := outLimits s i l.set x.m
  let out := clampR lo hi (u2 + x.ff + x.xc)
  let l := { l with z := z, i := ii, n1 := n1, n2 := n2, hUsed := hu, prevM := x.m, prevD := out }
  { l with satHi := decide (hi ≤ out), satLo := decide (out ≤ lo) }

/-- R149: load set `k` with the reference demand `r`; the integrator preset is clamped to the new limits. -/
def loadSet (i k : Nat) (r : Rat) (x : Sample) (s : State) : State :=
  let b := leBase i
  let new := storedSet s i k
  if setInvalid new then wr b LE_STATUS_SET_INVALID 1 s
  else
    let l := loopOf s i
    let (p, _, d) := lawParts new l x
    let want := r - x.ff - x.xc - p - d
    let got := clampR (sLow (setWord new 5) : Rat) (sHigh (setWord new 5) : Rat) want
    let st := r - x.ff - x.xc
    let s := modLoop i (fun l => { l with set := new, i := got, n1 := ⟨st, st, st, st⟩, n2 := ⟨st, st, st, st⟩, hUsed := x.h }) s
    let s := wr b LE_STATUS_SET_IN_USE k s
    if got = want then s else incF b LE_COUNTS_SWAP_CLAMPS (wr b LE_STATUS_SWAP_CLAMPED 1 s)

/-- Show which notches the interval of a sample bypasses (R147). -/
def showNotch (i : Nat) (h : Rat) (s : State) : State :=
  let set := (loopOf s i).set
  let s := setF (leBase i) LE_STATUS_NOTCH1_BYP (decide (i < 48) && notchByp (setWord set 6) h) s
  setF (leBase i) LE_STATUS_NOTCH2_BYP (decide (i < 48) && notchByp (setWord set 7) h) s

/-! ### The relay tune (R155-R157) -/

def absR (q : Rat) : Rat := if q < 0 then -q else q
def meanR (l : List Rat) : Rat := if l.isEmpty then 0 else l.foldl (· + ·) 0 / (l.length : Rat)

/-- R156: the results of a tune. -/
def tuneResults (i : Nat) (t : Tune) (s : State) : State :=
  let b := leBase i
  let pu := meanR t.periods
  let a := meanR t.peaks
  let hy : Rat := (rd s b LE_TUNE_BAND_HYST : Rat) / 1024
  let ku := 4 * (rd s b LE_TUNE_CFG_AMP : Rat) / (ratPi * ratSqrt (a * a - hy * hy))
  let r1 := flag s b LE_CTL_TUNE_RULE
  let s := wr b LE_TUNE_PERIOD_PU_NS (fitNat 32 (roundAway (pu * 1000000000))) s
  let s := wr b LE_TUNE_AMPL_A (fitNat 24 (roundAway (a * 1024))) s
  let s := wr b LE_TUNE_KU_WORD (coefWord ku) s
  let s := wr b LE_TUNE_KP_WORD (coefWord (if r1 then ku / 5 else 3 * ku / 5)) s
  let s := wr b LE_TUNE_KI_WORD (coefWord (if r1 then 2 * ku / 5 / pu else 6 * ku / 5 / pu)) s
  let s := wr b LE_TUNE_KD_WORD (coefWord (if r1 then 667 * ku * pu / 10000 else 75 * ku * pu / 1000)) s
  wr b LE_STATUS_TUNE_DONE 1 s

/-- One sample of a tune: the relay, the cycles, the peaks (R155). A cycle runs from one switch up to the next. -/
def tuneSample (s : State) (i : Nat) (t : Tune) (x : Sample) : Tune :=
  let b := leBase i
  let amp : Rat := (rd s b LE_TUNE_CFG_AMP : Rat)
  let hy : Rat := (rd s b LE_TUNE_BAND_HYST : Rat) / 1024
  let e := x.w - x.m
  let out := if hy < e then t.b + amp else if e < -hy then t.b - amp else t.out
  let el := t.elapsed + x.h
  let pk := max t.peak (absR e)
  if t.out < out then
    match t.lastUp with
    | none => { t with out := out, elapsed := el, lastUp := some el, peak := 0 }
    | some u =>
      let c := t.cycles + 1
      let full := decide (2 < c)
      { t with
        out := out, elapsed := el, lastUp := some el, cycles := c, peak := 0, since := now s
        periods := if full then t.periods ++ [el - u] else t.periods
        peaks := if full then t.peaks ++ [pk] else t.peaks }
  else { t with out := out, elapsed := el, peak := pk }

/-! ### The sample (R141-R153) -/

/-- The reference demand of a load at this sample, if there is to be one (R149, R151, R152, R154, R155). A coasting wedge brings no change of
region or mode; every other load is due at it too. -/
def loadRef (s : State) (i : Nat) (l : LoopSt) (x : Sample) (want : Nat) : Option Rat :=
  let b := leBase i
  if l.gapLoad then some l.prevD
  else if l.manualEnd then some (ofBits 16 (rd s b LE_MANUAL_VALUE) : Rat)
  else if l.tuneEnd.isSome then l.tuneEnd
  else if l.fresh then some l.prevD
  else if flag s b LE_CTL_HOLD_SET && !l.reload then none
  else if x.valid && decide (l.lastMode ≠ x.mode) then some l.prevD
  else if l.reload || decide (want ≠ rd s b LE_STATUS_SET_IN_USE) then some (lawStep s i l x).prevD
  else none

/-- What a load at a sample has dealt with. -/
def loadTaken (x : Sample) (l : LoopSt) : LoopSt :=
  { l with reload := false, manualEnd := false, gapLoad := false, tuneEnd := none, fresh := false, lastMode := if x.valid then x.mode else l.lastMode }

/-- One sample of a tune: it ends beyond LIMIT (R157) or with its last cycle (R155, R156), or goes on. -/
def tuneRun (i : Nat) (t : Tune) (x : Sample) (s : State) : State :=
  let b := leBase i
  if (rd s b LE_TUNE_BAND_LIMIT : Rat) / 1024 < absR (x.w - x.m) then tuneAbort i 1 s
  else
    let t := tuneSample s i t x
    if rd s b LE_TUNE_CFG_CYCLES ≤ t.periods.length then
      let s := modLoop i (fun l => { l with tune := none, tuneEnd := some t.b }) (tuneResults i t s)
      when (decide (i < 48)) (raiseOff i) (wr b LE_STATUS_TUNING 0 s)
    else modLoop i (fun l => { l with tune := some t }) s

/-- The sample of the tune that runs, if one does. -/
def tuneAny (i : Nat) (x : Sample) (s : State) : State :=
  match (loopOf s i).tune with
  | some t => tuneRun i t x s
  | none => s

/-- A sample in a switch-over gap: computed, its output discarded, I frozen, loads put off (R46, R154). -/
def gapSample (i : Nat) (x : Sample) (s : State) : State :=
  let s := tuneAny i x s
  let l := loopOf s i
  let n := lawStep s i l { x with frozen := true }
  let due := l.gapLoad || (l.tune.isNone && (loadRef s i l x (mapEntry s i x.region)).isSome)
  modLoop i (fun l => { l with z := n.z, prevM := x.m, n1 := n.n1, n2 := n.n2, hUsed := n.hUsed, gapLoad := due }) s

/-- A demand that replaces the law's at a sample, within the output limits; z and the previous measurement go on (R152, R155). -/
def forcedSample (i : Nat) (d : Rat) (x : Sample) (s : State) : State :=
  let l := loopOf s i
  let (_, z, _) := lawParts l.set l x
  let (lo, hi) := outLimits s i l.set x.m
  let out := clampR lo hi d
  showLoop i (modLoop i (fun l => { l with z := z, prevM := x.m, prevD := out, satHi := decide (hi ≤ out), satLo := decide (out ≤ lo) }) s)

/-- A sample in manual (R152). -/
def manualSample (i : Nat) (x : Sample) (s : State) : State := forcedSample i (ofBits 16 (rd s (leBase i) LE_MANUAL_VALUE) : Rat) x s

/-- A sample in automatic: the load that is due, then the law. -/
def autoSample (i : Nat) (x : Sample) (s : State) : State :=
  let want := mapEntry s i x.region
  let due := loadRef s i (loopOf s i) x want
  let held := due.isSome && !setInvalid (storedSet s i want)
  let s := match due with
      | some r => modLoop i (loadTaken x) (loadSet i want r x s)
      | none => s
  -- a load presets I for this very sample: the law then runs with I as preset
  let n := lawStep s i (loopOf s i) { x with frozen := x.frozen || held }
  showNotch i x.h (showLoop i (modLoop i (fun _ => n) s))

/-- A sample while a tune runs: the relay's demand, or the restored set's where the tune ends at it. -/
def tuneStep (i : Nat) (x : Sample) (s : State) : State :=
  let s := tuneAny i x s
  match (loopOf s i).tune with
  | some t => forcedSample i t.out x s
  | none => autoSample i x s

/-- One sample of an enabled instance, computed over the interval since the last computed one (R142). A region change ends a tune of an
actuator (R157). -/
def leSample (i : Nat) (x : Sample) (s : State) : State :=
  let b := leBase i
  if !flag s b LE_CTL_ENABLE then s
  else
    let x := if x.valid then x else { x with region := rd s b LE_STATUS_REGION }
    let x := { x with h := (loopOf s i).span + x.h }
    let s := modLoop i (fun l => { l with span := 0 }) s
    let moved := decide (rd s b LE_STATUS_REGION ≠ x.region)
    let s := wr b LE_STATUS_REGION x.region s
    let s := if i < 48 ∧ moved = true then tuneAbort i 3 s else s
    if s.pwr.gap then gapSample i x s
    else if flag s b LE_CTL_MANUAL then manualSample i x s
    else tuneStep i x s

/-! ### The working setpoint (R153) -/

/-- One sample of the working setpoint toward a target: at its start it takes the measured value. `rate` is in input units per
second. -/
def rampStep (i : Nat) (target m h rate : Rat) (s : State) : State :=
  let l := loopOf s i
  let w := if l.rampStart then m
    else if rate = 0 then target
    else if l.working < target then min target (l.working + rate * h)
    else max target (l.working - rate * h)
  let s := modLoop i (fun l => { l with working := w, rampStart := false }) s
  let s := setF (leBase i) LE_STATUS_RAMPING (decide (w ≠ target)) s
  wr (leBase i) LE_SETPOINT_WORKING (fitNat 16 (showRat w)) s

/-- R142: samples skipped before this one; none at a pace index of 256 or more. -/
def overruns (s : State) (skipped : Nat) : Nat := if 256 ≤ rd s fabB FAB_PACE_INDEX then 0 else skipped

/-- R142: skipped samples count, and their time, `h` in s each, joins the interval of the next computed one. -/
def countOverruns (i k : Nat) (h : Rat) (s : State) : State :=
  if k = 0 ∨ flag s (leBase i) LE_CTL_ENABLE = false then s
  else
    let s := modLoop i (fun l => { l with span := l.span + (k : Rat) * h }) s
    wr (leBase i) LE_STATUS_OVERRUN 1 (addF (leBase i) LE_COUNTS_OVERRUNS k s)

/-- R152: entry to manual; the end of manual loads the region's set at the next sample. -/
def setManual (i : Nat) (on : Bool) (s : State) : State :=
  let was := flag s (leBase i) LE_CTL_MANUAL
  let s := setF (leBase i) LE_CTL_MANUAL on s
  when (was && !on) (modLoop i (fun l => { l with manualEnd := true, rampStart := true })) s

/-- R150: enable the loop if the set for the present region is valid. -/
def leEnableOp (i : Nat) (s : State) : State :=
  let b := leBase i
  if flag s b LE_CTL_ENABLE then s
  else if setInvalid (storedSet s i (mapEntry s i (rd s b LE_STATUS_REGION))) then wr b LE_STATUS_SET_INVALID 1 s
  else modLoop i (fun l => { l with fresh := true, rampStart := true }) (wr b LE_CTL_ENABLE 1 s)

end Sys2Proof.Machine
end

