-- ==== Sys2Proof/Machine/Spindle.lean ====
section
/-!
DEFINITION. Sys2Proof/Machine/Spindle.lean: the spindle controllers: commutation (R162-R164), over-current (R168), the start
decision (R171-R173), catch (R174), lost rotors (R175), stops (R176), the loop region (R170).
-/
namespace Sys2Proof.Machine
open Reg

/-! ### Timers and speeds -/

def spSet (n st : Nat) (s : State) : State := wr (portBase n) SP_STATUS_STATE st s
def dirSet_ (n d : Nat) (s : State) : State := wr (portBase n) SP_STATUS_DIR d s

/-- R163: ticks of one step at a speed. -/
def stepTicks (s : State) (n rpm : Nat) : Nat := 20 * 2 ^ 24 / (idPoles s n * rpm)

/-- R163: the speed of a list of step intervals in ticks, in rpm. -/
def speedOf (s : State) (n : Nat) (times : List Nat) : Rat :=
  ((20 * 2 ^ 24 * times.length : Nat) : Rat) / ((idPoles s n * times.foldl (· + ·) 0 : Nat) : Rat)

/-- R163: the measured speed: that of the last step intervals. -/
def measuredRpm (s : State) (n : Nat) : Rat :=
  if (portOf s n).times.isEmpty then (rd s (portBase n) SP_MEAS_SPEED : Rat) else speedOf s n (portOf s n).times

/-- The commands of a spindle controller that drives or brakes: none in a power-fail sequence, whose bridges rectify (R49, R177). -/
def spinRun (f : State → State) (s : State) : Res State := run .motion (fun s => if s.pwr.failing then s else f s) s

/-- R171: the start measurement begins, the bridge at high impedance. -/
def measureStart (n : Nat) (s : State) : State :=
  let s := spSet n 2 (bridgeOff n s)
  let t := max (msecs (rd s (portBase n) SP_START_MEASURE_MS)) (ceilDiv (140000 * 2 ^ 24) (1000 * idPoles s n * catchMin s n))
  modPort n (fun p => { p with openAt := now s + t }) s

/-- R176: the spindle stops, unless it is off or in its fault state already. -/
def stopSpindle (n : Nat) (s : State) : State :=
  let st := spState s n
  if st = 0 ∨ st = 11 then releaseGrant n (dequeue n s)
  else if st = 1 then spSet n 0 (releaseRun n (releaseGrant n (dequeue n s)))
  else if portState s n = 5 then s
  else spinStop n false s

/-- The start request of a spindle that is off; one that is stopping asks again at its end. -/
def startSpindle (n : Nat) (s : State) : State :=
  if spState s n = 0 && !(portOf s n).deferStop then requestStart n s else s

/-! ### Failed starts and lost rotors (R172, R173, R175) -/

/-- R175 step 5: a run that followed a lost rotor and failed: one failure more. -/
def retryFailed (n : Nat) (s : State) : State :=
  let p := portOf s n
  if p.lostPend then
    let soon := match p.reachedAt with
      | none => true
      | some t => decide (now s < t + secs 600)
    modPort n (fun p => { p with lostRetries := if soon then p.lostRetries + 1 else 0, lostPend := soon }) s
  else s

/-- A retry of R175 that may not be tried again: the lasting fault. -/
def retriesOver (s : State) (n : Nat) : Bool :=
  (portOf s n).lostPend && decide (rd s (portBase n) SP_RETRY_RETRIES ≤ (portOf s n).lostRetries)

/-- R173: a failed start: the grant released, the reservation kept, RETRY_WAIT, or the lasting fault. -/
def startFail (n : Nat) (s : State) : State :=
  let b := portBase n
  let s := wr b SP_STATUS_START_FAIL 1 s
  let s := releaseGrant n (bridgeOff n s)
  let s := retryFailed n (modPort n (fun p => { p with fails := p.fails + 1 }) s)
  if retriesOver s n then lastingFault (fbPort n) 0 3 s
  else if rd s b SP_RETRY_START_TRIES ≤ (portOf s n).fails then lastingFault (fbPort n) 0 2 s
  else
    let t := now s + secs (rd s b SP_RETRY_RETRY_WAIT)
    modPort n (fun p => { p with retryAt := t }) (spSet n 10 s)

/-- R175 step 1: the rotor is lost. -/
def loseRotor (n : Nat) (s : State) : State :=
  let b := portBase n
  let last := rd s b SP_MEAS_SPEED
  let s := spSet n 8 (releaseGrant n (bridgeOff n s))
  let s := incF b SP_COUNTS_B_LOSSES (wr b SP_STATUS_LOST_SEEN 1 s)
  let s := modPort n (fun p => { p with openAt := now s + ceilDiv (60 * 2 ^ 24) last, ocRun := 0, misses := 0, catching := false }) s
  let s := retryFailed n (wr b SP_STATUS_REGION 0 s)
  if retriesOver s n then lastingFault (fbPort n) 0 3 s else s

/-- A rotor lost while it is braked to a stop (R168, R175, R177): the bridge at high impedance; it coasts below n_sb, and is then short-braked. -/
def coastDown (n : Nat) (s : State) : State := spSet n 9 (bridgeOff n s)

/-- R168, R175, R177: the rotor is out of step: lost at speed, a failed start before it, a spin-down where it is braked to a stop. -/
def outOfStep (n : Nat) (s : State) : State :=
  let st := spState s n
  if st = 6 ∨ st = 7 then loseRotor n s
  else if st = 3 then (if (portOf s n).brakeFor = .start then startFail n s else coastDown n s)
  else if st = 4 ∨ st = 5 then startFail n s
  else if st = 9 then coastDown n s
  else s

/-! ### The duty (R165) -/

/-- R165: the next period boundary of the PWM, in ticks of the motor timer. -/
def nextBoundary (s : State) (n : Nat) : Nat :=
  let period := 10 * rd s (portBase n) SP_PWM_PERIOD
  let ns := now s * 1000000000 / 2 ^ 24
  ceilDiv ((ns / period + 1) * period * 2 ^ 24) 1000000000

/-- R165: the duty in force. -/
def dutyNow (s : State) (n : Nat) : Int :=
  let p := portOf s n
  if now s < p.dutyAt then p.dutyWas else p.duty

/-- R165: a duty demand takes effect at the next period boundary. -/
def setDuty (n : Nat) (d : Int) (s : State) : State :=
  let was := dutyNow s n
  let t := nextBoundary s n
  modPort n (fun p => { p with dutyWas := was, duty := d, dutyAt := t }) s

/-! ### Catch and hand-off (R173, R174) -/

/-- R162: the step whose floating phase (0 U, 1 V, 2 W) crosses with a rising or falling back-EMF. -/
def stepOf (phase : Nat) (rising : Bool) : Nat :=
  if rising then (if phase = 1 then 1 else if phase = 2 then 3 else 5)
  else (if phase = 2 then 0 else if phase = 0 then 2 else 4)

/-- The loop takes over at a speed: manual at the duty that balances the back-EMF, which the bridge carries at once, cleared at the next sample
(DEDUCED from R174 and R175's example, notes/assumptions/25.md). -/
def handOver (n rpm : Nat) (s : State) : State :=
  let lb := leBase (48 + n)
  let duty := roundAway (4096 * emfV s n rpm / busVolts s)
  let s := leEnableOp (48 + n) s
  let s := wr lb LE_MANUAL_VALUE (fitBits 16 duty) (wr lb LE_CTL_MANUAL 1 s)
  let s := setDuty n duty (setDemand (48 + n) (duty : Rat) s)
  let s := wr (portBase n) SP_MEAS_SPEED rpm (dirSet_ n 1 (spSet n 6 s))
  let t := now s
  modPort n (fun p => { p with catching := true, times := [stepTicks s n rpm], lastComm := t, lastCross := 0, misses := 0, ocRun := 0 }) s

/-- R174: a catch on the fly: the step of the rotor's last crossing, whose commutation is half an interval and the advance later (R163); region 2
for 1 s. -/
def catchRotor (n : Nat) (r : Rotor) (s : State) : State :=
  let b := portBase n
  let s := incF b SP_COUNTS_A_CATCHES (wr b SP_STATUS_CAUGHT 1 s)
  let t := now s + secs 1
  let s := handOver n r.rpm (modPort n (fun p => { p with catchUntil := t }) s)
  let s := wr b SP_MEAS_STEP (stepOf r.phase.val r.rising) s
  let k := stepTicks s n r.rpm * (32 + rd s b SP_COMM_ADVANCE) / 64
  modPort n (fun p => { p with lastCross := r.lastAt, lastComm := r.lastAt - k, zcAt := r.lastAt, zcIval := stepTicks s n r.rpm }) s

/-- R173: the commanded speed of the open loop; a rate of 0 means a step (R153). -/
def openRpm (s : State) (n : Nat) : Nat :=
  let began := (portOf s n).openAt - ceilDiv (rd s (portBase n) SP_OPEN_OPEN_TMO * 2 ^ 24) 2
  let rate := rd s (leBase (48 + n)) LE_RAMP_RATE
  if rate = 0 then rd s (portBase n) SP_SPEED_TARGET else 30 + rate * (now s - began) / 2 ^ 24

/-- R173: hand-off once the commanded speed and six crossings in a row are there. -/
def tryHandOff (n : Nat) (s : State) : State :=
  let s := modPort n (fun p => { p with cmdRpm := openRpm s n }) s
  if 10 * rd s (portBase n) SP_OPEN_HANDOFF_RPM ≤ (portOf s n).cmdRpm ∧ 6 ≤ (portOf s n).goodCross then
    handOver n (portOf s n).cmdRpm s
  else s

/-! ### Commutation (R163, R164) -/

/-- Sum and number of the last step intervals. -/
def stepSum (p : Port) : Nat := p.times.foldl (· + ·) 0

/-- The step's crossing has been taken. -/
def crossed (p : Port) : Bool := decide (p.lastComm ≤ p.lastCross)

/-- R163: a crossing at `t` is accepted. -/
def crossOk (s : State) (n t : Nat) : Bool :=
  let p := portOf s n
  let b := portBase n
  let k := p.times.length
  let sum := stepSum p
  let x := (t - p.lastComm) * 64 * k
  let zc := rd s b SP_COMM_ZC_WIN
  let pred := 32 + rd s b SP_COMM_ADVANCE
  decide (0 < k) && !crossed p && decide (p.lastComm ≤ t) && decide (sum * rd s b SP_COMM_BLANK ≤ x)
    && decide (sum * pred ≤ x + sum * zc) && decide (x < sum * (pred + zc))

/-- R137: Motion Safety's own comparators see every crossing, whether the bridge drives or not. -/
def seenCrossing (n t : Nat) (s : State) : State :=
  modPort n (fun p => { p with zcIval := t - p.zcAt, zcAt := t }) s

/-- R86, R172, R176: the plug brake has brought the rotor below CATCH_MIN: a start measures again, a stop and a release short-brake. -/
def plugOver (n : Nat) (s : State) : State :=
  if (portOf s n).brakeFor = .start then measureStart n s else shortBrake n s

/-- R172: a crossing under the plug brake, which follows the rotor's own crossings: its next step, in its direction, and its speed. -/
def plugCrossing (n t : Nat) (s : State) : State :=
  let b := portBase n
  let s := reach t s
  let d := if rd s b SP_STATUS_DIR = 2 then 5 else 1
  let times := ((t - (portOf s n).lastCross) :: (portOf s n).times).take 6
  let s := wr b SP_MEAS_STEP ((rd s b SP_MEAS_STEP + d) % 6) s
  let v := speedOf s n times
  let s := wr b SP_MEAS_SPEED (min 8191 v.floor.toNat) (modPort n (fun p => { p with lastCross := t, times := times }) s)
  if v < (catchMin s n : Rat) then plugOver n s else s

/-- R163, R172, R173: a crossing: seen by Motion Safety, accepted in the window of the commutation, followed by the plug brake. -/
def crossingOp (n t : Nat) (s : State) : State :=
  let s := seenCrossing n t s
  let st := spState s n
  if s.pwr.failing then s
  else if (st = 5 ∨ st = 6 ∨ st = 7) ∧ crossOk s n t = true then
    let s := reach t s
    let s := modPort n (fun p => { p with lastCross := t, misses := 0, goodCross := p.goodCross + 1 }) s
    if st = 5 then tryHandOff n s else s
  else if st = 3 ∧ (portOf s n).brake = .plug then plugCrossing n t s
  else s

def execZeroCrossing (n : PortId) (at_ : Nat) (s : State) : Res State := run .motion (crossingOp n.val at_) s

/-- R73: the spindle is back above an actuator's flying threshold. -/
def flyClear (n : Nat) (s : State) : State :=
  let v := rd s (portBase n) SP_MEAS_SPEED
  forEach [actU n, actL n] (fun a s =>
    let r := if (portOf s n).flyRef = 0 then rd s (portBase n) SP_SPEED_TARGET else (portOf s n).flyRef
    if (actOf s a).gates.fly ∧ rd s (actBase a) SV_SAFETY_FLY_PCT * r ≤ v * 100 then setGates a (fun g => { g with fly := false }) s
    else s) s

/-- The next step begins at `t`. -/
def nextStep (n t : Nat) (s : State) : State :=
  let b := portBase n
  let s := reach t s
  let p := portOf s n
  let times := ((now s - p.lastComm) :: p.times).take 6
  let s := wr b SP_MEAS_STEP ((rd s b SP_MEAS_STEP + 1) % 6) s
  let s := wr b SP_MEAS_SPEED (min 8191 (speedOf s n times).floor.toNat) s
  flyClear n (modPort n (fun p => { p with times := times, lastComm := now s }) s)

/-- R163: the commutation instant, or the next step of the open loop. -/
def commutateOp (n : Nat) (s : State) : State :=
  let st := spState s n
  let p := portOf s n
  if st = 5 then tryHandOff n (nextStep n (p.lastComm + stepTicks s n (openRpm s n)) s)
  else if (st = 6 ∨ st = 7) ∧ crossed p = true ∧ p.times ≠ [] then
    nextStep n (p.lastCross + ceilDiv (stepSum p * (32 - rd s (portBase n) SP_COMM_ADVANCE)) (64 * p.times.length)) s
  else s

def execCommutation (n : PortId) (s : State) : Res State := spinRun (commutateOp n.val) s

/-- R164: a window ends without a crossing: the predicted one is taken. -/
def missOp (n : Nat) (s : State) : State :=
  let st := spState s n
  let b := portBase n
  let p := portOf s n
  if (st = 5 ∨ st = 6 ∨ st = 7) ∧ crossed p = false ∧ p.times ≠ [] then
    let pred := 32 + rd s b SP_COMM_ADVANCE
    let at_ (k : Nat) := p.lastComm + ceilDiv (stepSum p * k) (64 * p.times.length)
    let s := reach (at_ (pred + rd s b SP_COMM_ZC_WIN)) s
    if st = 5 then modPort n (fun p => { p with lastCross := at_ pred, goodCross := 0 }) s
    else
      let s := incF b SP_COUNTS_C_MISSED_ZC s
      let s := modPort n (fun p => { p with lastCross := at_ pred, misses := p.misses + 1 }) s
      if rd s b SP_COMM_MISS_MAX ≤ (portOf s n).misses then loseRotor n s else s
  else s

def execMissedCrossing (n : PortId) (s : State) : Res State := spinRun (missOp n.val) s

/-- R168: one PWM period cut; more than 1,000 in a row lose the rotor. -/
def overcurrentOp (n : Nat) (s : State) : State :=
  let st := spState s n
  if (3 ≤ st ∧ st ≤ 7) ∨ st = 9 then
    let b := portBase n
    let s := wr b SP_STATUS_OVERCURRENT 1 (incF b SP_COUNTS_C_OVERCURRENTS s)
    let period := ceilDiv (rd s b SP_PWM_PERIOD * 2 ^ 24) 100000000
    let s := modPort n (fun p => { p with ocRun := if now s < p.ocAt + 2 * period then p.ocRun + 1 else 1, ocAt := now s }) s
    if 1000 < (portOf s n).ocRun then outOfStep n (modPort n (fun p => { p with ocRun := 0 }) s) else s
  else s

def execOvercurrent (n : PortId) (s : State) : Res State := spinRun (overcurrentOp n.val) s

/-! ### The start (R171-R173) -/

/-- R171: no line-to-line voltage exceeded EMF_MIN. -/
def atRest (s : State) (n emfMv : Nat) : Bool := decide (emfMv ≤ 2 * rd s (portBase n) SP_START_EMF_MIN)

/-- R171: turning at a measured speed: the order, if it counts. -/
def turning (r : Rotor) : Option Bool := if 6 ≤ r.crossings ∧ r.spreadPct ≤ 10 then r.order else none

/-- R173 step 1: align on step 5 first. -/
def alignStart (n : Nat) (s : State) : State :=
  let s := wr (portBase n) SP_MEAS_STEP 5 (dirSet_ n 3 (spSet n 4 s))
  let t := now s + ceilDiv (msecs (10 * rd s (portBase n) SP_START_ALIGN_MS)) 2
  modPort n (fun p => { p with openAt := t }) s

/-- R172's table. -/
def startDecision (n : Nat) (r : Rotor) (s : State) : State :=
  let b := portBase n
  let slow (s : State) :=
    if r.rpm * idKe s n < idImax s n * idRes s n then shortBrake n (modPort n (fun p => { p with brakeFor := .start }) (spSet n 3 s))
    else measureStart n s
  if atRest s n r.emfMv then alignStart n s
  else match turning r with
    | some true =>
      let s := dirSet_ n 1 s
      if r.rpm < catchMin s n then slow s
      else if r.rpm * 100 ≤ 105 * idRpmMax s n then catchRotor n r s
      else startFail n s
    | some false =>
      let s := dirSet_ n 2 s
      if r.rpm < catchMin s n then slow s
      else
        let s := wr b SP_MEAS_SPEED (min 8191 r.rpm) (wr b SP_MEAS_STEP (stepOf r.phase.val r.rising) (spSet n 3 s))
        modPort n (fun p => { p with brakeFor := .start, brake := .plug, lastCross := r.lastAt, times := [stepTicks s n r.rpm] }) s
    | none => wr b SP_STATUS_DIR 0 (slow s)

/-- A plug brake under which no crossing has come for one step at CATCH_MIN has done its work: the rotor is slower. -/
def plugSlow (n : Nat) (s : State) : State :=
  if spState s n = 3 ∧ (portOf s n).brake = .plug then
    plugOver n (reach ((portOf s n).lastCross + stepTicks s n (catchMin s n)) s)
  else s

/-- R171, R172, R175: a measurement ends: of a start, of a backward rotor after the plug brake, or within the watch of a lost rotor. -/
def measureEndOp (n : Nat) (r : Rotor) (s : State) : State :=
  let s := if (portOf s n).brakeFor = .start then plugSlow n s else s
  let st := spState s n
  if st = 2 then startDecision n r (reach (portOf s n).openAt s)
  else if st = 8 then
    match turning r with
    | some true =>
      if catchMin s n ≤ r.rpm then catchRotor n r (incF (portBase n) SP_COUNTS_B_RECATCHES s) else s
    | _ => s
  else s

def execStartMeasurementEnd (n : PortId) (r : Rotor) (s : State) : Res State := spinRun (measureEndOp n.val r) s

/-- R173 steps 1 and 2. -/
def alignOp (n : Nat) (s : State) : State :=
  if spState s n = 4 then
    let b := portBase n
    let s := reach (portOf s n).openAt s
    let half := ceilDiv (msecs (10 * rd s b SP_START_ALIGN_MS)) 2
    if rd s b SP_MEAS_STEP = 5 then
      modPort n (fun p => { p with openAt := now s + half }) (wr b SP_MEAS_STEP 0 s)
    else
      let tmo := ceilDiv (rd s b SP_OPEN_OPEN_TMO * 2 ^ 24) 2
      let s := wr b SP_MEAS_STEP 1 (spSet n 5 s)
      modPort n (fun p => { p with openAt := now s + tmo, cmdRpm := 30, goodCross := 0, lastComm := now s, lastCross := 0, times := [stepTicks s n 30] }) s
  else s

def execAlignStep (n : PortId) (s : State) : Res State := spinRun (alignOp n.val) s

/-- R173: the open-loop timeout. -/
def openTmoOp (n : Nat) (s : State) : State :=
  if spState s n = 5 then startFail n (reach (portOf s n).openAt s) else s

def execOpenTmo (n : PortId) (s : State) : Res State := spinRun (openTmoOp n.val) s

/-- R173, R175: RETRY_WAIT ends: the request joins the queue at its tail. -/
def retryEndOp (n : Nat) (s : State) : State :=
  if spState s n = 10 then
    let s := dequeue n (spSet n 1 (reach (portOf s n).retryAt s))
    syncSluice { s with sluice := { s.sluice with fresh := s.sluice.fresh ++ [n] } }
  else s

def execRetryWaitEnd (n : PortId) (s : State) : Res State := spinRun (retryEndOp n.val) s

/-! ### Lost rotors (R175) -/

/-- The write inhibit and the retract of R137, for the actuators that `p` picks. -/
def flyRetract (n : Nat) (p : Nat → Bool) (s : State) : State :=
  forEach [actU n, actL n] (fun a s =>
    if p a then
      let s := wr (actBase a) SV_EVENTS_FLY_LOW 1 s
      retract a (setGates a (fun g => { g with fly := true }) s)
    else s) s

/-- R175 step 3: the watch ends without a catch. -/
def watchEndOp (n : Nat) (s : State) : State :=
  if spState s n = 8 then
    let s := reach (portOf s n).openAt s
    let s := flyRetract n (fun _ => true) s
    modPort n (fun p => { p with brakeFor := .lost }) (spSet n 9 (bridgeOff n s))
  else s

def execLostWatchEnd (n : PortId) (s : State) : Res State := spinRun (watchEndOp n.val) s

/-- R175 step 3: the coasting rotor is below n_sb, or has shown no crossing for 1 s: it is short-braked. -/
def spinBrakeOp (n : Nat) (s : State) : State :=
  if spState s n = 9 ∧ (portOf s n).brake = .coast then shortBrake n s else s

def execSpinDownBrake (n : PortId) (s : State) : Res State := spinRun (spinBrakeOp n.val) s

/-! ### The loop region (R170) and the sample of a spindle instance -/

/-- R170. -/
def spinRegion (s : State) (n : Nat) (m : Rat) : Nat :=
  let target : Rat := (rd s (portBase n) SP_SPEED_TARGET : Rat)
  if now s < (portOf s n).catchUntil then 2
  else if absR (m - target) * 100 ≤ target ∧ flag s (leBase (48 + n)) LE_STATUS_RAMPING = false then 1
  else if target < (loopOf s (48 + n)).working then 3
  else 0

/-- Region 1 is set: the grant of a spin-up is released, the reservation follows a lowered target, the flying threshold the new
speed (R137, R173, R178, R179). A spindle that only waits for its heads to park takes no reservation again (R176). -/
def regionOne (n : Nat) (s : State) : State :=
  let b := portBase n
  let target := rd s b SP_SPEED_TARGET
  let s := spSet n 7 s
  let s := modPort n (fun p => { p with flyRef := target, reserved := if p.deferStop then p.reserved else if p.reserved = 0 then runMw s target else min p.reserved (runMw s target) }) s
  let s := if s.sluice.active.any (fun x => decide (x.1 = n)) then
      let s := incF b SP_COUNTS_A_STARTS (releaseGrant n s)
      let s := when (decide ((portOf s n).fails ≠ 0)) (transientFault (fbPort n) 0 2) s
      let t := now s
      modPort n (fun p => { p with fails := 0, reachedAt := some t }) s
    else s
  flyClear n (syncSluice s)

/-! ### The bridge and the shunt (R165-R167, R169) -/

/-- R173: the current that aligning and the open loop regulate to, in A: ALIGN_MA within SPM_IMAX_MA and the grant's limit (R180). -/
def alignDuty (s : State) (n : Nat) : Rat :=
  let rpm : Rat := if spState s n = 5 then ((portOf s n).cmdRpm : Rat) else 0
  let i : Rat := (min (rd s (portBase n) SP_OPEN_ALIGN_MA) (idImax s n) : Nat) / 1000
  min (4096 * (emfV s n rpm + i * ((idRes s n : Rat) / 1000)) / busVolts s) (dutyMax s n rpm)

/-- R86, R172: the plug brake's duty: the back-EMF adds to the bridge, and the current stays within SPM_IMAX_MA. -/
def plugDuty (s : State) (n : Nat) : Rat :=
  let e := emfV s n (rd s (portBase n) SP_MEAS_SPEED : Rat)
  max 0 (4096 * ((idImax s n : Rat) / 1000 * ((idRes s n : Rat) / 1000) - e) / busVolts s)

/-- The duty that the bridge carries, in 1/4,096: the loop's in its states, the regulated current's in a start and under the plug brake, none
in a power-fail sequence. A bridge gives no more than all of the period. -/
def bridgeDuty (s : State) (n : Nat) : Int :=
  let st := spState s n
  if s.pwr.failing then 0
  else if st = 6 ∨ st = 7 then dutyNow s n
  else if st = 4 ∨ st = 5 then min 4096 (roundAway (alignDuty s n))
  else if st = 3 ∧ (portOf s n).brake = .plug then min 4096 (roundAway (plugDuty s n))
  else 0

/-- R165: the on-time in counts of 10 ns. -/
def onTime (s : State) (n : Nat) : Nat := (2 * (bridgeDuty s n).natAbs * rd s (portBase n) SP_PWM_PERIOD + 4096) / 8192

/-- R167: how many periods the controller groups, by the on-time and T_WIN: 1 where the pulse is long enough, 0 where no group is. -/
def pwmGroup (ton win : Nat) : Nat :=
  if win ≤ ton then 1 else if win ≤ 2 * ton then 2 else if win ≤ 4 * ton then 4 else if win ≤ 8 * ton then 8 else 0

/-- R167: the pulses of one group in counts. What does not divide among the later pulses stays with the first (DESIGN CHOICE,
notes/assumptions/25.md). -/
def pwmPulses (ton win minPulse : Nat) : List Nat :=
  let f := pwmGroup ton win
  if f ≤ 1 then [ton]
  else
    let each := (f * ton - win) / (f - 1)
    let each := if each < minPulse then 0 else each
    (f * ton - (f - 1) * each) :: List.replicate (f - 1) each

/-- R166, R167: where the acquisition begins, in counts after the rising edge of the pulse that carries it; none where no sample is taken. -/
def sampleStart (ton settle acq : Nat) : Option Nat :=
  if 2 * settle + acq ≤ ton then some ((ton - acq) / 2)
  else if pwmGroup ton (settle + acq) = 0 then none
  else some settle

/-- R167: the shunt cannot be sampled at the present duty. -/
def shuntBlind (s : State) (n : Nat) : Bool :=
  let b := portBase n
  (sampleStart (onTime s n) (rd s b SP_SHUNT_SETTLE) (rd s b SP_SHUNT_ACQ)).isNone

/-- The bridge switches under PWM: aligning, stepping, running, or under the plug brake. -/
def driving (s : State) (n : Nat) : Bool :=
  let st := spState s n
  !s.pwr.failing && (decide (4 ≤ st ∧ st ≤ 7) || (decide (st = 3) && decide ((portOf s n).brake = .plug)))

/-- R163, R166: an instant lies in the blanking of the present step or of the one before it. -/
def inBlanking (s : State) (n t : Nat) : Bool :=
  let p := portOf s n
  let within (c : Nat) := decide (c ≤ t) && decide ((t - c) * 64 * p.times.length < stepSum p * rd s (portBase n) SP_COMM_BLANK)
  within p.lastComm || within (p.lastComm - p.times.headD 0)

/-- R166, R167: the shunt's readings since the last sample of the loop: the last one outside blanking is the valid current, and the bridge's power,
bus voltage × current × on-fraction, enters its mean over the last 1 ms, which is four samples. -/
def shuntTake (n : Nat) (shunt : List (Nat × Nat)) (s : State) : State :=
  let b := portBase n
  let blind := shuntBlind s n
  let last := (shunt.filter (fun e => !inBlanking s n e.1)).getLast?
  let s := match last with
    | some e => if blind || !driving s n then s else wr b SP_MEAS_CURRENT_MA (min 4095 e.2) s
    | none => s
  let frac : Rat := (onTime s n : Rat) / (rd s b SP_PWM_PERIOD : Rat)
  let mw : Rat := busVolts s * (rd s b SP_MEAS_CURRENT_MA : Rat) * frac
  let s := modPort n (fun p => { p with powers := (mw :: p.powers).take 4 }) s
  let p := portOf s n
  let s := wr b SP_POWER_POWER (min 65535 (roundAway (p.powers.foldl (· + ·) 0 / (10 * (p.powers.length : Rat)))).toNat) s
  if !driving s n then s
  else setF b SP_STATUS_SHUNT_BLIND (blind || (flag s b SP_STATUS_SHUNT_BLIND && last.isNone)) s

/-- One sample of a spindle's loop (R141, R144, R153, R170): every 250 µs, the measurement being the speed of R163. The demand becomes the
bridge's duty (R169). -/
def spinLoop (n skipped : Nat) (s : State) : State :=
  let i := 48 + n
  let b := portBase n
  let h : Rat := 250 / 1000000
  let m := measuredRpm s n
  let s := countOverruns i skipped h s
  let s := if (portOf s n).catching then setManual i false (modPort n (fun p => { p with catching := false }) s) else s
  let s := rampStep i (rd s b SP_SPEED_TARGET : Rat) m (h * (skipped + 1)) (rd s (leBase i) LE_RAMP_RATE : Rat) s
  let r := spinRegion s n m
  let s := wr b SP_STATUS_REGION r s
  let s := if r = 1 then regionOne n s else spSet n 6 s
  let s := leSample i ⟨h, m, (loopOf s i).working, 0, 0, false, true, 0, r⟩ s
  setDuty n (ofBits 16 (rd s (leBase i) LE_DEMAND_DEMAND)) s

/-- One sample at a spindle's instance: the shunt's readings, and the loop where it holds the rotor. A power-fail sequence leaves no bridge driven
(R177). -/
def spinSample (n : Nat) (shunt : List (Nat × Nat)) (skipped : Nat) (s : State) : State :=
  let s := shuntTake n shunt s
  if spRunning s n && !s.pwr.failing then spinLoop n skipped s else s

/-! ### Register writes -/

/-- R161: a write of SP_SPEED: outside an existing window it is ignored. -/
def speedSetOp (n v : Nat) (s : State) : State :=
  let b := portBase n
  let set := bitsOf v 0 13
  if (match (portOf s n).window with | some (lo, hi) => decide (set < lo) || decide (hi < set) | none => false) then
    wr b SP_STATUS_SET_REFUSED 1 s
  else setTarget n set (wr b SP_SPEED_SET set s)

def execSpSpeedSet (p : Path) (n : PortId) (v : Word) (s : State) : Res State :=
  runWrite p (portBase n.val + 0x604) v.toNat (speedSetOp n.val v.toNat) s

def execSpCommWrite (p : Path) (n : PortId) (v : Word) (s : State) : Res State :=
  runWrite p (portBase n.val + 0x620) v.toNat (checkedWrite p (portBase n.val + 0x620) v.toNat) s

/-- R176, R177: a write of SP_CTL. -/
def spCtlOp (n v : Nat) (s : State) : State :=
  let was := flag s (portBase n) SP_CTL_RUN
  let s := plainWrite (portBase n + 0x600) v s
  let is := flag s (portBase n) SP_CTL_RUN
  if was && !is then stopSpindle n s
  else if !was && is then startSpindle n s
  else s

def execSpCtlRun (p : Path) (n : PortId) (v : Word) (s : State) : Res State :=
  runWrite p (portBase n.val + 0x600) v.toNat (spCtlOp n.val v.toNat) s

/-- R181: more than 1.25 times the reservation for 60 s. -/
def runOverOp (n : Nat) (s : State) : State :=
  if spState s n = 7 then
    earlyWarn 10 4 n (10 * rd s (portBase n) SP_POWER_POWER) (wr (portBase n) SP_STATUS_RUN_OVER 1 s)
  else s

def execRunOver (n : PortId) (s : State) : Res State := run .motion (runOverOp n.val) s

end Sys2Proof.Machine
end

