-- ==== Sys2Proof/Machine/Link.lean ====
section
/-!
DEFINITION. Sys2Proof/Machine/Link.lean: the HDA link: preamplifier frames (R74-R77, R87), preamplifier faults (R79), SHOCK_N (R73),
the sensor link (R80, R81), the identity record (R82, R83) and the states of an HDA port (R84-R86, R371).
-/
namespace Sys2Proof.Machine
open Reg

/-! ### Preamplifier frames -/

/-- Show the end of a software frame (R87). -/
def swDone (a : Nat) (f : Frame) (data : Nat) (bad : Bool) (s : State) : State :=
  let n := portOfAct a
  let b := portBase n
  if f.sw then
    let s := if f.read then wr b HDA_PA_RESULT_DATA data s else s
    let s := wr b HDA_PA_RESULT_DONE 1 (setF b HDA_PA_RESULT_CHECK_ERR bad s)
    modPort n (fun p => { p with swFrame := false }) (wr b HDA_PA_RESULT_REFUSED 0 s)
  else s

/-- What a finished frame leaves of the preamplifier's registers as the module knows them. -/
def frameEffect (a : Nat) (f : Frame) (data : Nat) (s : State) : State :=
  let put (k v : Nat) (x : Act) : Act := { x with pre := tput 0 x.pre k v }
  if f.read then modAct a (fun x => put f.addr data { x with statusRead := if f.addr = 1 then data else x.statusRead }) s
  else if f.addr = 1 then modAct a (fun x => put 1 (tget 0 x.pre 1 &&& (0x1FF ^^^ (f.data &&& 0x1FF))) x) s
  else modAct a (put f.addr (f.data &&& preMask f.addr)) s

/-- R77: the returned frame fails: its CHECK, or a read-back that differs in a defined bit. -/
def frameBad (f : Frame) (data check : Nat) : Bool :=
  if f.read then decide (check ≠ frameCheck true f.addr data)
  else readsBack f && (decide (check ≠ frameCheck true f.addr data) || decide (data &&& preMask f.addr ≠ f.data &&& preMask f.addr))

/-- R77: the frame at the head ends. -/
def frameOp (a data check : Nat) (s : State) : State :=
  let n := portOfAct a
  match (actOf s a).frames with
  | [] => s
  | f :: rest =>
    let checkBad := (f.read || readsBack f) && decide (check ≠ frameCheck true f.addr data)
    if frameBad f data check then
      let s := incF (portBase n) HDA_COUNTS_PA_CRC_ERRS s
      if f.again then
        let s := modAct a (fun x => { x with frames := rest, frameFailed := true }) s
        lastingFault (fbAct a) 0 1 (driveFrame a (swDone a f data checkBad s))
      else driveFrame a (modAct a (fun x => { x with frames := { f with again := true } :: rest }) s)
    else
      let s := modAct a (fun x => { x with frames := rest }) s
      let s := driveFrame a (swDone a f data false (frameEffect a f data s))
      when f.again (transientFault (fbAct a) 0 1) s

def execPreampFrameDone (a : ActId) (data : BitVec 16) (check : BitVec 8) (s : State) : Res State :=
  run .core (frameOp a.val data.toNat check.toNat) s

/-- R78, R83, R87: the frame that HDA_PA_CMD describes is not sent: no such register, one that belongs to the sequencer of an Online port,
the head of an absent surface. -/
def paRefused (s : State) (n : Nat) : Bool :=
  let b := portBase n
  let read := flag s b HDA_PA_CMD_READ
  let addr := rd s b HDA_PA_CMD_ADDR
  decide (8 < addr) || (!read && decide (portState s n = 4) && decide (2 ≤ addr ∧ addr ≤ 5))
    || absentHead s (if flag s b HDA_PA_CMD_LINK then actL n else actU n) read addr (rd s b HDA_PA_CMD_DATA)

/-- R87: a write of 1 to HDA_PA_GO. The head number of an absent surface is never written to PRE_HEAD (R83): such a frame shows DONE and
REFUSED, as one that is not sent (DESIGN CHOICE, notes/assumptions/21.md). -/
def paGoOp (n : Nat) (s : State) : State :=
  let b := portBase n
  let read := flag s b HDA_PA_CMD_READ
  let addr := rd s b HDA_PA_CMD_ADDR
  let a := if flag s b HDA_PA_CMD_LINK then actL n else actU n
  let data := rd s b HDA_PA_CMD_DATA
  if (portOf s n).swFrame || underReset s 2 n then s
  else if paRefused s n then
    wr b HDA_PA_RESULT_DONE 1 (wr b HDA_PA_RESULT_CHECK_ERR 0 (wr b HDA_PA_RESULT_REFUSED 1 s))
  else
    let s := putFrame a ⟨read, addr, data, true, false⟩ s
    wr b HDA_PA_RESULT_DONE 0 (wr b HDA_PA_RESULT_REFUSED 0 (modPort n (fun p => { p with swFrame := true }) s))

def execHdaPaGo (p : Path) (n : PortId) (s : State) : Res State := runWrite p (portBase n.val + 0x14) 1 (paGoOp n.val) s

/-! ### Supplies and rejection (R84) -/

/-- Every supply of a port off: the preamplifiers lose their registers, and the frames in flight are dropped. A software frame among them
never sets DONE, and the next write to HDA_PA_GO is accepted (DESIGN CHOICE, notes/assumptions/21.md). -/
def suppliesOff (n : Nat) (s : State) : State :=
  let s := modPort n (fun p => { p with swFrame := false }) s
  forEach [actU n, actL n] (fun a s => modAct a (fun x => { x with frames := [], pre := [], fltTried := false }) s) s

/-- The port is Rejected with a cause. -/
def rejectPort (n cause : Nat) (s : State) : State :=
  let b := portBase n
  let s := wr b HDA_STATUS_STATE 7 (wr b HDA_STATUS_REJECT_CAUSE cause (suppliesOff n s))
  if 2 ≤ spState s n ∧ spState s n ≤ 9 then spinStopNow n false s else s

/-! ### Preamplifier faults (R79) -/

/-- R79: HLx_FLT_N has been low for 100 ns; PRE_STATUS is read, and written back to clear it. A write that the fall cut is retried once,
and its outcome shows at the next slot written (retryPassed). -/
def fltOp (a : Nat) (status : ReadTry) (stillLow : Bool) (s : State) : State :=
  let n := portOfAct a
  let b := portBase n
  let st := portState s n
  let writing := (actOf s a).writing
  let s := wr b (fltSeen a) 1 (setF b (fltField a) true s)
  if 3 ≤ st ∧ st ≤ 5 then
    let s := setGates a (fun g => { g with flt := true }) s
    let s := statusTry a status stillLow s
    if st = 3 ∧ stillLow = true then rejectPort n 8 s
    else if (unitOf s (fbAct a) 0).inFault then
      let s := lastingFault (fbAct a) 0 2 s
      if stillLow then s else fltOver a s
    else if stillLow || (actOf s a).fltTried then
      let s := lastingFault (fbAct a) 0 2 (modAct a (fun x => { x with fltTried := false }) s)
      if stillLow then s else fltOver a s
    else if writing then fltOver a (modAct a (fun x => { x with fltTried := true }) s)
    else fltOver a (transientFault (fbAct a) 0 2 s)
  else s

def execHlxFltNFall (a : ActId) (status : ReadTry) (stillLow : Bool) (s : State) : Res State :=
  run .motion (fltOp a.val status stillLow) s

/-! ### SHOCK_N (R73) -/

def shockOp (n : Nat) (s : State) : State :=
  let b := portBase n
  let s := incF b HDA_COUNTS_SHOCKS (wr b HDA_STATUS_SHOCK_SEEN 1 (wr b HDA_STATUS_SHOCK 1 s))
  forEach [actU n, actL n] (fun a s => setGates a (fun g => { g with shock := true }) s) s

def execShockNFall (n : PortId) (s : State) : Res State := run .motion (shockOp n.val) s

def shockEndOp (n : Nat) (s : State) : State :=
  forEach [actU n, actL n] (fun a s => setGates a (fun g => { g with shock := false }) s) (wr (portBase n) HDA_STATUS_SHOCK 0 s)

def execShockNRelease (n : PortId) (s : State) : Res State := run .motion (shockEndOp n.val) s

/-! ### Sensor link (R80, R81) -/

/-- A reading of the environmental sensor. One whose status byte says that it is not valid is an answer, so it ends a row of failures, and
HDA_ENV keeps the last reading (DESIGN CHOICE, notes/assumptions/21.md). -/
def sensorTake (n : Nat) (bs : List Byte) (s : State) : State :=
  let bad := decide (leAt bs 4 1 % 2 = 1)
  let s := modPort n (fun p => { p with sensFails := 0, envInvalid := bad }) s
  if bad then s
  else tempTrack (wr (portBase n) HDA_ENV_TEMP (leAt bs 0 2) (wr (portBase n) HDA_ENV_HUMIDITY (leAt bs 2 2) s))

/-- R81: a transaction that failed twice: SENS_ERR; three in a row are a lasting fault of the sensor link. -/
def sensorFail (n : Nat) (s : State) : State :=
  let s := wr (portBase n) HDA_STATUS_SENS_ERR 1 s
  let s := modPort n (fun p => { p with sensFails := p.sensFails + 1 }) s
  if 3 ≤ (portOf s n).sensFails then lastingFault (fbPort n) 1 1 s else s

/-- R81: one poll: the transaction, repeated once if it failed. -/
def sensorOp (n : Nat) (first second : Option (List Byte)) (s : State) : State :=
  let st := portState s n
  if decide (2 ≤ st ∧ st ≤ 5) && !(portOf s n).sensBad then
    match first with
    | some bs => sensorTake n bs s
    | none => match second with
      | some bs => transientFault (fbPort n) 1 1 (sensorTake n bs s)
      | none => sensorFail n s
  else s

def execSensorPoll (n : PortId) (first second : Option (List Byte)) (s : State) : Res State :=
  run .core (sensorOp n.val first second) s

/-! ### The identity record (R82, R83) -/

/-- HDA_ID_COPY takes 256 bytes. -/
def idCopy (n : Nat) (bs : List Byte) (s : State) : State :=
  forEach (List.range 64) (fun i s => wr (portBase n) (HDA_ID_COPY_WORD.ix i) (leAt bs (4 * i) 4) s) s

/-- R82, R83: REJECT_CAUSE of a record, 0 if it is valid. Where several checks fail, the first of 2, 3, 4, 5 is shown (DESIGN CHOICE,
notes/assumptions/21.md). -/
def recordCause (bs : List Byte) : Nat :=
  let g (o n : Nat) := leAt bs o n
  if g 0 4 ≠ 0x44484D4C ∨ g 6 2 ≠ 256 then 2
  else if crc32c (bs.take 0xFC) ≠ g 0xFC 4 then 3
  else if g 4 2 ≠ 1 ∧ g 4 2 ≠ 2 then 4
  else if g 8 2 = 0 ∨ g 0x1E 1 = 0 ∨ 12 < g 0x1E 1 ∨ g 0x1F 1 % 2 = 1 ∨ g 0x1F 1 < 4 ∨ 16 < g 0x1F 1 ∨ 2 ^ 24 ≤ g 0x20 4
      ∨ 10240 < g 0x24 2 ∨ 10240 < g 0x26 2 ∨ g 0x28 2 < 3600 ∨ g 0x2A 2 < g 0x28 2 ∨ 7200 < g 0x2A 2 ∨ g 0x2C 2 ≠ 480
      ∨ 4000 < g 0x32 2 ∨ 2000 < g 0x36 2 ∨ ((bs.drop 0x0C).take 16).any (fun b => decide (128 ≤ b.toNat)) = true
      ∨ g 0x6C 144 ≠ 0 then 5
  else 0

/-! ### Port states (R84) -/

/-- R370: the ports run through R84 from the moment a copy is valid. -/
def portsRun (s : State) : Bool := cfgApplied s

/-- Empty to Settling. REJECT_CAUSE, which no rule returns to 0, is cleared here (DESIGN CHOICE, notes/assumptions/21.md). -/
def settle (n : Nat) (s : State) : State :=
  let b := portBase n
  let s := wr b HDA_STATUS_STATE 1 (wr b HDA_STATUS_REJECT_CAUSE 0 (wr b HDA_STATUS_INSERTED 1 s))
  idCopy n [] (modPort n (fun p => { p with settleEnd := now s + msecs 250 }) s)

/-- PRES_N goes low. -/
def presLowOp (n : Nat) (s : State) : State :=
  if service s = 4 then s
  else
    let s := wr (portBase n) HDA_STATUS_PRESENT 1 s
    if live s .motion && portsRun s && decide (portState s n = 0) then settle n s else s

def execPresNLow (n : PortId) (s : State) : Res State := run .always (presLowOp n.val) s

/-- R84, R85: a present port whose window is over goes to Identifying, unless POWER_ENABLE is clear or the module is Warm. -/
def advancePort (n : Nat) (s : State) : State :=
  let b := portBase n
  if portState s n = 1 ∧ flag s b HDA_STATUS_PRESENT = true ∧ flag s b HDA_CTL_POWER_ENABLE = true
      ∧ (portOf s n).settleEnd ≤ now s ∧ service s ≠ 3 then
    modPort n (fun p => { p with settleEnd := now s + msecs 10 }) (wr b HDA_STATUS_STATE 2 s)
  else s

def settleEndOp (n : Nat) (s : State) : State :=
  if portState s n = 1 then advancePort n (reach (portOf s n).settleEnd s) else s

def execSettleWindowEnd (n : PortId) (s : State) : Res State := run .motion (settleEndOp n.val) s

/-- R371: the model of the HDA is applied, and the port is in Powering. -/
def portPowering (n : Nat) (x : Section) (s : State) : State :=
  let s := wr cfgB CFG_NO_MODEL_PORTS (setBit (rd s cfgB CFG_NO_MODEL_PORTS) n false) s
  let s := applyModel false (fun _ => true) n x s
  let s := wr (portBase n) HDA_STATUS_STATE 3 s
  let s := modPort n (fun p => { p with settleEnd := now s + msecs 20 }) s
  forEach [actU n, actL n] (fun a s =>
    setGates a (fun g => { g with presence := false }) (modAct a (fun x => { x with pre := [] }) s)) s

/-- The port goes to Powering; an empty speed window is a lasting fault (R161). -/
def powerUp (n : Nat) (x : Section) (s : State) : State := windowFault n (portPowering n x s)

/-- R84, R81: the identity record has been read, by the transaction or its repeat; a transaction that failed twice is a failure of the
sensor link too. -/
def identityOp (n : Nat) (first second : Option (List Byte)) (s : State) : State :=
  if portState s n = 2 && !underReset s 2 n then
    let s := reach (portOf s n).settleEnd s
    match first.orElse (fun _ => second) with
    | none => rejectPort n 1 (sensorFail n (idCopy n [] s))
    | some bs =>
      let s := when first.isNone (transientFault (fbPort n) 1 1) (idCopy n bs s)
      match recordCause bs with
      | 0 => match portModel s n with
        | some x => powerUp n x s
        | none => wr cfgB CFG_NO_MODEL_PORTS (setBit (rd s cfgB CFG_NO_MODEL_PORTS) n true) s
      | c => rejectPort n c s
  else s

def execIdentityRead (n : PortId) (first second : Option (List Byte)) (s : State) : Res State :=
  run .core (identityOp n.val first second) s

/-- R222, R239: the SERIAL is compared with the one recorded for the port. -/
def serialCheck (n : Nat) (s : State) : State :=
  if tfind s.led.invSerial n = some (idSerial s n) then rebuildQueue (rebuildStart n false s)
  else
    let s := { s with bur := { s.bur with hours := tdel s.bur.hours n } }
    wr ledB LEDGER_STATUS_INV_BUSY (setBit (rd s ledB LEDGER_STATUS_INV_BUSY) n true) s

/-- R84: the port is Online. -/
def goOnline (n : Nat) (s : State) : State :=
  let s := wr (portBase n) HDA_STATUS_STATE 4 s
  let s := if spRunning s n then s else requestStart n s
  portRun n (serialCheck n s)

/-- R84: PRE_IDENT and PRE_STATUS have been read on both links. A frame that failed twice is a lasting fault of its head link (R77) and
leaves the preamplifier unanswered; an IDENT of 0x0000 or 0xFFFF is no preamplifier (R78). -/
def identOp (n : Nat) (upper lower : PreampRead) (s : State) : State :=
  if portState s n = 3 then
    let s := reach (portOf s n).settleEnd s
    let one (a : Nat) (r : PreampRead) (s : State) : State :=
      let keep (k : Nat) (v : Option (BitVec 16)) (x : Act) : Act := match v with
        | some w => { x with pre := tput 0 x.pre k w.toNat }
        | none => x
      let s := modAct a (fun x => keep 1 (readValue r.status) (keep 0 (readValue r.ident) x)) s
      readTry a r.status (readTry a r.ident s)
    let ok (r : PreampRead) : Bool := (readValue r.status).isSome && (match (readValue r.ident) with
      | some w => decide (w ≠ 0 ∧ w ≠ 0xFFFF)
      | none => false)
    let s := one (actL n) lower (one (actU n) upper s)
    if ok upper && ok lower then goOnline n s else rejectPort n 6 s
  else s

def execPreampIdentCheck (n : PortId) (upper lower : PreampRead) (s : State) : Res State :=
  run .core (identOp n.val upper lower) s

/-- R84, R391: a supply trips its limit. -/
def tripOp (n : Nat) (s : State) : State :=
  let st := portState s n
  if st = 3 then rejectPort n 7 s
  else if st = 4 then lastingFault (fbPort n) 0 4 (suppliesOff n s)
  else s

def execSupplyTrip (n : PortId) (s : State) : Res State := run .motion (tripOp n.val) s

/-- R84, R86, R190: RELEASE in Online: word 3, RUN cleared, both actuators unload, then the spindle brakes to rest. -/
def releaseOp (n : Nat) (s : State) : State :=
  if portState s n = 4 then
    let s := releaseRun n (releaseGrant n (wr (portBase n) HDA_STATUS_STATE 5 s))
    let s := modPort n (fun p => { p with releaseAt := now s }) s
    let s := forEach [actU n, actL n] (fun a s =>
      let s := postQueued a 4 (endItem a (modAct a (fun x => { x with curFault := x.cur.isSome, ranSince := false }) s))
      enterHoriz a 3 (wr (actBase a) AS_CTL_RUN 0 s)) s
    spinStop n true s
  else s

def execHdaCtlRelease (p : Path) (n : PortId) (s : State) : Res State := runWrite p (portBase n.val + 4) 1 (releaseOp n.val) s

/-- R84: presence lost. -/
def presHighOp (n : Nat) (s : State) : State :=
  if service s = 4 then s
  else
    let b := portBase n
    let st := portState s n
    let s := wr b HDA_STATUS_PRESENT 0 s
    if live s .motion && decide (st ≠ 0) then
      let s := when (decide (st ≠ 6 ∧ st ≠ 7)) (wr b HDA_STATUS_REMOVED 1) s
      let s := if st = 6 ∨ st = 7 then suppliesOff n s else portDark n (suppliesOff n s)
      let s := modPort n (fun p => { p with deferStop := false, lostPend := false, fails := 0, lostRetries := 0, times := [] }) s
      let s := wr cfgB CFG_NO_MODEL_PORTS (setBit (rd s cfgB CFG_NO_MODEL_PORTS) n false) s
      let s := wr ledB LEDGER_STATUS_INV_BUSY (setBit (rd s ledB LEDGER_STATUS_INV_BUSY) n false) s
      rebuildStop n (idCopy n [] (wr b HDA_STATUS_STATE 0 s))
    else s

def execPresNHigh (n : PortId) (s : State) : Res State := run .always (presHighOp n.val) s

/-! ### Braking to rest (R86, R172, R175, R176) -/

/-- R86: the rotor of a released port is at rest: every supply off. -/
def portOff (n : Nat) (s : State) : State :=
  let s := spSet n 0 (suppliesOff n s)
  let s := wr (portBase n) HDA_STATUS_STATE 6 s
  forEach [actU n, actL n] (fun a s => setGates a (fun g => { g with presence := true }) s) s

/-- The rotor is at rest after braking: a start aligns, a release turns the port off, a stop ends, a lost rotor waits for its retry. -/
def atRestOp (n : Nat) (s : State) : State :=
  let s := bridgeOff n (dirSet_ n 3 s)
  match (portOf s n).brakeFor with
  | .start => alignStart n s
  | .release => portOff n s
  | .stop => requestStart n (spSet n 0 s)
  | .lost =>
    let s := modPort n (fun p => { p with lostPend := true, reachedAt := none }) s
    if retriesOver s n then lastingFault (fbPort n) 0 3 s
    else
      let t := now s + secs (rd s (portBase n) SP_RETRY_RETRY_WAIT)
      modPort n (fun p => { p with retryAt := t }) (spSet n 10 s)

/-- R86, R172: a rest check. The windings are released for MEASURE_MS after 100 ms of short braking, and braking goes on where the rotor still
turns. A plug brake under which no crossing comes any more turns into the short brake first. -/
def restOp (n emfMv : Nat) (s : State) : State :=
  let s := if (portOf s n).brakeFor = .start then s else plugSlow n s
  let st := spState s n
  if (st = 3 ∨ st = 9) ∧ (portOf s n).brake = .short then
    let s := reach ((portOf s n).brakeAt + msecs 100 + msecs (rd s (portBase n) SP_START_MEASURE_MS)) s
    if atRest s n emfMv then atRestOp n s else shortBrake n s
  else s

def execRestCheck (n : PortId) (emfMv : Nat) (s : State) : Res State := spinRun (restOp n.val emfMv) s

/-- R86: not at rest 30 s after RELEASE. -/
def slowOp (n : Nat) (s : State) : State :=
  if portState s n = 5 then wr (portBase n) HDA_STATUS_SLOW_STOP 1 (reach ((portOf s n).releaseAt + secs 30) s) else s

def execSlowStop (n : PortId) (s : State) : Res State := run .motion (slowOp n.val) s

end Sys2Proof.Machine
end

