-- ==== Sys2Proof/Machine/Servo.lean ====
section
/-!
DEFINITION. Sys2Proof/Machine/Servo.lean: the servo of an actuator: demodulation and coasting (R120-R125), regions (R127), seeks
(R128-R131), the off-track write inhibit (R132), load, unload and retract (R133-R138), and the servo's registers (R139).
-/
namespace Sys2Proof.Machine
open Reg

/-! ### Demodulation (R120-R124) -/

/-- Mean of the periods of the last 8 valid wedges, in ns (R124). -/
def meanPeriod (l : List Nat) : Nat := if l.isEmpty then 0 else l.foldl (· + ·) 0 / l.length

/-- R124: a candidate `t` ns after the previous wedge's mark lies within 24 ticks of the predicted start E, the mean period; a tick is the
4,096th part of it (R119). -/
def inMarkWindow (mean t : Nat) : Bool := decide ((((t : Int) - mean).natAbs) * 4096 ≤ 24 * mean)

/-- R124: the first mark candidate in the window with no more than one symbol wrong; at any tick while the servo searches. -/
def markFound (search : Bool) (mean : Nat) : List (Nat × BitVec 8) → Option Nat
  | [] => none
  | (t, v) :: r =>
    if (search || inMarkWindow mean t) && decide (hamming 8 0xD2 v.toNat ≤ 1) then some t else markFound search mean r

/-- A period lies within 1 % of another (R125). -/
def periodNear (p q : Nat) : Bool := decide (p * 100 ≤ q * 101) && decide (q * 99 ≤ p * 100)

/-- R120: the track field's parity is even. -/
def trackParity (w : Nat) : Bool := decide (popCount 22 w % 2 = 0)

/-- What a wedge gives: its mark found, the period in ns to its mark or its predicted place, a valid position, the track field's parity. -/
structure WedgeRead where
  mark : Bool
  ns : Nat
  parity : Bool
  y : Option Rat
  deriving DecidableEq, Repr

/-- Velocity is in tracks per ms, a period in ns. -/
def coastStep (v : Rat) (ns : Nat) : Rat := v * (ns : Rat) / 1000000

/-- R122, R123: read one wedge. The predicted track stands in for the track field in Follow and Settle only; while the servo
searches there is no prediction to hold the track against. -/
def readWedge (s : State) (a : Nat) (w : Wedge) : WedgeRead :=
  let st := svState s a
  let x := actOf s a
  let search := decide (st = 1 ∨ st = 7)
  let mean := meanPeriod x.periods
  let found := markFound search mean w.marks
  let mark := found.isSome
  let ns := found.getD mean
  let par := trackParity w.track.toNat
  let g := grayDecode 20 (w.track.toNat % 2 ^ 20)
  let u := servoU w.tF w.tRef w.tK
  let pred := roundAway (x.y + coastStep x.vel ns)
  let off := decide (1 < ((g : Int) - pred).natAbs)
  let y : Option Rat :=
    if !mark || !timingOk w.tF w.tRef w.tK then none
    else if search then (if par then some (servoY g u) else none)
    else if par && !off then some (servoY g u)
    else if st = 3 ∨ st = 4 then some (servoY (pred : Rat) u)
    else none
  ⟨mark, ns, par, y⟩

/-! ### Targets, position registers, regions -/

/-- R123: the target: SV_TARGET.TRACK, plus SV_JOG.JOG while the actuator writes; track 0 for an unload (R134). -/
def svTarget (s : State) (a : Nat) : Rat :=
  if (actOf s a).unloadSeek then 0
  else (rd s (actBase a) SV_TARGET_TRACK : Rat)
    + (if (actOf s a).writing then (ofBits 20 (rd s (actBase a) SV_JOG_JOG) : Rat) / 1024 else 0)

/-- R123: PES in 1/1,024 track. -/
def pesOf (s : State) (a : Nat) : Int := roundAway (((actOf s a).y - svTarget s a) * 1024)

/-- R139: the zone table in force: as it stood at the last seek. Before the first seek it is the table as written. -/
def zonesUsed (s : State) (a : Nat) : List (Nat × Nat) :=
  let z := (actOf s a).zones
  if z.isEmpty then zonesOf s a else z

/-- Show the position (SV_POS, SV_PES, SV_STATE.ZONE). -/
def showPos (a : Nat) (predicted : Bool) (s : State) : State :=
  let b := actBase a
  let y := (actOf s a).y
  let q := roundAway (y * 1024)
  let s := wr b SV_POS_FRACTION (q % 1024).toNat s
  let s := wr b SV_POS_TRACK (fitNat 20 (q / 1024)) s
  let s := setF b SV_POS_PREDICTED predicted s
  let s := wr b SV_STATE_ZONE (zoneAt y.floor.toNat (zonesUsed s a) 0) s
  wr b SV_PES_PES (fitBits 16 (pesOf s a)) s

/-- R127: the boundaries reached, as bits 0 to 6: reached 64 tracks beyond, left 64 tracks back below. -/
def boundsNow (s : State) (a : Nat) : Nat :=
  let x := actOf s a
  (List.range 7).foldl (fun acc i =>
    let b : Rat := (rd s (actBase a) (SV_REGION_BOUND_TRACK.ix i) : Rat)
    let is := if bitOf x.band i then decide (b - 64 < x.y) else decide (b + 64 ≤ x.y)
    setBit acc i is) 0

/-- R127: the mode of a servo state. Lost, which R127 leaves without a mode, has that of Loading: its valid wedges before the relock lie in
regions 24 to 31 (DESIGN CHOICE, notes/assumptions/23.md). -/
def regionMode (st : Nat) : Nat := if st = 4 then 0 else if st = 3 then 1 else if st = 2 then 2 else 3

/-- R127: the region at a valid wedge. -/
def regionUpdate (a : Nat) (s : State) : State :=
  let s := modAct a (fun x => { x with band := boundsNow s a }) s
  wr (actBase a) SV_STATE_REGION (8 * regionMode (svState s a) + popCount 7 (actOf s a).band) s

/-! ### The trajectory (R128, R129) -/

/-- The reference of a seek: acceleration (tracks/ms²) and velocity (tracks/ms), each toward the target, and whether the target is
reached. -/
structure Ref where
  acc : Rat
  vel : Rat
  done : Bool
  deriving DecidableEq, Repr

/-- R128: the reference at `t` ms of a seek of `d` tracks. Without acceleration or velocity it never arrives. -/
def refAt (a vm d t : Rat) : Ref :=
  if d = 0 then ⟨0, 0, true⟩
  else if a = 0 ∨ vm = 0 then ⟨0, 0, false⟩
  else if vm * vm ≤ a * d then
    let up := vm / a
    let total := d / vm + up
    if total ≤ t then ⟨0, 0, true⟩
    else if t < up then ⟨a, a * t, false⟩
    else if t < d / vm then ⟨0, vm, false⟩
    else ⟨-a, a * (total - t), false⟩
  else if 4 * d ≤ a * t * t then ⟨0, 0, true⟩
  else if a * t * t < d then ⟨a, a * t, false⟩
  else ⟨-a, ratSqrt (4 * a * d) - a * t, false⟩

/-- The reference of an actuator now. -/
def refNow (s : State) (a : Nat) : Ref :=
  let x := actOf s a
  if svState s a = 2 then
    refAt (rd s (actBase a) SV_SEEK_USED_AMAX_USED * 1000) (rd s (actBase a) SV_SEEK_VMAX * 1000) x.seekLen ((x.seekNs : Rat) / 1000000)
  else ⟨0, 0, false⟩

def dirSign (s : State) (a : Nat) : Rat := if (actOf s a).seekUp then 1 else -1

/-- R129: the feedforward current in mA. -/
def seekFf (s : State) (a : Nat) : Rat := dirSign s a * (refNow s a).acc / (rd s (actBase a) SV_SEEK_KA : Rat)

/-- R129: the cross term from the other actuator. -/
def crossTerm (s : State) (a : Nat) : Rat :=
  let other := if a % 2 = 0 then a + 1 else a - 1
  let k := ofBits 8 (rd s (actBase a) SV_CTL_XCOUPLE)
  if k = 0 then 0 else -((k : Rat) / 128) * seekFf s other

/-- A seek to the target starts (R128). -/
def seekStart (a : Nat) (s : State) : State :=
  seekTo a (if (actOf s a).unloadSeek then 0 else (rd s (actBase a) SV_TARGET_TRACK : Rat)) s

/-- A write of SV_TARGET, by software or by the sequencer (R128). -/
def targetOp (a track : Nat) (s : State) : State :=
  let b := actBase a
  if svState s a = 3 ∨ svState s a = 4 then
    let s := modAct a (fun x => { x with settleTries := 0 }) s
    seekStart a (wr b SV_TARGET_TRACK track s)
  else wr b SV_EVENTS_SEEK_REFUSED 1 s

def execSvTargetWrite (p : Path) (a : ActId) (v : Word) (s : State) : Res State :=
  runWrite p (actBase a.val + 0x104) v.toNat (targetOp a.val (v.toNat % 2 ^ 20)) s

def execSvSettleWrite (p : Path) (a : ActId) (v : Word) (s : State) : Res State :=
  runWrite p (actBase a.val + 0x124) v.toNat (checkedWrite p (actBase a.val + 0x124) v.toNat) s

/-! ### The loop's sample at a wedge (R141, R144) -/

/-- The sample of the present wedge; `ok` says that the wedge is valid. With the previous sample's demand still to be applied it is skipped
(R142). -/
def servoSample (a ns : Nat) (ok overrun : Bool) (s : State) : State :=
  let st := svState s a
  let x := actOf s a
  let h : Rat := (ns : Rat) / 1000000000
  let xc := crossTerm s a
  let reg := rd s (actBase a) SV_STATE_REGION
  let smp : Sample :=
    if st = 2 then ⟨h, x.vel, dirSign s a * (refNow s a).vel, seekFf s a, xc, !ok, ok, 2, reg⟩
    else ⟨h, x.y, svTarget s a, 0, xc, !ok, ok, regionMode st, reg⟩
  let s := wr (leBase a) LE_SETPOINT_WORKING 0 (setF (leBase a) LE_STATUS_RAMPING false s)
  if overruns s (b2n overrun) = 0 then leSample a smp s else countOverruns a 1 h s

/-! ### The write inhibit (R132) -/

def inhibitUpdate (a : Nat) (ok slip : Bool) (s : State) : State :=
  let b := actBase a
  let pes := (pesOf s a).natAbs
  let st := svState s a
  let good := ok && !slip && decide (pes ≤ rd s b SV_SETTLE_SETTLE_WR)
  let n := if good then (actOf s a).wrGood + 1 else 0
  let s := if decide (st ≠ 4) || !ok || slip || decide (rd s b SV_SETTLE_WR_LIMIT < pes) then raiseOff a s else s
  let s := modAct a (fun x => { x with wrGood := n }) s
  if st = 4 ∧ rd s b SV_SETTLE_WR_WEDGES ≤ n then
    setGates a (fun g => { g with offTrack := false }) (setF b SV_STATE_WR_OK true s)
  else s

/-! ### One wedge (R124, R125, R130, R131) -/

/-- R125: the index, of a wedge whose track field has good parity: whether it slipped, and the wedge number. A wedge that says
it is not wedge 0 gives no other number: that number is open (notes/assumptions/7.md). -/
def indexUpdate (a : Nat) (w : Wedge) (r : WedgeRead) (s : State) : Bool × State :=
  let b := actBase a
  let n := (rd s b SV_STATE_WEDGE + 1) % 480
  if r.mark && r.parity then
    let idx := bitOf w.track.toNat 20
    if idx then
      let slip := decide (n ≠ 0)
      (slip, wr b SV_STATE_WEDGE 0 (when slip (wr b SV_EVENTS_INDEX_SLIP 1) s))
    else if n = 0 then
      let (v, s) := takeFree s
      (true, wr b SV_STATE_WEDGE (1 + v % 479) (wr b SV_EVENTS_INDEX_SLIP 1 s))
    else (false, wr b SV_STATE_WEDGE n s)
  else (false, wr b SV_STATE_WEDGE n s)

/-- Follow is reached: a settle or a load that needed its second attempt counts as transient (R383). -/
def followReached (a : Nat) (s : State) : State :=
  let again := decide ((actOf s a).settleTries ≠ 0)
  let s := modAct a (fun x => { x with settleTries := 0 }) (wr (actBase a) SV_STATE_STATE 4 s)
  when again (transientFault (fbAct a) 0 4) s

/-- The state after a valid wedge in Seek or Settle: the hand-off (R130), of an unload's seek to the ramp (R134), the end of settle (R131). -/
def wedgeState (a : Nat) (s : State) : State :=
  let b := actBase a
  let pes := (pesOf s a).natAbs
  if svState s a = 2 then
    if (refNow s a).done && decide (pes ≤ 1024 * rd s b SV_SEEK_HANDOFF_TRACKS) then
      if (actOf s a).unloadSeek then unloadRamp a s
      else modAct a (fun x => { x with settleAt := x.wedgeCount, settleGood := 0 }) (wr b SV_STATE_STATE 3 s)
    else s
  else if svState s a = 3 then
    let s := modAct a (fun x => { x with settleGood := if pes ≤ rd s b SV_SETTLE_SETTLE_RD then x.settleGood + 1 else 0 }) s
    if rd s b SV_SETTLE_RD_WEDGES ≤ (actOf s a).settleGood then followReached a s else s
  else s

/-- A valid wedge while tracking: the new position, the state, the region, the sample, the inhibit. -/
def wedgeGood (a : Nat) (w : Wedge) (ns : Nat) (y : Rat) (slip : Bool) (s : State) : State :=
  let x := actOf s a
  let v := Config.velocity x.vel (y - x.y) ns
  let s := modAct a (fun x => { x with y := y, vel := v, invalidRun := 0, periods := (ns :: x.periods).take 8 }) s
  let s := wedgeState a s
  let s := regionUpdate a (showPos a false s)
  inhibitUpdate a true slip (if svState s a = 5 then s else servoSample a ns true w.overrun s)

/-- R125: Lost is entered: the demand is the integrator's last value. -/
def enterLost (a : Nat) (s : State) : State :=
  let b := actBase a
  let s := tuneAbort a 3 s
  let s := wr b SV_STATE_STATE 7 s
  let s := incF b SV_COUNTS_B_LOCK_LOSSES (wr b SV_EVENTS_LOCK_LOST 1 s)
  let s := modAct a (fun x => { x with lostAt := x.wedgeCount, validRun := 0 }) s
  setDemand a (loopOf s a).i (modLoop a (fun l => { l with lastMode := 99 }) s)

/-- An invalid wedge while tracking: coasting, or Lost at the fifth in a row. -/
def wedgeBad (a : Nat) (w : Wedge) (ns : Nat) (slip : Bool) (s : State) : State :=
  let x := actOf s a
  let s := modAct a (fun x => { x with invalidRun := x.invalidRun + 1, settleGood := 0 }) s
  if 5 ≤ x.invalidRun + 1 then inhibitUpdate a false slip (enterLost a s)
  else
    let s := modAct a (fun x => { x with y := x.y + coastStep x.vel ns }) s
    inhibitUpdate a false slip (servoSample a ns false w.overrun (showPos a true s))

/-- Locking on the third valid wedge in a row with consistent spacing (R125, R133). -/
def lockOn (a ns : Nat) (s : State) : State :=
  let x := actOf s a
  let s := modAct a (fun x => { x with invalidRun := 0, validRun := 0, periods := [ns] }) s
  let s := if svState s a = 1 ∧ x.loadTries ≠ 0 then transientFault (fbAct a) 0 5 s else s
  let s := modAct a (fun x => { x with loadTries := 0, settleTries := 0 }) s
  regionUpdate a (showPos a false (seekStart a s))

/-- The valid wedges in a row after one more: while Lost the spacings count that lie within 1 % of the last known period, while
Loading those that lie within 1 % of the spacing before. -/
def lockRun (x : Act) (lost : Bool) (ns : Nat) : Nat :=
  let near := periodNear ns (meanPeriod x.periods)
  if lost then (if x.validRun ≠ 0 && near then x.validRun + 1 else 1)
  else if x.validRun < 2 || near then x.validRun + 1
  else 2

/-- A wedge in Loading or Lost. -/
def wedgeSearch (a : Nat) (r : WedgeRead) (s : State) : State :=
  let lost := decide (svState s a = 7)
  match r.y with
  | none => modAct a (fun x => { x with validRun := 0 }) s
  | some y =>
    let run := lockRun (actOf s a) lost r.ns
    let v := Config.velocity (actOf s a).vel (y - (actOf s a).y) r.ns
    let s := modAct a (fun x => { x with y := y, vel := v, validRun := run, periods := if lost then x.periods else [r.ns] }) s
    if 3 ≤ run then lockOn a r.ns s else regionUpdate a (showPos a false s)

/-- R124: a servo wedge passes. -/
def wedgeOp (a : Nat) (w : Wedge) (s : State) : State :=
  let b := actBase a
  let st := svState s a
  if st = 0 ∨ st = 6 then s
  else if (actOf s a).retractWait then retract a s
  else if !flag s b SV_CTL_ENABLE then s
  else
    let r := readWedge s a w
    let ok := r.y.isSome
    let s := setF b SV_STATE_LOCKED ok s
    let s := if r.mark then
        wr b SV_INTERVAL_F_SUM (fitNat 24 w.tF) (wr b SV_INTERVAL_REF_SUM (fitNat 24 w.tRef) (wr b SV_INTERVAL_K_SUM (fitNat 24 w.tK) s))
      else s
    let s := when (!ok) (incF b SV_COUNTS_A_MISSED_WEDGES) s
    let s := when (r.mark && !r.parity) (incF b SV_COUNTS_A_GRAY_ERRS) s
    let (slip, s) := indexUpdate a w r s
    let s := modAct a (fun x => { x with wedgeCount := x.wedgeCount + 1, seekNs := x.seekNs + r.ns }) s
    if st = 1 ∨ st = 7 then inhibitUpdate a ok slip (wedgeSearch a r s)
    else if st = 5 then
      match r.y with
      | some y =>
        let v := Config.velocity (actOf s a).vel (y - (actOf s a).y) r.ns
        inhibitUpdate a ok slip (regionUpdate a (showPos a false (modAct a (fun x => { x with y := y, vel := v }) s)))
      | none => inhibitUpdate a ok slip s
    else match r.y with
      | some y => wedgeGood a w r.ns y slip s
      | none => wedgeBad a w r.ns slip s

/-- R191: a wait sees that a wedge has ended, and whether it was the index wedge. -/
def waitWedge (a : Nat) (s : State) : State :=
  let idx := decide (rd s (actBase a) SV_STATE_WEDGE = 0)
  modAct a (fun x => { x with wait := x.wait.map (fun w => { w with wedge := true, index := w.index || idx }) }) s

def execServoWedge (a : ActId) (w : Wedge) (s : State) : Res State := run .motion (fun s => waitWedge a.val (wedgeOp a.val w s)) s

/-- R125: Lost for 480 wedge periods; a count below that is no time-out. -/
def lostTimeoutOp (a : Nat) (s : State) : State :=
  if svState s a = 7 ∧ (actOf s a).lostAt + 480 ≤ (actOf s a).wedgeCount then lastingFault (fbAct a) 0 3 (retract a s) else s

def execLostTimeout (a : ActId) (s : State) : Res State := run .motion (lostTimeoutOp a.val) s

/-- R131: Follow is not reached within SETTLE_TMO × 16 wedges of the hand-off: one more seek, then the lasting fault. -/
def settleTimeoutOp (a : Nat) (s : State) : State :=
  if svState s a = 3 ∧ (actOf s a).settleAt + 16 * rd s (actBase a) SV_SEEK_SETTLE_TMO ≤ (actOf s a).wedgeCount then
    let s := wr (actBase a) SV_EVENTS_SETTLE_TIMEOUT 1 s
    if (actOf s a).settleTries = 0 then seekStart a (modAct a (fun x => { x with settleTries := 1 }) s)
    else lastingFault (fbAct a) 0 4 (retract a (modAct a (fun x => { x with settleTries := 0 }) s))
  else s

def execSettleTimeout (a : ActId) (s : State) : Res State := run .motion (settleTimeoutOp a.val) s

/-! ### Load, unload, retract (R133-R138) -/

/-- R133: a load may start: Parked, the spindle within 1 % of its set speed, no cause of R136. -/
def loadAllowed (s : State) (a : Nat) : Bool :=
  let n := portOfAct a
  let v := rd s (portBase n) SP_MEAS_SPEED
  let t := rd s (portBase n) SP_SPEED_TARGET
  decide (svState s a = 0) && spRunning s n && decide (99 * t ≤ 100 * v ∧ 100 * v ≤ 101 * t)
    && s.rst.asserted.isNone && !s.pwr.failing && !(actOf s a).gates.fly && !underReset s 1 a

/-- One attempt at a load starts. -/
def loadBegin (a : Nat) (s : State) : State :=
  let s := wr (actBase a) SV_STATE_STATE 1 s
  let t := now s
  let s := modAct a (fun x => { x with validRun := 0, invalidRun := 0, loadAt := t, retractWait := false, coldCut := false }) s
  modLoop a (fun l => { l with fresh := true, rampStart := true }) s

/-- R133: the sequencer requests a load. -/
def loadOp (a : Nat) (s : State) : State :=
  if loadAllowed s a then loadBegin a (modAct a (fun x => { x with loadTries := 0 }) s)
  else wr (actBase a) SV_EVENTS_LOAD_FAIL 1 s

def execLoad (a : ActId) (s : State) : Res State := run .motion (loadOp a.val) s

/-- R133: no lock within 20 ms: the attempt fails and the actuator unloads. -/
def lockTimeoutOp (a : Nat) (s : State) : State :=
  if svState s a = 1 then
    let s := reach ((actOf s a).loadAt + msecs 20) s
    let s := incF (actBase a) SV_COUNTS_C_LOAD_FAILS s
    unload a .loadRetry (modAct a (fun x => { x with loadTries := x.loadTries + 1 }) s)
  else s

def execLoadLockTimeout (a : ActId) (s : State) : Res State := run .motion (lockTimeoutOp a.val) s

/-- R133: 100 ms after the first failed attempt's unload. -/
def loadRetryOp (a : Nat) (s : State) : State :=
  let x := actOf s a
  if svState s a = 0 ∧ x.loadTries = 1 ∧ x.unloadFor = .loadRetry then
    let s := reach (x.loadAt + msecs 100) s
    if loadAllowed s a then loadBegin a s
    else wr (actBase a) SV_EVENTS_LOAD_FAIL 1 (modAct a (fun x => { x with loadTries := 0 }) s)
  else s

def execLoadRetry (a : ActId) (s : State) : Res State := run .motion (loadRetryOp a.val) s

def execUnload (a : ActId) (s : State) : Res State := run .motion (unload a.val .sequencer) s

/-- R134: the park condition of R135 holds, on the back-EMF since the drive toward the ramp began; a load that failed waits for its second
attempt, or is a lasting fault. -/
def unloadParkedOp (a : Nat) (emf : List (Nat × Int)) (s : State) : State :=
  match (if svState s a = 5 then parkedAt s a emf else none) with
  | none => s
  | some us =>
    let x := actOf s a
    let s := park a (reach (x.retractAt + usecs us) s)
    let t := now s
    let s := match x.unloadFor with
      | .loadRetry =>
        if x.loadTries = 1 then modAct a (fun x => { x with loadAt := t }) s
        else lastingFault (fbAct a) 0 5 (wr (actBase a) SV_EVENTS_LOAD_FAIL 1 (modAct a (fun x => { x with loadTries := 0 }) s))
      | _ => s
    afterPark a s

def execUnloadParked (a : ActId) (emf : List (Nat × Int)) (s : State) : Res State := run .motion (unloadParkedOp a.val emf) s

/-- R135: the park condition of a retract, within its 12 ms. -/
def retractConfirmed (s : State) (a : Nat) (emf : List (Nat × Int)) : Option Nat :=
  (parkedAt s a emf).bind (fun us => if us ≤ 12000 then some us else none)

/-- R135: the retract reaches park, or its 12 ms are over. -/
def retractParkedOp (a : Nat) (emf : List (Nat × Int)) (s : State) : State :=
  if svState s a = 6 then
    let c := retractConfirmed s a emf
    let s := reach ((actOf s a).retractAt + usecs (c.getD 12000)) s
    let s := wr (actBase a) SV_EVENTS_RETRACTED 1 (park a s)
    afterPark a (when c.isNone (wr (actBase a) SV_EVENTS_PARK_UNCONFIRMED 1) s)
  else s

def execRetractParked (a : ActId) (emf : List (Nat × Int)) (s : State) : Res State := run .always (retractParkedOp a.val emf) s

/-- R136: a request at SV_CTL. -/
def execSvCtlRetract (p : Path) (a : ActId) (s : State) : Res State :=
  runWrite p (actBase a.val + 0x100) 2 (requestRetract a.val) s

/-- R136: after a reset's assertion, of the module or of an actuator's block (R376), every loaded actuator starts its retract. -/
def resetRetractOp (s : State) : State :=
  forEach (List.range 48) (fun a s => if (actOf s a).retractWait && (actOf s a).resetHold then retract a s else s) s

def execResetRetractStart (s : State) : Res State := run .always resetRetractOp s

/-- R137: the set speed that the threshold counts from: the lower of two while the loop ramps between them. -/
def flySpeed (s : State) (n : Nat) : Nat :=
  if (portOf s n).flyRef = 0 then rd s (portBase n) SP_SPEED_TARGET else (portOf s n).flyRef

/-- R137: an interval in ticks between zero crossings exceeds 60 / (3 × POLES × FLY_PCT/100 × set speed) seconds. -/
def flyBelow (s : State) (n a ticks : Nat) : Bool :=
  decide (60 * 100 * 2 ^ 24 < ticks * (3 * idPoles s n * rd s (actBase a) SV_SAFETY_FLY_PCT * flySpeed s n))

/-- R137: at a time, Motion Safety compares its last interval and the time since its last crossing with each actuator's threshold. -/
def flyingOp (n t : Nat) (s : State) : State :=
  let s := reach t s
  let ticks := max (portOf s n).zcIval (now s - (portOf s n).zcAt)
  flyRetract n (fun a => flyBelow s n a ticks) s

def execFlyingThresholdCrossed (n : PortId) (at_ : Nat) (s : State) : Res State := run .motion (flyingOp n.val at_) s

end Sys2Proof.Machine
end

