-- ==== Sys2Proof/Machine/Loop.lean ====
section
/-!
DEFINITION. Sys2Proof/Machine/Loop.lean: the rows of the loop engine (R140-R158) and of the zone tables (R126).
-/
namespace Sys2Proof.Machine
open Reg

/-- The number of an instance: actuators 0 to 47, spindles 48 to 71. -/
def leIx : LeId → Nat
  | .act a => a.val
  | .spin n => 48 + n.val

/-- The fault register set that records an instance's accesses. -/
def leFb (i : Nat) : Nat := if i < 48 then fbAct i else fbPort (i - 48)

/-- The address of LE_CTL of an instance. -/
def leCtl (i : Nat) : Nat := leBase i + 0x300

/-- R174: during a catch a write to the spindle's instance is ignored and recorded. -/
def leWrite (p : Path) (i addr : Nat) (f : State → State) (s : State) : State :=
  if 48 ≤ i ∧ (portOf s (i - 48)).catching = true then recordIgnored (leFb i) addr p s else f s

/-- R133: the VCM's back-EMF in mV: its voltage minus current times resistance. Positive is the motion off the ramp, toward higher tracks
(DEDUCED, notes/assumptions/23.md). -/
def vcmEmf (s : State) (a : Nat) (x : LoopIn) : Rat := (x.vcmMv : Rat) - (x.vcmMa : Rat) * (idVcmRes s (portOfAct a) : Rat) / 1000

/-- R133, R134, R144: the velocity that Loading and Unloading are held at, in mV of back-EMF: LOAD_MV off the ramp, or toward it. -/
def loadVelocity (s : State) (a : Nat) : Rat :=
  let mv : Rat := ((10 * rd s (actBase a) SV_SAFETY_LOAD_MV : Nat) : Rat)
  if svState s a = 5 then -mv else mv

/-- One sample (R141). An actuator is sampled here every 25 µs in Loading and Unloading, where the VCM's back-EMF ramps toward its velocity at
RATE per ms (R133, R153); in Seek, Settle and Follow its samples are those of the wedges. A spindle is sampled every 250 µs. -/
def loopSampleOp (i : Nat) (x : LoopIn) (skipped : Nat) (s : State) : State :=
  let k := overruns s skipped
  if 48 ≤ i then spinSample (i - 48) x.shunt k s
  else
    let st := svState s i
    if st = 1 ∨ st = 5 then
      let h : Rat := 25 / 1000000
      let s := countOverruns i k h s
      let m := vcmEmf s i x
      let s := rampStep i (loadVelocity s i) m (h * (k + 1)) (1000 * (rd s (leBase i) LE_RAMP_RATE : Rat)) s
      leSample i ⟨h, m, (loopOf s i).working, 0, crossTerm s i, false, true, 3, 24 + popCount 7 (actOf s i).band⟩ s
    else s

def execLoopSample (i : LeId) (x : LoopIn) (skipped : Nat) (s : State) : Res State :=
  run .motion (loopSampleOp (leIx i) x skipped) s

def execLeEnable (p : Path) (i : LeId) (s : State) : Res State :=
  runWrite p (leCtl (leIx i)) 1 (leWrite p (leIx i) (leCtl (leIx i)) (leEnableOp (leIx i))) s

/-- R154, R157: ENABLE is cleared. -/
def leDisableOp (i : Nat) (s : State) : State :=
  let s := tuneAbort i 4 s
  let s := wr (leBase i) LE_CTL_ENABLE 0 s
  if i < 48 then requestRetract i s
  else setDemand i 0 s

def execLeDisable (p : Path) (i : LeId) (s : State) : Res State :=
  runWrite p (leCtl (leIx i)) 0 (leWrite p (leIx i) (leCtl (leIx i)) (leDisableOp (leIx i))) s

/-- R152: a write of MANUAL. -/
def leManualOp (p : Path) (i : Nat) (on : Bool) (s : State) : State :=
  if on ∧ i < 48 ∧ svState s i ≠ 0 ∧ svState s i ≠ 4 then recordIgnored (leFb i) (leCtl i) p s
  else setManual i on s

def execLeManual (p : Path) (i : LeId) (on : Bool) (s : State) : Res State :=
  runWrite p (leCtl (leIx i)) (2 * b2n on) (leWrite p (leIx i) (leCtl (leIx i)) (leManualOp p (leIx i) on)) s

/-- R151: HOLD_SET. -/
def execLeHoldSet (p : Path) (i : LeId) (on : Bool) (s : State) : Res State :=
  runWrite p (leCtl (leIx i)) (4 * b2n on) (leWrite p (leIx i) (leCtl (leIx i)) (setF (leBase (leIx i)) LE_CTL_HOLD_SET on)) s

/-- R151: RELOAD. -/
def leReloadOp (i : Nat) (s : State) : State := modLoop i (fun l => { l with reload := true }) s

def execLeReload (p : Path) (i : LeId) (s : State) : Res State :=
  runWrite p (leCtl (leIx i)) 8 (leWrite p (leIx i) (leCtl (leIx i)) (leReloadOp (leIx i))) s

/-- R155: the conditions of a tune. -/
def tuneAllowed (s : State) (i : Nat) : Bool :=
  let b := leBase i
  flag s b LE_CTL_ENABLE && !flag s b LE_CTL_MANUAL && !flag s b LE_STATUS_RAMPING && (loopOf s i).tune.isNone &&
    (if i < 48 then decide (svState s i = 4) && !(actOf s i).writing && !flag s (actBase i) AS_STATUS_GRANTED
     else decide (rd s (portBase (i - 48)) SP_STATUS_REGION = 1) && spRunning s (i - 48))

/-- R155: a tune starts, or is refused. -/
def tuneStartOp (i : Nat) (s : State) : State :=
  if tuneAllowed s i then
    let d := (loopOf s i).prevD
    let t := now s
    let s := modLoop i (fun l => { l with tune := some ⟨d, d, 0, none, [], 0, [], 0, t⟩ }) s
    let s := wr (leBase i) LE_STATUS_TUNING 1 s
    if i < 48 then gateUpdate i s else s
  else wr (leBase i) LE_STATUS_TUNE_REFUSED 1 s

def execTuneStart (p : Path) (i : LeId) (s : State) : Res State :=
  runWrite p (leCtl (leIx i)) 16 (leWrite p (leIx i) (leCtl (leIx i)) (tuneStartOp (leIx i))) s

def execTuneStop (p : Path) (i : LeId) (s : State) : Res State :=
  runWrite p (leCtl (leIx i)) 32 (leWrite p (leIx i) (leCtl (leIx i)) (tuneAbort (leIx i) 4)) s

/-- R157: no full cycle within TMO × 100 ms. -/
def tuneTimeoutOp (i : Nat) (s : State) : State :=
  match (loopOf s i).tune with
  | none => s
  | some t => tuneAbort i 2 (reach (t.since + msecs (100 * rd s (leBase i) LE_TUNE_CFG_TMO)) s)

def execTuneTimeout (i : LeId) (s : State) : Res State := run .motion (tuneTimeoutOp (leIx i)) s

/-- A write of LE_CTL at its address: every field by its own rule. -/
def leCtlOp (p : Path) (i v : Nat) (s : State) : State :=
  leWrite p i (leCtl i) (fun s =>
    let s := setF (leBase i) LE_CTL_HOLD_SET (bitOf v 2) (setF (leBase i) LE_CTL_TUNE_RULE (bitOf v 6) s)
    let s := if bitOf v 0 then leEnableOp i s else leDisableOp i s
    let s := leManualOp p i (bitOf v 1) s
    let s := when (bitOf v 3) (leReloadOp i) s
    let s := when (bitOf v 5) (tuneAbort i 4) s
    when (bitOf v 4) (tuneStartOp i) s) s

/-- The address of a zone table word. -/
def zoneAddr (a z : Nat) (rate : Bool) : Nat := actBase a + 0x200 + 8 * z + (if rate then 4 else 0)

/-- R126, R161, R205: a zone table word is written; the window and the layout follow where the port holds a record. -/
def zoneWriteOp (a addr v : Nat) (s : State) : State :=
  let s := plainWrite addr v s
  if 3 ≤ portState s (portOfAct a) ∧ portState s (portOfAct a) ≤ 5 then windowFault (portOfAct a) (zonesChanged false a s) else s

def execZoneTableWrite (p : Path) (a : ActId) (z : Fin 32) (rate : Bool) (v : Word) (s : State) : Res State :=
  runWrite p (zoneAddr a.val z.val rate) v.toNat (zoneWriteOp a.val (zoneAddr a.val z.val rate) v.toNat) s

end Sys2Proof.Machine
end

