-- ==== Sys2Proof/Machine/Mover.lean ====
section
/-!
DEFINITION. Sys2Proof/Machine/Mover.lean: the movers: requests, arbitration, limiters, errors (12_pool_and_movers.md, R261-R265).
-/
namespace Sys2Proof.Machine
open Reg

/-! ### Requests (R261, R265, R267) -/

/-- The count that software wrote for the next request. -/
def countKey (c : Nat) : Nat := 30 * 2 ^ 40 + (moverBase c + 0x10) * 256
def nextCount (s : State) (c : Nat) : Nat := tget 0 s.copies (countKey c)

/-- MV_COUNT written: the count of the next request. -/
def mvCountOp (c v : Nat) (s : State) : State := { s with copies := tput 0 s.copies (countKey c) v }

/-- The request that a channel's registers describe. -/
def mvRequest (s : State) (c : Nat) : MvReq :=
  let b := moverBase c
  { srcSpace := rd s b MV_SRC_HI_SPACE, src := rd s b MV_SRC_LO_ADDR_LO + rd s b MV_SRC_HI_ADDR_HI * 2 ^ 32,
    dstSpace := rd s b MV_DST_HI_SPACE, dst := rd s b MV_DST_LO_ADDR_LO + rd s b MV_DST_HI_ADDR_HI * 2 ^ 32,
    count := nextCount s c, left := nextCount s c, prio := rd s b MV_CTL_PRIO,
    hash := if flag s b MV_CTL_HASH_EN then some (rd s b MV_CTL_HASH_LANE) else none, withdrawn := false, err := none, owner := 0 }

/-- R265, R267: a request of software that the channel refuses. -/
def mvRefused (r : MvReq) : Bool :=
  let past (space a : Nat) := decide (space = 0 ∧ 2 ^ 36 < a + r.count)
  decide (2 < r.srcSpace ∨ 2 < r.dstSpace) || decide (r.srcSpace ≠ 0 ∧ r.dstSpace ≠ 0) || decide (r.count = 0)
    || past r.srcSpace r.src || past r.dstSpace r.dst
    || (decide (r.srcSpace = 2 ∨ r.dstSpace = 2) && decide (r.count % 4096 ≠ 0))

/-- MV_GO.GO: the request is queued, or refused; a channel out of service completes it with LAST 1 (R388). -/
def mvGoOp (c : Nat) (s : State) : State :=
  let r := mvRequest s c
  if 5 ≤ (chanOf s c).reqs.length ∨ mvRefused r = true then chanOutcome c 3 (rd s (moverBase c) MV_COUNT_BYTES) s
  else if (unitOf s 0x18FC00 c).inFault || underReset s 6 c then chanOutcome c 1 r.count s
  else syncChan c (modChan c (fun x => { x with reqs := x.reqs ++ [r] }) s)

/-- MV_GO.WITHDRAW: the oldest request ends; every burst granted so far is complete, and a request whose last byte has been issued, or
that has met an error, ends as it would without (R265). -/
def mvWithdrawOp (c : Nat) (s : State) : State :=
  match (chanOf s c).reqs with
  | [] => s
  | r :: _ => chanEnd c (if r.err.isSome then 1 else if r.left = 0 then 0 else 2) s

def execMvGo (p : Path) (c : ChanId) (s : State) : Res State :=
  runWrite p (moverBase c.val + 0x18) 1 (mvGoOp c.val) s

def execMvWithdraw (p : Path) (c : ChanId) (s : State) : Res State :=
  runWrite p (moverBase c.val + 0x18) 2 (mvWithdrawOp c.val) s

/-! ### Limiters (R263) -/

/-- While it is enabled the audit runs, while ports are to be rebuilt the rebuild. -/
def rebuildHeld (s : State) (c : Nat) : Bool :=
  decide (c = rd s srB SR_REBUILD_MOVER) && (decide (rd s srB SR_REBUILD_STATUS_PORTS ≠ 0) || flag s srB SR_AUDIT_ENABLE)

def dirHeld (s : State) (c : Nat) : Bool := decide (c = rd s poolB POOL_DIR_CTL_MOVER)

/-- R263: the share and the depth of a channel's limiter. -/
def limiter (s : State) (c : Nat) : Nat × Nat :=
  if dirHeld s c then (rd s poolB POOL_DIR_RATE_SHARE, rd s poolB POOL_DIR_RATE_DEPTH)
  else if rebuildHeld s c then
    (if rd s srB SR_REBUILD_STATUS_PORTS ≠ 0 then rd s srB SR_REBUILD_SHARE else rd s srB SR_AUDIT_SHARE, rd s (moverBase c) MV_RATE_DEPTH)
  else (rd s (moverBase c) MV_RATE_SHARE, rd s (moverBase c) MV_RATE_DEPTH)

/-- The tokens of a channel now, in 1/2^40 of a token: SHARE × 200 · 10^9 per tick, up to DEPTH. -/
def tokensNow (s : State) (c : Nat) : Nat :=
  let (share, depth) := limiter s c
  min (depth * 2 ^ 40) ((chanOf s c).tokens + share * 200000000000 * (now s - (chanOf s c).at_))

/-- The limiter lets a burst go. -/
def tokenOk (s : State) (c : Nat) : Bool := decide ((limiter s c).1 = 0) || decide (2 ^ 40 ≤ tokensNow s c)

/-- A burst uses a token. -/
def tokenUse (c : Nat) (s : State) : State :=
  if (limiter s c).1 = 0 then s
  else
    let n := tokensNow s c - 2 ^ 40
    modChan c (fun x => { x with tokens := n, at_ := now s }) s

/-- MV_RATE written: ignored and recorded while the module holds the limiter. -/
def mvRateOp (p : Path) (c v : Nat) (s : State) : State :=
  let addr := moverBase c + 0x28
  if dirHeld s c || rebuildHeld s c then recordIgnored 0x18FC00 addr p s
  else
    let n := tokensNow s c
    plainWrite addr v (modChan c (fun x => { x with tokens := n, at_ := now s }) s)

def execMvRateWrite (p : Path) (c : ChanId) (v : Word) (s : State) : Res State :=
  runWrite p (moverBase c.val + 0x28) v.toNat (mvRateOp p c.val v.toNat) s

/-- The directory's share and depth go to the limiter of its channel. -/
def dirRateApply (s : State) : State :=
  let b := moverBase (rd s poolB POOL_DIR_CTL_MOVER)
  wr b MV_RATE_SHARE (rd s poolB POOL_DIR_RATE_SHARE) (wr b MV_RATE_DEPTH (rd s poolB POOL_DIR_RATE_DEPTH) s)

/-- POOL_DIR_RATE written. -/
def dirRateOp (v : Nat) (s : State) : State := dirRateApply (plainWrite (poolB + 0x40) v s)

def execPoolDirRateWrite (p : Path) (v : Word) (s : State) : Res State :=
  runWrite p (poolB + 0x40) v.toNat (dirRateOp v.toNat) s

/-! ### Arbitration (R262) -/

def headPrio (s : State) (c : Nat) : Nat := match (chanOf s c).reqs with | r :: _ => r.prio | [] => 0

/-- The bytes of the next burst: up to a 256-byte boundary of each Pool side. -/
def burstLen (r : MvReq) : Nat :=
  let pos := r.count - r.left
  let room (space a : Nat) := if space = 0 then 256 - (a + pos) % 256 else 256
  min r.left (min (room r.srcSpace r.src) (room r.dstSpace r.dst))

/-- A channel whose next burst may go: a request with bytes left and no error, a token, room for it in the write path's two codewords
(R194, R55), no power-fail sequence where the burst would start Reservoir programs (R49), and no block reset before its first burst
(R375). -/
def chanEligible (s : State) (c : Nat) : Bool :=
  match (chanOf s c).reqs with
  | [] => false
  | r :: _ => decide (0 < r.left) && r.err.isNone && decide (r.srcSpace ≠ 4) && !(unitOf s 0x18FC00 c).inFault && tokenOk s c
      && (decide (r.dstSpace ≠ 2) || !s.pwr.failing) && !(underReset s 6 c && decide (r.left = r.count))
      && (decide (r.dstSpace ≠ 3) || decide ((actOf s (r.owner - 1)).fifo.length + burstLen r ≤ 8192))

/-- R262: the highest PRIO; within it in turn, after the channel last granted there. -/
def grantChoice (s : State) (ready : List Nat) : Option Nat :=
  let ok := (List.range 32).filter (fun c => ready.contains c && chanEligible s c)
  let top := ok.foldl (fun acc c => max acc (headPrio s c)) 0
  let last := tget 31 s.mov.turns top
  ((List.range 32).map (fun i => (last + 1 + i) % 32)).find? (fun c => ok.contains c && decide (headPrio s c = top))

/-- The first poisoned codeword of a range. -/
def poisonedIn (s : State) (a n : Nat) : Option Nat :=
  match s.pool.poison.find? (fun e => decide (a < e.1 * 16 + 16 ∧ e.1 * 16 < a + n)) with
  | some e => some e.1
  | none => none

/-- Only partly enabled codewords are merged (R264): those at the ends of the range. -/
def poisonedMerge (s : State) (a n : Nat) : Option Nat :=
  let part (k : Nat) := decide (a < k * 16 + 16 ∧ k * 16 < a + n) && !decide (a ≤ k * 16 ∧ k * 16 + 16 ≤ a + n)
  match s.pool.poison.find? (fun e => part e.1) with
  | some e => some e.1
  | none => none

/-- Free values for bytes whose content is undefined. -/
def freeBytes : Nat → State → List Byte × State
  | 0, s => ([], s)
  | n + 1, s =>
    let (v, s) := takeFree s
    let (l, s) := freeBytes n s
    (BitVec.ofNat 8 v :: l, s)

/-- R265: the first failing beat of the running request, as a destination address; its bytes of a Pool destination are undefined. -/
def beatFail (c beat : Nat) (s : State) : State :=
  match (chanOf s c).reqs with
  | [] => s
  | r :: rest =>
    let b := moverBase c
    let first := r.err.isNone
    let s := modChan c (fun x => { x with reqs := { r with err := some (r.err.getD beat) } :: rest }) s
    let s := when first (fun s => wr b MV_ERR_LO_ADDR_LO (beat % 2 ^ 32) (wr b MV_ERR_HI_ADDR_HI (beat / 2 ^ 32) s)) s
    if r.dstSpace = 0 then
      let lo := max beat r.dst
      let hi := min (beat + 64) (r.dst + r.count)
      let (l, s) := freeBytes (hi - lo) s
      poolPut lo l s
    else s

/-- Bytes pass a hash lane (R233). -/
def laneHash (lane : Nat) (bs : List Byte) (s : State) : State :=
  hashCount bs.length { s with mov := { s.mov with hashed := tmod [] s.mov.hashed lane (· ++ bs) } }

/-- R267: a whole TU of a Pool source has been issued to the Reservoir. -/
def tuIssued (r : MvReq) (from_ to_ : Nat) (s : State) : State :=
  forEach ((List.range (to_ / 4096)).filter (fun i => decide (from_ < (i + 1) * 4096))) (fun i s =>
    pairAdd 0x190050 4096 (storeTu (r.dst + i) (poolBytes s (r.src + i * 4096) 4096) s)) s

/-- The bytes that a burst takes from its source: the Pool, the Reservoir's TUs, or those that arrive. -/
def burstBytes (s : State) (f : Nat) (r : MvReq) (pos n : Nat) (arrived : List Byte) : List Byte :=
  if r.srcSpace = 0 then poolBytes s (r.src + pos) n
  else if r.srcSpace = 2 then
    (List.range n).map (fun i => (tuRead s f (r.src + (pos + i) / 4096)).getD ((pos + i) % 4096) 0)
  else (arrived.take n) ++ List.replicate (n - arrived.length) 0

/-- R262, R264, R265: one burst of a channel. -/
def burst (c : Nat) (arrived : List Byte) (s : State) : State :=
  match (chanOf s c).reqs with
  | [] => s
  | r :: rest =>
    let pos := r.count - r.left
    let n := burstLen r
    let (f, s) := if r.srcSpace = 2 then takeFree s else (0, s)
    let bs := burstBytes s f r pos n arrived
    let bad := if r.srcSpace = 0 then poisonedIn s (r.src + pos) n else none
    let badDst := if r.dstSpace = 0 then poisonedMerge s (r.dst + pos) n else none
    let s := tokenUse c s
    let s := modChan c (fun x => { x with reqs := { r with left := r.left - n } :: rest }) s
    let s := pairAdd (moverBase c + 0x2C) n s
    let s := match r.hash with | some l => laneHash l bs s | none => s
    let s := if r.dstSpace = 0 then poolFill (r.dst + pos) bs s
      else if r.dstSpace = 2 then tuIssued r pos (pos + n) s
      else if r.dstSpace = 3 then modAct (r.owner - 1) (fun x => { x with fifo := x.fifo ++ bs }) s else s
    let seen (k : Nat) (s : State) : State := poolError k (tget 0 s.pool.poison k) true s
    let s := match bad with
      | some k =>
        let src := max (k * 16 / 64 * 64) r.src
        beatFail c (if r.dstSpace = 0 then (r.dst + (src - r.src)) / 64 * 64 else r.dst) (seen k s)
      | none => match badDst with
        | some k => beatFail c (k * 16 / 64 * 64) (seen k s)
        | none => s
    syncChan c s

/-- R262: the movers arbitrate and grant one burst. -/
def grantOp (ready : List Nat) (arrived : List Byte) (s : State) : State :=
  match grantChoice s ready with
  | none => s
  | some c =>
    let s := { s with mov := { s.mov with turns := tput 31 s.mov.turns (headPrio s c) c } }
    burst c arrived s

def execMoverGrant (ready : List ChanId) (bytes : List Byte) (s : State) : Res State :=
  run .core (grantOp (ready.map Fin.val) bytes) s

/-- R265: a destination reports an error on beat `beat` of the running request, counted from its first beat. -/
def beatErrorOp (c beat : Nat) (s : State) : State :=
  match (chanOf s c).reqs with
  | [] => s
  | r :: _ =>
    let first := if r.dstSpace = 0 then r.dst / 64 * 64 else r.dst
    if first + 64 * beat < r.dst + (r.count - r.left) then beatFail c (first + 64 * beat) s else s

def execBeatError (c : ChanId) (beat : Nat) (s : State) : Res State := run .core (beatErrorOp c.val beat) s

/-- R265: the running request has issued its last byte, or has met an error: it completes. -/
def requestEndOp (c : Nat) (s : State) : State :=
  match (chanOf s c).reqs with
  | [] => s
  | r :: _ => if r.err.isSome then chanEnd c 1 s else if r.left = 0 then chanEnd c 0 s else s

def execMoverRequestEnd (c : ChanId) (s : State) : Res State := run .core (requestEndOp c.val) s

end Sys2Proof.Machine
end

