-- ==== Sys2Proof/Machine/LockOps.lean ====
section
/-!
DEFINITION. Sys2Proof/Machine/LockOps.lean: range locks (R306, R307): what each command locks, what completes a command before it asks
for its lock, admission, and what the lock's holder does to the object (R296-R300, R308).
-/
namespace Sys2Proof.Machine
open Reg

/-- The key bytes of a command. -/
def keyOf (k : KvKey) : List Byte := k.bytes.take k.len

/-- The largest object, and the end of a whole-object lock. -/
def objectMax : Nat := 2 ^ 42

/-! ### Extents (R306) -/

/-- R297, R306: a range widened to the whole spans that it touches. -/
def widen (spans : List Span) (lo hi : Nat) : Nat × Nat :=
  let t := spans.filter (fun sp => decide (sp.offset < hi ∧ lo < sp.offset + sp.len))
  (t.foldl (fun acc sp => min acc sp.offset) lo, t.foldl (fun acc sp => max acc (sp.offset + sp.len)) hi)

/-- What a command locks. -/
structure LockReq where
  cmd : Sqe
  ns : Nat
  key : List Byte
  write : Bool
  lo : Nat
  hi : Nat
  deriving DecidableEq, Repr

/-- R306: the extent of a Retrieve. Of an absent object the whole buffer could still be transferred; from beyond the end no byte is. -/
def retrieveExtent (s : State) (ns : Nat) (key : List Byte) (o buf : Nat) : Nat × Nat :=
  match (idxFind s ns key).bind (objOf s) with
  | none => (o, o + buf)
  | some x => widen x.spans o (max o (min (o + buf) x.value.length))

/-- R306: the lock of a command that names a key. -/
def lockReq (s : State) : Instr → Option LockReq
  | .store c k _ _ => some ⟨c, k.nsid, keyOf k, true, 0, objectMax⟩
  | .delete c k => some ⟨c, k.nsid, keyOf k, true, 0, objectMax⟩
  | .appendValue c k _ off _ => some ⟨c, k.nsid, keyOf k, true, off, objectMax⟩
  | .retrieve c k o buf =>
    let e := retrieveExtent s k.nsid (keyOf k) o buf
    some ⟨c, k.nsid, keyOf k, false, e.1, e.2⟩
  | .exist c k => some ⟨c, k.nsid, keyOf k, false, 0, 1⟩
  | .auditObject c k _ _ _ => some ⟨c, k.nsid, keyOf k, false, 0, objectMax⟩
  | _ => none

/-- R306: two locks overlap. -/
def overlaps (ns : Nat) (key : List Byte) (w : Bool) (lo hi ns' : Nat) (key' : List Byte) (w' : Bool) (lo' hi' : Nat) : Bool :=
  decide (ns = ns') && decide (key = key') && (w || w') && decide (lo < hi' ∧ lo' < hi)

def meetsLock (r : LockReq) (l : Lock) : Bool := overlaps r.ns r.key r.write r.lo r.hi l.ns l.key l.write l.lo l.hi
def meetsWaiting (r : LockReq) (w : Waiting) : Bool := overlaps r.ns r.key r.write r.lo r.hi w.ns w.key w.write w.lo w.hi

/-- Some earlier request, granted or waiting, overlaps. -/
def blocked (s : State) (r : LockReq) : Bool := s.obj.locks.any (meetsLock r) || s.obj.waiting.any (meetsWaiting r)

/-- A ticket that no live request has: the first free one from `t` on. Fetches carry it as their 16-bit TAG. -/
def freeTicket (s : State) : Nat → Nat → Nat
  | 0, t => t % 65536
  | n + 1, t =>
    if s.obj.locks.any (fun l => decide (l.ticket = t % 65536)) || s.obj.waiting.any (fun w => decide (w.ticket = t % 65536)) then freeTicket s n (t + 1)
    else t % 65536

/-- Take the next ticket. -/
def takeTicket (s : State) : Nat × State :=
  let t := freeTicket s (s.obj.locks.length + s.obj.waiting.length) s.obj.nextTicket
  (t, { s with obj := { s.obj with nextTicket := (t + 1) % 65536 } })

/-- A lock is released. -/
def unlock (ticket : Nat) (s : State) : State :=
  syncLocks { s with obj := { s.obj with locks := s.obj.locks.filter (fun l => decide (l.ticket ≠ ticket)) } }

def grantLock (ticket : Nat) (r : LockReq) (s : State) : State :=
  syncLocks { s with obj := { s.obj with locks := s.obj.locks ++ [⟨ticket, r.cmd.port.val, r.cmd.qid, r.ns, r.key, r.write, r.lo, r.hi⟩] } }

def waitLock (ticket : Nat) (i : Instr) (num : Nat) (r : LockReq) (s : State) : State :=
  let s := incF qeB QE_LOCK_COUNTS_STALLS s
  syncLocks { s with obj := { s.obj with waiting := s.obj.waiting ++ [⟨ticket, i, num, r.ns, r.key, r.write, r.lo, r.hi⟩] } }

/-! ### Checks at admission (R296, R299, R319, R327) -/

/-- What completes a command that names a key before it asks for its lock. -/
def keyCheck (s : State) (k : KvKey) : Option Nat :=
  if !nsActive s k.nsid then some 0xB
  else if k.len = 0 ∨ 16 < k.len then some 0x86
  else if s.obj.rebuilding then some 0x82
  else none

def admitCheck (s : State) : Instr → Option Nat
  | .store _ k value o =>
    if 2 ^ 24 < value.length then some 0x85
    else if (o.overwriteOnly && o.noOverwrite) || o.compress then some 2
    else keyCheck s k
  | .appendValue _ k _ _ data => if data = [] ∨ 2 ^ 24 < data.length then some 2 else keyCheck s k
  | .auditObject _ k _ len _ => if 65536 < len ∨ len % 4 ≠ 0 then some 2 else keyCheck s k
  | .retrieve _ k _ _ => keyCheck s k
  | .delete _ k => keyCheck s k
  | .exist _ k => keyCheck s k
  | _ => none

/-- R233: the command needs a hash lane. -/
def needsLane : Instr → Bool
  | .store _ _ value _ => decide (value ≠ [])
  | .appendValue _ _ _ _ _ => true
  | .retrieve _ _ _ _ => true
  | .auditObject _ _ _ _ _ => true
  | _ => false

/-! ### What the lock's holder does -/

/-- Count a host write or read command (R415). -/
def countWriteCmd (s : State) : State := { s with obj := { s.obj with writeCmds := s.obj.writeCmds + 1 } }
def countReadCmd (s : State) : State := { s with obj := { s.obj with readCmds := s.obj.readCmds + 1 } }
def countWritten (n : Nat) (s : State) : State := { s with obj := { s.obj with writeBytes := s.obj.writeBytes + n } }

/-- A class takes stores (R226). -/
def classOpen (s : State) (ns : Nat) : Bool := flag s srB (SR_CLASS_0_VALID.ix (ns - 1))

/-- R229: a store that cannot be placed. -/
def placementRefused (c : Sqe) (s : State) : State := complete c 0xC2 0 0 (incF srB SR_COUNTS_C_REFUSED_STORES s)

/-- The present object of a key with its number. -/
def present (s : State) (ns : Nat) (key : List Byte) : Option (Nat × Obj) :=
  match idxFind s ns key with
  | none => none
  | some n => (objOf s n).map (fun o => (n, o))

/-- R308, R324: the commit of a store or an append, with its provenance event, and the delete entries of what it replaced (R212). -/
def storeCommit (c : Sqe) (kind n : Nat) (o : Obj) (before : Option (Nat × Obj)) (offset : Nat) (bytes : List Byte) (s : State) : State :=
  let s := commitKey o.ns o.key before (some (n, o)) s
  let (t, s) := tellerStamp s
  let s := addEvent n ⟨kind, bytes.length, offset, t, s.obj.commit % 2 ^ 32, sha256 bytes⟩ s
  let s := match before with
    | some (i, old) => if i = n then s else journalDelete old t s
    | none => s
  complete c 0 0 0 (countWritten bytes.length (hashCount bytes.length s))

/-- R228: a Store takes its object's number at its admission. -/
def allot (i : Instr) (s : State) : Nat × State :=
  match i with
  | .store _ _ _ _ => (s.obj.nextObj, { s with obj := { s.obj with nextObj := s.obj.nextObj + 1 } })
  | _ => (0, s)

/-- R296: Store, as object number `n`. -/
def storeRun (c : Sqe) (n ns : Nat) (key value : List Byte) (opt : StoreOpts) (s : State) : State :=
  let before := present s ns key
  if opt.noOverwrite && before.isSome then complete c 0x89 0 0 s
  else if opt.overwriteOnly && before.isNone then complete c 0x87 0 0 s
  else if !classOpen s ns then complete c 0xC5 0 0 s
  else if value ≠ [] ∧ enginesOut s = true then complete c 0xC3 0 0 s
  else
    let o := hashSpan (obj0 ns key) value
    match writeStripes n (classK s ns) value.length 0 value.length o s with
    | none => placementRefused c s
    | some (o, s) => storeCommit c 1 n o before 0 value s

/-- The stripes of an object that an append leaves as they are: the full ones with `k` data cells, up to the first other. -/
def keptStripes (k size : Nat) : Nat → List StripeRec → List StripeRec
  | _, [] => []
  | start, r :: rs => if k ≤ r.j ∧ start + r.j * 2 ^ 20 ≤ size then r :: keptStripes k size (start + r.j * 2 ^ 20) rs else []

/-- Bytes in a list of full stripes. -/
def stripesLen (l : List StripeRec) : Nat := l.foldl (fun acc r => acc + r.j * 2 ^ 20) 0

/-- Members of a stripe that is written afresh are no longer to be rebuilt. -/
def dropMissing (sids : List Nat) (s : State) : State :=
  let keep (x : Nat × Nat × Nat) := !sids.contains x.1
  syncRebuild { s with str := { s.str with missing := s.str.missing.filter keep, debt := s.str.debt.filter keep } }

/-- The data cells that hold bytes [lo, hi) of an object: (stripe identifier, member). -/
def cellsOf (o : Obj) (lo hi : Nat) : List (Nat × Nat) :=
  o.stripes.flatMap (fun r =>
    let start := stripeStart o.stripes r.sid
    ((List.range r.j).filter (fun c => decide (start + c * 2 ^ 20 < hi ∧ lo < start + (c + 1) * 2 ^ 20))).map (fun c => (r.sid, c)))

/-- How many members of a stripe can be read, and how many more lie on held ports (R238). -/
def readableMembers (s : State) (sid : Nat) : Nat := (List.range (stripeWidth s sid)).countP (fun m => memberUp s sid m || cellReady s sid m || cellInRsv s sid m)
def heldMembers (s : State) (sid : Nat) : Nat :=
  (List.range (stripeWidth s sid)).countP (fun m => match memberPlace s sid m with | some c => portHeld s (portOfAct c.act) && !cellReady s sid m && !cellInRsv s sid m | none => false)

/-- R237, R238, R242: what keeps a fetch of some stripes from being served: 0 nothing. -/
def fetchStatus (s : State) (need : List (Nat × Nat)) : Nat :=
  let short := (need.map Prod.fst).eraseDups.filter (fun sid => decide (readableMembers s sid < stripeData s sid))
  if short.any (fun sid => decide (stripeData s sid ≤ readableMembers s sid + heldMembers s sid)) then 0xC1
  else if !short.isEmpty then 0x88
  else if enginesOut s && need.any (fun x => !memberUp s x.1 x.2 && !cellReady s x.1 x.2 && !cellInRsv s x.1 x.2) then 0xC3
  else 0

/-- R299: Append Value. A last stripe that is written afresh is read first (R19), from the Pool or by a fetch (R242, R319). -/
def appendRun (c : Sqe) (ns : Nat) (key : List Byte) (create : Bool) (offset : Nat) (data : List Byte) (s : State) : State :=
  let before := present s ns key
  let size := match before with | some (_, o) => o.value.length | none => 0
  if before.isNone && !create then complete c 0x87 0 0 s
  else if offset ≠ size then complete c 0xC6 (size % 2 ^ 32) (size / 2 ^ 32) s
  else if objectMax < offset + data.length then complete c 0xC7 0 0 s
  else if !classOpen s ns then complete c 0xC5 0 0 s
  else if enginesOut s then complete c 0xC3 0 0 s
  else
    let n := match before with | some (i, _) => i | none => s.obj.nextObj
    let s1 := match before with | some _ => s | none => { s with obj := { s.obj with nextObj := n + 1 } }
    let old := match before with | some (_, o) => o | none => obj0 ns key
    let kept := keptStripes (classK s ns) size 0 old.stripes
    let gone := (old.stripes.drop kept.length).map (fun r => r.sid)
    let o := { hashSpan old data with stripes := kept }
    let left := size + data.length - stripesLen kept
    match fetchStatus s (cellsOf old (stripesLen kept) size), writeStripes n (classK s ns) left kept.length left o (dropMissing gone s1) with
    | 0, none => placementRefused c s
    | 0, some (o, s) => storeCommit c 2 n o before offset data s
    | st, _ => complete c st 0 0 s

/-- R298: Delete. -/
def deleteRun (c : Sqe) (ns : Nat) (key : List Byte) (s : State) : State :=
  match present s ns key with
  | none => complete c 0x87 0 0 s
  | some (n, o) =>
    let s := commitKey ns key (some (n, o)) none s
    let (t, s) := tellerStamp s
    complete c 0 0 0 (journalDelete o t s)

/-- R298: Exist. -/
def existRun (c : Sqe) (ns : Nat) (key : List Byte) (s : State) : State := complete c (if (idxFind s ns key).isSome then 0 else 0x87) 0 0 s

/-- A member of the object lies on a held port (R238). -/
def someHeld (s : State) (o : Obj) : Bool :=
  o.stripes.any (fun r => r.places.any (fun p => match p with | some c => portHeld s (portOfAct c.act) | none => false))

/-- R300, R327: Audit Object. -/
def auditRun (c : Sqe) (ns : Nat) (key : List Byte) (repair : Bool) (len : Nat) (x : AuditRead) (s : State) : State :=
  match present s ns key with
  | none => complete c 0x87 0 0 s
  | some (n, o) =>
    if someHeld s o then complete c 0xC1 0 0 s
    else if enginesOut s then complete c 0xC3 0 0 s
    else
      let f := auditOf o x
      let res := auditResult f repair
      let s := hashCount o.value.length (auditApply n f repair s)
      let s := if len = 0 then s else send (.data c ((auditReport n o f res).take len)) s
      complete c 0 res 0 s

/-- R235: the first reads of a fetch: the data members that are not missing, the next parity member for each missing one, and EXTRA more.
A cell that the Pool or the Reservoir holds needs no read (R19). -/
def firstReads (tag sid : Nat) (need : List (Nat × Nat)) (s : State) : State :=
  let here (m : Nat) := cellReady s sid m || cellInRsv s sid m
  let reads (l : List Nat) (s : State) : State := forEach l (askRead tag sid 0) s
  let up := (List.range (stripeData s sid)).filter (fun m => need.contains (sid, m) && memberUp s sid m && !here m)
  let rest := (List.range (stripeData s sid)).filter (fun m => !need.contains (sid, m) && memberUp s sid m && !here m)
  let gap := need.any (fun x => decide (x.1 = sid) && !memberUp s sid x.2 && !here x.2)
  let s := reads up s
  let s := if gap then askMore tag sid 0 (stripeWidth s sid + 1) (reads rest s) else s
  match fetchOf s tag with
  | none => s
  | some f =>
    let left := (List.range (stripeWidth s sid)).filter (fun m => decide (stripeData s sid ≤ m) && memberUp s sid m && !isAsked f sid m 0)
    reads (left.take (if flag s srB SR_RA_ENABLE then rd s srB SR_RA_EXTRA else 0)) s

/-- R235, R254: a fetch begins: its cells are allocated and its members read. -/
def fetchStart (tag : Nat) (c : Sqe) (n offset len : Nat) (need : List (Nat × Nat)) (s : State) : State :=
  let s := { s with str := { s.str with fetches := s.str.fetches ++ [⟨tag, c, n, offset, len, need, [], [], [], [], [], [], []⟩] } }
  let fill (x : Nat × Nat) (s : State) : State := match memberPlace s x.1 x.2 with
    | some p => if cellReady s x.1 x.2 then s else allocFill p n s
    | none => s
  let s := forEach need fill s
  forEach (need.map Prod.fst).eraseDups (fun sid => firstReads tag sid need) s

/-- R297: Retrieve. Its lock stands until its value has been sent. -/
def retrieveRun (ticket : Nat) (c : Sqe) (ns : Nat) (key : List Byte) (offset buf : Nat) (s : State) : State :=
  match present s ns key with
  | none => unlock ticket (complete c 0x87 0 0 s)
  | some (n, o) =>
    if o.value.length < offset then unlock ticket (complete c 2 0 0 s)
    else if o.damaged then unlock ticket (complete c 0xC4 0 0 s)
    else
      let len := min buf (o.value.length - offset)
      let (lo, hi) := widen o.spans offset (offset + len)
      let need := cellsOf o lo hi
      if need.all (fun x => cellReady s x.1 x.2) then
        let touch (x : Nat × Nat) (s : State) : State := match (memberPlace s x.1 x.2).bind (segOf s) with
          | some e => touchSeg e.1 s
          | none => s
        unlock ticket (sendValue c o offset len (forEach need touch (incF poolB POOL_DIR_HITS_HITS s)))
      else
        match fetchStatus s need with
        | 0 => fetchStart ticket c n offset len need (incF poolB POOL_DIR_MISSES_MISSES s)
        | st => unlock ticket (complete c st 0 0 s)

/-- A command that holds its lock runs and releases it. -/
def runLocked (ticket : Nat) (i : Instr) (num : Nat) (s : State) : State :=
  match i with
  | .store c k value o => unlock ticket (storeRun c num k.nsid (keyOf k) value o s)
  | .delete c k => unlock ticket (deleteRun c k.nsid (keyOf k) s)
  | .exist c k => unlock ticket (existRun c k.nsid (keyOf k) s)
  | .appendValue c k create off data => unlock ticket (appendRun c k.nsid (keyOf k) create off data s)
  | .auditObject c k repair len x => unlock ticket (auditRun c k.nsid (keyOf k) repair len x s)
  | .retrieve c k off buf => retrieveRun ticket c k.nsid (keyOf k) off buf s
  | _ => s

/-! ### Admission (R307) -/

/-- The table has no free entry. -/
def lockFull (s : State) : Bool := decide (4096 ≤ s.obj.locks.length + s.obj.waiting.length)

/-- A request that has a place in the table is granted at once or waits. -/
def request (i : Instr) (r : LockReq) (s : State) : State :=
  let (t, s) := takeTicket s
  let (n, s) := allot i s
  if blocked s r then waitLock t i n r s else runLocked t i n (grantLock t r s)

/-- R22, R280: the cells that a store or an append brings, data and parity. -/
def paceCost (s : State) (i : Instr) : Nat :=
  let cells (ns len : Nat) := ceilDiv len (2 ^ 20) + ceilDiv (ceilDiv len (2 ^ 20)) (max 1 (classK s ns)) * rd s srB (SR_CLASS_0_M.ix (ns - 1))
  match i with
  | .store _ k value _ => cells k.nsid value.length
  | .appendValue _ k _ _ data => cells k.nsid data.length
  | _ => 0

/-- R22, R280: pacing holds a store: STAGING_LOW is set, and fewer cells have been destaged since than it brings (DESIGN CHOICE of the
measure, notes/assumptions/34.md). -/
def paced (s : State) (i : Instr) : Bool := flag s rsvB RSV_STATUS_STAGING_LOW && decide (s.obj.paceCells < paceCost s i)

/-- The room that destaging has made is used up by what is admitted. -/
def payPace (i : Instr) (s : State) : State := { s with obj := { s.obj with paceCells := s.obj.paceCells - paceCost s i } }

/-- What keeps a command from being admitted now: a full lock table (R307), no hash lane (R233), pacing (R22). -/
def notYet (s : State) (i : Instr) : Bool := lockFull s || (needsLane i && lanesOut s) || paced s i

/-- A command that is not admitted yet is tried again. -/
def retryOne (i : Instr) (s : State) : State :=
  if notYet s i then s
  else match lockReq s i with
    | none => s
    | some r => request i r (payPace i { s with obj := { s.obj with unadmitted := s.obj.unadmitted.erase i } })

def retryHeld (s : State) : State := forEach s.obj.unadmitted retryOne s

/-- R22, R280: STAGING_LOW may have changed, or one more cell has been destaged: while it is set a cell makes room for one; then what waits is
tried again. -/
def paceStep (cells : Nat) (s : State) : State :=
  let n := if flag s rsvB RSV_STATUS_STAGING_LOW then s.obj.paceCells + cells else 0
  retryHeld { s with obj := { s.obj with paceCells := n } }

/-- R307, R22: admission of a command that names a key. With the table full, without a hash lane or while pacing holds it, it is not admitted
yet. -/
def holdOrRun (i : Instr) (s : State) : State :=
  match lockReq s i with
  | none => s
  | some r =>
    match admitCheck s i with
    | some st => complete r.cmd st 0 0 s
    | none =>
      let s := retryHeld s
      if notYet s i then
        when (lockFull s) (incF qeB QE_LOCK_COUNTS_FULL_WAITS) { s with obj := { s.obj with unadmitted := s.obj.unadmitted ++ [i] } }
      else request i r (payPace i s)

end Sys2Proof.Machine
end

