-- ==== Sys2Proof/Machine/Pool.lean ====
section
/-!
DEFINITION. Sys2Proof/Machine/Pool.lean: Pool accesses, the patrol scrub, the error log and the directory's events
(12_pool_and_movers.md, R244-R258).
-/
namespace Sys2Proof.Machine
open Reg

/-- R247, R249: the Pool is in the core and answers once it is trained (POOL_STATUS.READY). -/
def poolAccess (x : PoolAcc) (s : State) : State :=
  if flag s poolB POOL_STATUS_READY then
    let (r, s) := poolAccessOp x s
    send (.pool x.addr (poolLane x.addr) r) s
  else s

def execPoolAccess (acc : PoolAcc) (s : State) : Res State := run .core (poolAccess acc) s

/-- R249: the scrub reads the codewords of an address range: those that flip now and those that stay poisoned show an error. -/
def scrubRange (lo hi : Nat) (flips : List (Nat × List Nat)) (s : State) : State :=
  let inside (a : Nat) := decide (lo ≤ a ∧ a < hi)
  let look (addr : Nat) (f : List Nat) (s : State) : State := (poolAccessOp ⟨addr, false, 0, [], f, addr⟩ s).2
  let now_ := flips.filter (fun f => inside f.1)
  let poisoned := (s.pool.poison.map (fun e => e.1 * 16)).filter (fun a => inside a && !now_.any (fun f => decide (f.1 / 16 * 16 = a)))
  forEach poisoned (fun a s => look a [] s) (forEach now_ (fun f s => look f.1 f.2 s) s)

/-- R249: the patrol scrub goes on to an address. A pass begins SCRUB_HOURS after the one before it and ends at the top of the Pool. -/
def scrubOp (upTo : Nat) (flips : List (Nat × List Nat)) (s : State) : State :=
  if flag s poolB POOL_CTL_SCRUB_EN && flag s poolB POOL_STATUS_READY then
    let pos := s.pool.scrubPos
    let s := if pos ≠ 0 ∨ s.pool.scrubFrom = 0 then s else reach (s.pool.scrubFrom + secs (3600 * rd s poolB POOL_CTL_SCRUB_HOURS)) s
    let from_ := if pos = 0 then now s else s.pool.scrubFrom
    let s := scrubRange pos (min upTo (2 ^ 36)) flips s
    let done := decide (2 ^ 36 ≤ upTo)
    setF poolB POOL_STATUS_SCRUBBING (!done) { s with pool := { s.pool with scrubPos := if done then 0 else max pos upTo, scrubFrom := from_ } }
  else s

def execPatrolScrub (upTo : Nat) (flips : List (Nat × List Nat)) (s : State) : Res State := run .core (scrubOp upTo flips) s

/-- R248: the log is empty. -/
def poolLogEmpty (s : State) : State :=
  wr poolB POOL_STATUS_LOG_USED 0 (keepRegs (fun k => !decide (poolB + 0x100 ≤ keyAddr k ∧ keyAddr k < poolB + 0x300)) s)

/-- POOL_CTL written. -/
def poolCtlOp (v : Nat) (s : State) : State :=
  let s := plainWrite (poolB + 4) v s
  when (bitOf v 16) poolLogEmpty s

def execPoolLogClear (p : Path) (s : State) : Res State :=
  let v := rd s poolB POOL_CTL_SCRUB_EN + rd s poolB POOL_CTL_SCRUB_HOURS * 2 ^ 8 + 2 ^ 16
  runWrite p (poolB + 4) v (poolCtlOp v) s

def execDrainEnd (seg : SegId) (s : State) : Res State := run .core (drainEndOp seg) s

def execFillEnd (seg : SegId) (s : State) : Res State := run .core (fillEndOp seg) s

/-- R253, R22: a destaged cell makes room for admission while it is paced. -/
def destagePaced (k : Nat) (s : State) : State :=
  let was := match tfind s.pool.segs k with | some g => newCell g || s.rsv.staged.any (fun e => decide (e.1 = cellKey (segPlace g))) | none => false
  when was (paceStep 1) (destageOp k s)

def execDestageVerified (seg : SegId) (s : State) : Res State := run .core (destagePaced seg) s

/-- R256: no cell has been allocated on the actuator for 1 s. -/
def seqOffOp (a : Nat) (s : State) : State :=
  if seqOn s a then seqOff a (reach ((tget seqDet0 s.pool.dets a).at_ + secs 1) s) else s

def execSequentialDetectorOff (a : ActId) (s : State) : Res State := run .core (seqOffOp a.val) s

end Sys2Proof.Machine
end

