-- ==== Sys2Proof/Machine/IndexOps.lean ====
section
/-!
DEFINITION. Sys2Proof/Machine/IndexOps.lean: the object index built from the journals on media (R224, R228) and the provenance sectors
(R326), at a start without a valid mirror and when the Reservoir leaves service without reads (R282).
-/
namespace Sys2Proof.Machine
open Reg

/-! ### The journals (R211, R224) -/

/-- A journal entry as it is read, with the actuator, the reach and its OPEN_TIME. -/
structure Read where
  act : Nat
  reach : Nat
  openTime : Nat
  entry : JEntry
  deriving DecidableEq, Repr

/-- R224: the entries of every reach that is Open or Filled, written or still pending. A Sealed reach counts as Filled, since Sealed state is
not on media. -/
def journalReads (s : State) : List Read :=
  let of_ (t : Table (List JEntry)) : List Read := t.flatMap (fun e =>
    let x := ledEntry s (e.1 / 10240) (e.1 % 10240)
    if 1 ≤ x.state ∧ x.state ≤ 3 then e.2.map (fun j => ⟨e.1 / 10240, e.1 % 10240, x.openTime, j⟩) else [])
  of_ s.led.chains ++ of_ s.led.journals

/-- The place that an entry records. -/
def Read.place (x : Read) : CellPlace := ⟨x.act, x.reach, x.entry.a⟩

/-- The later of two stamps. -/
def stampMax (a b : Stamp) : Stamp := if stampLt a b then b else a

/-- The latest stamp of the entries that satisfy `p`. -/
def latest (l : List Read) (p : JEntry → Bool) : Stamp :=
  (l.filter (fun x => p x.entry)).foldl (fun t x => stampMax t x.entry.stamp) ⟨0, 0, 0⟩

/-- R224: the copy of a member that the journals give: of two, the one in the reach with the later OPEN_TIME. -/
def journaledPlace (l : List Read) (sid m : Nat) : Option CellPlace :=
  let mine (x : Read) := decide (x.entry.kind = 1 ∧ x.entry.sid = sid) && decide (x.entry.geom.getD 2 0 = m)
  (l.filter mine).foldl (fun (acc : Option (Nat × CellPlace)) x => match acc with
    | some (t, _) => if t ≤ x.openTime then some (x.openTime, x.place) else acc
    | none => some (x.openTime, x.place)) none |>.map Prod.snd

/-- The cell at a place is held by the Pool and not yet on media. -/
def heldNew (s : State) (c : CellPlace) : Bool := match segOf s c with | some e => newCell e.2 | none => false

/-- The place of a member after the rebuild: what the journals give, or the place of a cell that the Pool holds. -/
def foundPlace (s : State) (l : List Read) (r : StripeRec) (m : Nat) : Option CellPlace :=
  (journaledPlace l r.sid m).orElse (fun _ => (r.places.getD m none).filter (heldNew s))

/-- A stripe's record after the rebuild. -/
def foundStripe (s : State) (l : List Read) (r : StripeRec) : StripeRec := { r with places := (List.range (r.j + r.m)).map (foundPlace s l r) }

/-- R224, R228: an object is present: its key has no later delete, and every stripe has at least j members. -/
def foundPresent (s : State) (l : List Read) (o : Obj) : Bool :=
  let stored := latest l (fun j => decide (j.kind = 1 ∧ j.key = o.key))
  let stored := if o.stripes.any (fun r => r.places.any (fun p => p.any (heldNew s))) || o.stripes.isEmpty then stampMax stored (storeStamp o) else stored
  !stampLt stored (latest l (fun j => decide (j.kind = 3 ∧ j.key = o.key)))
    && o.stripes.all (fun r => decide (r.j ≤ (foundStripe s l r).places.countP Option.isSome))

/-! ### Provenance sectors (R325, R326) -/

/-- A provenance sector that can be read and whose CRC is right. -/
def provRead (s : State) (unreadable : List CellPlace) (c : CellPlace) : Option (List Byte) :=
  if unreadable.contains c then none
  else match tfind s.led.provData (cellKey c) with
    | some b => if crc32c (b.take 0xFC ++ (b.drop 0x100).take (64 * leAt b 0x53 1)) = leAt b 0xFC 4 then some b else none
    | none => none

/-- The places of an object's provenance sectors under one stamp: its copies. -/
def provCopies (l : List Read) (n : Nat) (t : Stamp) : List CellPlace :=
  (l.filter (fun x => decide (x.entry.kind = 5 ∧ x.entry.sid = n * 2 ^ 24 ∧ x.entry.stamp = t))).map Read.place

/-- The copies of the sector that lies at a place. -/
def copiesOf (l : List Read) (n : Nat) (c : CellPlace) : List CellPlace :=
  match l.find? (fun x => decide (x.entry.kind = 5 ∧ x.place = c)) with
  | some x => c :: provCopies l n x.entry.stamp
  | none => [c]

/-- R325: PREV of a sector. -/
def prevOf (b : List Byte) : Option CellPlace := if leAt b 0x54 1 = 0xFF then none else some ⟨leAt b 0x54 1, leAt b 0x56 2, leAt b 0x58 4⟩

/-- R326: the events along the chain, oldest first; none where both copies of a sector fail. -/
def chainEvents (s : State) (unreadable : List CellPlace) (l : List Read) (n : Nat) : Nat → List Byte → Option (List ProvEvent)
  | 0, _ => none
  | fuel + 1, b =>
    let here := eventsFrom b (leAt b 0x53 1) 0x100
    match prevOf b with
    | none => some here
    | some c => match (copiesOf l n c).findSome? (provRead s unreadable) with
      | none => none
      | some p => (chainEvents s unreadable l n fuel p).map (· ++ here)

/-- R326: an object takes its hash, midstate and spans from its latest provenance sector, of which either copy serves; where both fail it is
damaged. Its copies' places come from the journals. -/
def provRebuild (s : State) (unreadable : List CellPlace) (l : List Read) (n : Nat) (o : Obj) : Option Obj :=
  let copies := provCopies l n (latest l (fun j => decide (j.kind = 5 ∧ j.sid = n * 2 ^ 24)))
  match copies.findSome? (provRead s unreadable) with
  | none => none
  | some b => match chainEvents s unreadable l n (l.length + 1) b with
    | none => none
    | some ev =>
      let len := leAt b 0x80 8
      some { o with
        ns := leAt b 6 1, key := (b.drop 8).take (leAt b 7 1), spans := spansOf ev, hash := (b.drop 0x30).take 32
        midState := (List.range 8).map (fun i => leAt b (0x60 + 4 * i) 4), midLen := len, midPending := (b.drop 0x88).take (len % 64)
        events := ev, damaged := bitOf (leAt b 0x52 1) 0, provs := copies, prev := prevOf b }

/-! ### The index -/

/-- An object of the rebuilt index: its record, and whether both copies of its provenance failed; none where it is absent. The record of an
object names what its cells hold. -/
def foundObject (s : State) (unreadable : List CellPlace) (l : List Read) (e : Nat × Obj) : Option (Nat × Obj × Bool) :=
  if foundPresent s l e.2 then
    let o := { e.2 with stripes := e.2.stripes.map (foundStripe s l) }
    match provRebuild s unreadable l e.1 o with
    | some o => some (e.1, o, false)
    | none => some (e.1, o, true)
  else none

/-- R224, R228, R326: the object index is built from the journals and the provenance sectors. Members that the journals do not give are
missing; the counter of object numbers restarts above the highest found; nothing is left to undo. -/
def indexRebuild (unreadable : List CellPlace) (s : State) : State :=
  let l := journalReads s
  let found := s.obj.objs.filterMap (foundObject s unreadable l)
  let objs : Table Obj := found.map (fun f => (f.1, f.2.1))
  let index := objs.foldl (fun acc e => idxIns ⟨e.2.ns, e.2.key, e.1⟩ acc) []
  let top := (l.map (fun (x : Read) => x.entry.sid / 2 ^ 24) ++ objs.map Prod.fst).foldl max 0
  let debt := objs.flatMap (fun e => e.2.stripes.flatMap (fun r => ((List.range (r.j + r.m)).filter (fun m => (r.places.getD m none).isNone)).map
    (fun m => (r.sid, m, preferred (hdaList s (e.2.ns - 1)) e.1 (r.sid % 2 ^ 24) m))))
  let s := { s with obj := { s.obj with objs := objs, index := index, undo := [], durable := s.obj.commit, nextObj := top + 1 } }
  let s := syncRebuild { s with str := { s.str with debt := addNew s.str.debt debt } }
  forEach (found.filter (fun f => f.2.2)) (fun f s => markDamaged f.1 s) s

end Sys2Proof.Machine
end

