-- ==== Sys2Proof/Machine/Reservoir.lean ====
section
/-!
DEFINITION. Sys2Proof/Machine/Reservoir.lean: the Reservoir's events (13_reservoir.md, R268-R285).
-/
namespace Sys2Proof.Machine
open Reg

/-! ### Bands (R270) -/

/-- The kind of band that takes a TU of a partition, by the map key. -/
def kindOf (key : Nat) : Nat :=
  if 2 ^ 40 ≤ key then 3
  else match tuPartition key with
    | some 0 => 0
    | some 1 => 1
    | _ => 2

/-- R269: a TU is rebuilt from the die parity of its band and written again in an open band of its partition. -/
def parityRebuild (key k : Nat) (b : Band) (e : Nat) (s : State) : State :=
  startTu (kindOf key) key (parityTu s k b e) (incF rsvB RSV_COUNTS_A_PARITY_REBUILDS (wr rsvB RSV_STATUS_PARITY_USED 1 s))

/-- The map keys whose entry lies in one of a list of blocks. -/
def keysIn (s : State) (blocks : List Nat) : List (Nat × Nat) := s.rsv.map.filter (fun e => blocks.contains (entryBlock e.2))

/-- R270: a fully programmed band is closed: TUs above VERIFY_BITS are rebuilt and written again, the band is recorded as verified, its
parity released. -/
def bandCloseOp (k : Nat) (bits : List (Nat × Nat)) (s : State) : State :=
  match tfind s.rsv.bands k with
  | none => s
  | some b =>
    if b.isOpen && decide (b.next = bandCap b) && rsvTakes s then
      let s := forEach (bits.filter (fun x => decide (rd s rsvB RSV_READ_VERIFY_BITS < x.2))) (fun x s =>
        match tfind s.rsv.map x.1 with
        | some e => when (b.blocks.contains (entryBlock e)) (parityRebuild x.1 k b e) s
        | none => s) { s with rsv := { s.rsv with bands := tins s.rsv.bands k { b with isOpen := false } } }
      journalCommit (modRsv (fun r => { r with bands := tins r.bands k { b with isOpen := false, verified := true, parity := false }, parity := parityDrop k r.parity }) s)
    else s

def execBandClose (band : Nat) (bits : List (Nat × Nat)) (s : State) : Res State := run .core (bandCloseOp band bits) s

/-! ### Reads (R275, R276) -/

/-- R275: the temperature part of the threshold set. -/
def tempBin (t : Int) : Nat := if t < 10 then 0 else if 70 ≤ t then 7 else (t / 10).toNat

/-- R275: the age part of the threshold set. -/
def ageBin (age : Nat) : Nat := [3600, 86400, 604800, 2592000, 7862400, 15724800, 31536000].countP (fun x => decide (x ≤ age))

/-- R275: the set of attempt `i` on a block. -/
def threshold (s : State) (blk : BlkEntry) (i : Nat) : Nat :=
  let tb := tempBin blk.temp
  let ab := ageBin (now s / 2 ^ 24 - blk.programTime)
  if i = 0 then (if blk.hint = 0xFF then 8 * tb + ab else blk.hint) else 8 * tb + (ab + i) % 8

/-- The first attempt that succeeds. -/
def firstGood : Nat → List (Option Nat) → Option Nat
  | _, [] => none
  | i, some _ :: _ => some i
  | i, none :: t => firstGood (i + 1) t

/-- R275: the page of an entry is read with the levels of a threshold set. -/
def pageRead (e q : Nat) : State → State := fun s =>
  send (.page (e / 2 ^ 26) (e / 2 ^ 12 % 2 ^ 14) (e / 4 % 2 ^ 10) (rd s rsvB (RSV_VT_SET_0_LEVELS_1_4.ix q)) (rd s rsvB (RSV_VT_SET_4_LEVELS_5_7.ix q))) s

def setHint (b h : Nat) (s : State) : State := modRsv (fun r => { r with blocks := tmod blkEntry0 r.blocks b (fun x => { x with hint := h }) }) s

/-- The staged or clean cell that a TU belongs to, as its key. -/
def cellOfTu (cells : List (Nat × Nat)) (u : Nat) : Option Nat :=
  match cells.find? (fun c => decide (c.2 ≤ u ∧ u < c.2 + 256)) with
  | some c => some c.1
  | none => none

/-- The place that a cell's number names. -/
def keyPlace (k : Nat) : CellPlace := ⟨k / 2 ^ 20 / 10240, k / 2 ^ 20 % 10240, k % 2 ^ 20⟩

/-- R276 case 3: a staging TU is recovered from the other members of its stripe, or its object is damaged. -/
def stagedLost (key u : Nat) (s : State) : State :=
  match (membersOn s (fun p => decide (p = keyPlace key))).head? with
  | none => s
  | some (sid, m) => match stripeOf s sid with
    | none => s
    | some r =>
      let good := (List.range (r.j + r.m)).countP (fun i => decide (i ≠ m) && (memberUp s sid i || cellReady s sid i))
      if r.j ≤ good then
        let b := placedBytes s (keyPlace key)
        let base := (s.rsv.staged.find? (fun c => decide (c.1 = key))).elim u Prod.snd
        startTu 0 u ((b.drop (4096 * (u - base))).take 4096) s
      else markDamaged (sid / 2 ^ 24) s

/-- R276: a TU that no attempt read is recovered in the first way that applies. -/
def tuRecover (u e : Nat) (s : State) : State :=
  let s := incF rsvB RSV_COUNTS_B_UNCORRECTABLE (wr rsvB RSV_STATUS_UE_SEEN 1 s)
  match s.rsv.bands.find? (fun b => b.2.parity && b.2.blocks.contains (entryBlock e)) with
  | some (k, b) => parityRebuild u k b e s
  | none =>
    let s := rsvWarn RSV_EVENTS_UE_CLOSED 8 (u % 2 ^ 32) s
    match tuPartition u with
    | some 0 => match cellOfTu s.rsv.staged u with
      | some key => stagedLost key u s
      | none => s
    | some 1 => match cellOfTu s.rsv.clean u with
      | some key =>
        let base := (s.rsv.clean.find? (fun c => decide (c.1 = key))).elim u Prod.snd
        syncSpace (modRsv (fun r => { r with clean := r.clean.filter (fun c => decide (c.1 ≠ key)), cleanFree := r.cleanFree + 1 }) (dropCell base s))
      | none => s
    | _ => match tuBytes s (copyB u) with
      | some b => startTu 2 u b s
      | none => s

/-- R275: a TU is read with one attempt per threshold set, up to RETRY_STEPS retries. -/
def tuReadOp (u : Nat) (attempts : List (Option Nat)) (s : State) : State :=
  match tfind s.rsv.map u with
  | none => s
  | some e =>
    if rsvServes s then
      let b := entryBlock e
      let blk := tget blkEntry0 s.rsv.blocks b
      let tries := attempts.take (1 + rd s rsvB RSV_READ_RETRY_STEPS)
      let good := firstGood 0 tries
      let s := forEach (List.range (good.elim tries.length (· + 1))) (fun i => pageRead e (threshold s blk i)) s
      match good with
      | some 0 => s
      | some i => incF rsvB RSV_COUNTS_A_RETRIES_OK (setHint b (threshold s blk i) s)
      | none => tuRecover u e (when (decide (blk.hint ≠ 0xFF)) (setHint b 0xFF) s)
    else s

def execTuRead (tu : Nat) (attempts : List (Option Nat)) (s : State) : Res State := run .core (tuReadOp tu attempts) s

/-! ### Garbage collection (R277-R279) -/

/-- RSV_CTL.GC_HIGH as it acts. -/
def gcHigh (s : State) : Nat := max (rd s rsvB RSV_CTL_GC_LOW + 1) (rd s rsvB RSV_CTL_GC_HIGH)

/-- Verified bands that may be victims. -/
def victims (s : State) : List (Nat × Band) := s.rsv.bands.filter (fun b => b.2.verified && !b.2.erasePending)

def validTus (s : State) (b : Band) : Nat := (keysIn s b.blocks).length

def meanErases (s : State) (b : Band) : Nat :=
  b.blocks.foldl (fun acc x => acc + (tget blkEntry0 s.rsv.blocks x).erases) 0 * 2 ^ 16 / max 1 b.blocks.length

/-- The band of a list with the least measure, the lowest number among equals. -/
def leastBand (f : Band → Nat) : List (Nat × Band) → Option (Nat × Band)
  | [] => none
  | b :: t => match leastBand f t with
    | none => some b
    | some x => if f b.2 ≤ f x.2 then some b else some x

/-- R277: the next victim: the fewest valid TUs, or for every WL_INTERVAL-th the lowest mean erase count. -/
def gcVictim (s : State) : Option (Nat × Band) :=
  if (s.rsv.victims + 1) % max 1 (rd s rsvB RSV_CTL_WL_INTERVAL) = 0 then leastBand (meanErases s) (victims s)
  else leastBand (validTus s) (victims s)

/-- R277: copy one TU of the victim into a collection band, in place of a copy that failed; the map still names the old place. -/
def gcCopy (e : Nat × Nat) (s : State) : State :=
  match tfind s.rsv.tus e.2 with
  | none => s
  | some b => match programRaw 4 b s with
    | (none, s) => s
    | (some p, s) => modRsv (fun r => match r.gc with
      | some g => { r with gc := some { g with copies := g.copies.filter (fun c => decide (c.1 ≠ e.1)) ++ [(e.1, e.2, p)] } }
      | none => r) s

/-- R279: a TU of the victim that is uncorrectable is recovered first (R276); one that nothing recovers is unmapped. -/
def gcLost (u : Nat) (s : State) : State :=
  match tfind s.rsv.map u with
  | none => s
  | some e =>
    let s := tuRecover u e s
    if tfind s.rsv.map u = some e then modRsv (fun r => { r with discards := r.discards ++ [u], tus := tdel r.tus e }) s else s

/-- R277: a copy whose code corrected more than VERIFY_BITS bits is copied again, one listing per verification. -/
def gcVerify (x : Nat × Nat) (s : State) : State :=
  match s.rsv.gc.bind (fun g => g.copies.find? (fun c => decide (c.1 = x.1))) with
  | some c => when (decide (rd s rsvB RSV_READ_VERIFY_BITS < x.2)) (gcCopy (c.1, c.2.1)) s
  | none => s

/-- R277: collection starts on a victim: its uncorrectable TUs `lost` are recovered, its valid TUs copied, and the copies verified with the
corrected bits that `bits` reports. -/
def gcStart (bits : List (Nat × Nat)) (lost : List Nat) (s : State) : State :=
  let low := s.rsv.freeBands < rd s rsvB RSV_CTL_GC_LOW
  let going := flag s rsvB RSV_STATUS_GC_ACTIVE = true ∧ s.rsv.freeBands < gcHigh s
  if rsvTakes s = true ∧ s.rsv.gc = none ∧ (low ∨ going) then
    match gcVictim s with
    | none => s
    | some (k, b) =>
      let s := wr rsvB RSV_STATUS_GC_ACTIVE 1 s
      let s := modRsv (fun r => { r with gc := some ⟨k, [], false⟩, victims := r.victims + 1 }) s
      let s := forEach (((keysIn s b.blocks).map Prod.fst).filter lost.contains) gcLost s
      let live := (keysIn s b.blocks).filter (fun e => !s.rsv.discards.contains (e.1 % 2 ^ 40))
      forEach bits gcVerify (forEach live gcCopy s)
  else s

def execGarbageCollection (bits : List (Nat × Nat)) (lost : List Nat) (s : State) : Res State := run .core (gcStart bits lost) s

/-- A block is retired for good (R278, R279, R283). -/
def retireBlock (b : Nat) (s : State) : State :=
  let s := modRsv (fun r => { r with blocks := tmod blkEntry0 r.blocks b (fun x => { x with retired := true }), spare := r.spare - 1 }) s
  incF rsvB RSV_COUNTS_C_BLOCKS_RETIRED s

/-- R277, R279, R283: erase one block of the victim: its bytes are gone, its hint is clear; one that fails is retired, one of a failed die
is left. -/
def eraseBlock (failed : List Nat) (b : Nat) (s : State) : State :=
  if dieFailed s (b / 10928) then s
  else if failed.contains b then retireBlock b (incF rsvB RSV_COUNTS_C_ERASE_FAILS s)
  else modRsv (fun r => { r with
    blocks := tmod blkEntry0 r.blocks b (fun x => { x with erases := x.erases + 1, hint := 0xFF }), tus := r.tus.filter (fun e => decide (entryBlock e.1 ≠ b))
    dropped := r.dropped.filter (fun e => decide (entryBlock e.2 ≠ b)) }) s

/-- R277: the journal record of the map update is programmed, then the victim is erased and its blocks are free. -/
def gcEraseOp (failed : List Nat) (s : State) : State :=
  match s.rsv.gc with
  | none => s
  | some g => match tfind s.rsv.bands g.victim with
    | none => modRsv (fun r => { r with gc := none }) s
    | some b =>
      if rsvUp s then
        let s := if g.mapped then s else journalCommit s
        let s := forEach b.blocks (eraseBlock failed) s
        let s := modRsv (fun r => { r with bands := tdel r.bands g.victim, freeBands := r.freeBands + 1, gc := none }) s
        let s := when (decide (gcHigh s ≤ s.rsv.freeBands)) (wr rsvB RSV_STATUS_GC_ACTIVE 0) s
        rsvHealth s
      else s

def execGcErase (failed : List Nat) (s : State) : Res State := run .core (gcEraseOp failed) s

/-- R279: the substitute's block in an entry. -/
def moveEntry (old new : Nat) (e : Nat) : Nat :=
  if entryBlock e = old then e % 2 ^ 12 + new % 10928 * 2 ^ 12 + new / 10928 * 2 ^ 26 else e

/-- R279: a block of an open band fails to program: it is retired and its TUs are programmed again into another block of its die. -/
def programFailOp (b : Nat) (s : State) : State :=
  match s.rsv.bands.find? (fun e => e.2.isOpen && e.2.blocks.contains b) with
  | none => s
  | some (k, d) =>
    let s := incF rsvB RSV_COUNTS_B_PROGRAM_FAILS (wr rsvB RSV_EVENTS_PROGRAM_FAIL 1 s)
    let s := retireBlock b s
    match freeBlock s (b / 10928) with
    | none => rsvHealth s
    | some x =>
      let mv := moveEntry b x
      rsvHealth (modRsv (fun r => { r with
        bands := tins r.bands k { d with blocks := d.blocks.map (fun y => if y = b then x else y) }
        map := r.map.map (fun e : Nat × Nat => (e.1, mv e.2))
        tus := r.tus.foldl (fun t e => tins t (mv e.1) e.2) r.tus
        unprogrammed := r.unprogrammed.map (fun e => (e.1, mv e.2))
        gc := r.gc.map (fun g => { g with copies := g.copies.map (fun c => (c.1, c.2.1, mv c.2.2)) }) }) s)

def execProgramFail (block : Nat) (s : State) : Res State := run .core (programFailOp block) s

/-! ### Discards (R274) -/

/-- R274: discard a range of TUs, up to the end of its partition. -/
def discardRange (u n : Nat) (s : State) : State :=
  match tuPartition u with
  | none => s
  | some k =>
    let top := min (u + n) (partitionEnd k)
    modRsv (fun r => { r with discards := r.discards ++ (r.map.filter (fun e => decide (u ≤ e.1 ∧ e.1 < top))).map Prod.fst }) s

/-- RSV_DISCARD_GO written on a path: each Teller and the Bursar has its own copy of the discard registers; other paths have none. -/
def discardOp (p : Path) (v : Nat) (s : State) : State :=
  match p with
  | .teller _ | .bursar =>
    if bitOf v 0 then
      discardRange (copyGet s p (rsvB + 0x60) + bitsOf (copyGet s p (rsvB + 0x64)) 0 4 * 2 ^ 32) (copyGet s p (rsvB + 0x68)) s
    else s
  | _ => s

def execRsvDiscardGo (p : Path) (s : State) : Res State := runWrite p (rsvB + 0x6C) 1 (discardOp p 1) s

/-! ### Service, temperature and space -/

/-- R282: the Reservoir leaves service. Without reads the mirror and the staging copies are gone, and the index is built in the Pool from the
journals on media. -/
def rsvLeaves (readable : Bool) (unreadable : List CellPlace) (s : State) : State :=
  let s := rsvOut readable s
  if readable then s
  else indexRebuild unreadable { s with led := { s.led with mirror := { s.led.mirror with valid := false } } }

/-- R284: a die leaves service. -/
def dieLost (d : Nat) (s : State) : State :=
  if dieFailed s d then s
  else rsvWarn RSV_EVENTS_DIE_LOST 7 d (showDies (modRsv (fun r => { r with deadDies := r.deadDies ++ [d] }) s))

/-- R282: a die group has fewer than 12 dies in service. -/
def groupShort (s : State) : Bool := (List.range 4).any (fun g => decide ((groupDies g).countP (fun d => !dieFailed s d) < 12))

/-- No band of some kind can be formed (R282): no free band, or no free block on a die in service. -/
def noBand (s : State) : Bool := decide (s.rsv.freeBands = 0) || (List.range 4).any (fun g => (groupDies g).all (fun d => dieFailed s d || (freeBlock s d).isNone))

/-- R282: what the NAND reports, and whether the Reservoir leaves service for it. The failed replay is RESERVOIR_READY's. -/
def rsvCause (c : RsvCause) (readable : Bool) (unreadable : List CellPlace) (s : State) : State :=
  let started := flag s rsvB RSV_STATUS_READY
  match c with
  | .die d => let s := dieLost d.val s; when (started && groupShort s) (rsvLeaves readable unreadable) s
  | .band => when (started && noBand s) (rsvLeaves readable unreadable) s
  | .journal => when started (rsvLeaves readable unreadable) s

def execReservoirLeavesService (c : RsvCause) (readable : Bool) (unreadable : List CellPlace) (s : State) : Res State :=
  run .core (rsvCause c readable unreadable) s

/-- The hottest die known. -/
def hottest (s : State) : Int := s.rsv.dieTemps.foldl (fun acc e => if acc < e.2 then e.2 else acc) (-128)

/-- R284, R285: a die reports a temperature. -/
def throttleOp (die : Nat) (t : Int) (s : State) : State :=
  let s := modRsv (fun r => { r with dieTemps := tins r.dieTemps die t }) s
  let hot := hottest s
  let old := ofBits 8 (rd s rsvB RSV_HEALTH_TEMP_MAX)
  let warn : Int := rd s rsvB RSV_WARN_TEMP_WARN
  let s := tempTrack (wr rsvB RSV_HEALTH_TEMP_MAX (fitBits 8 hot) s)
  let s := when (decide (old < warn ∧ warn ≤ hot)) (rsvWarn RSV_EVENTS_TEMP_HIGH 6 (toBits 8 hot)) s
  let limit : Int := rd s rsvB RSV_READ_THROTTLE_C
  if limit ≤ hot then wr rsvB RSV_STATUS_THROTTLED 1 s
  else if hot ≤ limit - 5 then wr rsvB RSV_STATUS_THROTTLED 0 s
  else s

def execThrottle (die : Fin 64) (tempC : Int) (s : State) : Res State := run .core (throttleOp die.val tempC) s

/-- RSV_READ written: a lower THROTTLE_C may throttle at once (R285). -/
def rsvReadOp (v : Nat) (s : State) : State :=
  let s := plainWrite (rsvB + 0x14) v s
  when (!s.rsv.dieTemps.isEmpty && decide ((rd s rsvB RSV_READ_THROTTLE_C : Int) ≤ hottest s)) (wr rsvB RSV_STATUS_THROTTLED 1) s

/-- RSV_PACE written: STAGING_LOW follows the new limits (R280). -/
def rsvPaceOp (v : Nat) (s : State) : State :=
  let s := plainWrite (rsvB + 0xC) v s
  when (flag s rsvB RSV_STATUS_READY) (fun s => paceStep 0 (syncSpace s)) s

/-- R285: every die is at least 5 °C below THROTTLE_C; how far below, the event does not say. -/
def throttleEndOp (s : State) : State :=
  if flag s rsvB RSV_STATUS_THROTTLED then
    let top : Int := (rd s rsvB RSV_READ_THROTTLE_C : Int) - 5
    let (f, s) := takeFree s
    let hot := top - (f % (top + 129).toNat : Nat)
    let s := modRsv (fun r => { r with dieTemps := r.dieTemps.map (fun e : Nat × Int => (e.1, min e.2 hot)) }) s
    tempTrack (wr rsvB RSV_HEALTH_TEMP_MAX (toBits 8 hot) (wr rsvB RSV_STATUS_THROTTLED 0 s))
  else s

def execThrottleEnd (s : State) : Res State := run .core throttleEndOp s

/-- R280: below STAGE_PACE_GIB of free staging space admission is paced. -/
def stagingLowOp (s : State) : State := paceStep 0 (syncSpace s)

def execStagingLow (s : State) : Res State := run .core stagingLowOp s

/-- R281, R282, R435: the Reservoir's start ends. Blocks marked erase pending are erased again; Dirty segments are offered. A start that
fails takes it out of service without reads (R282); in Starting the index is then built before the start completes. -/
def rsvReadyOp (ok : Bool) (s : State) : State :=
  if flag s rsvB RSV_STATUS_READY || underReset s 8 0 then s
  else if ok then
    let s := wr rsvB RSV_STATUS_READY 1 (wr rsvB RSV_STATUS_OUT_OF_SERVICE 0 (wr rsvB RSV_STATUS_READ_ONLY 0 s))
    let s := showDies (modRsv (fun r => { r with stageFree := 3145728 - r.staged.length, cleanFree := 1048576 - r.clean.length }) s)
    let pend := s.rsv.bands.filter (fun b => b.2.erasePending)
    let s := forEach pend (fun b s => modRsv (fun r => { r with bands := tdel r.bands b.1, freeBands := r.freeBands + 1 }) (forEach b.2.blocks (eraseBlock []) s)) s
    let s := when (unitOf s 0x19FC00 0).inFault (faultExit 0x19FC00 0 0) s
    paceStep 0 (allocWaiting (offerAll (rsvHealth (syncSpace s))))
  else if service s = 0 then
    let s := rsvOut false { s with led := { s.led with mirror := { s.led.mirror with valid := false } }, obj := { s.obj with rebuilding := true } }
    wr ledB LEDGER_STATUS_REBUILDING 1 s
  else rsvLeaves false [] s

def execReservoirReady (ok : Bool) (s : State) : Res State := run .core (rsvReadyOp ok) s

end Sys2Proof.Machine
end

