-- ==== Sys2Proof/Machine/Objects.lean ====
section
/-!
DEFINITION. Sys2Proof/Machine/Objects.lean: the Key Value commands (R296-R300), lock grants (R307), Flush and the durable mark
(R310-R312).
-/
namespace Sys2Proof.Machine
open Reg

/-! ### The commands that take a lock -/

def execStore (c : Sqe) (k : KvKey) (value : List Byte) (o : StoreOpts) (s : State) : Res State :=
  nvme c (fun s => holdOrRun (.store c k value o) (countWriteCmd s)) s

def execRetrieve (c : Sqe) (k : KvKey) (offset buf : Nat) (s : State) : Res State :=
  nvme c (fun s => holdOrRun (.retrieve c k offset buf) (countReadCmd s)) s

def execDelete (c : Sqe) (k : KvKey) (s : State) : Res State := nvme c (fun s => holdOrRun (.delete c k) (countWriteCmd s)) s

def execExist (c : Sqe) (k : KvKey) (s : State) : Res State := nvme c (fun s => holdOrRun (.exist c k) (countReadCmd s)) s

def execAppendValue (c : Sqe) (k : KvKey) (create : Bool) (offset : Nat) (data : List Byte) (s : State) : Res State :=
  nvme c (fun s => holdOrRun (.appendValue c k create offset data) (countWriteCmd s)) s

def execAuditObject (c : Sqe) (k : KvKey) (repair : Bool) (len : Nat) (read : AuditRead) (s : State) : Res State :=
  nvme c (fun s => holdOrRun (.auditObject c k repair len read) (countReadCmd s)) s

/-! ### List (R298) -/

/-- Keys at or after `from_` in byte order. The index is kept in that order. -/
def keysFrom (s : State) (ns : Nat) (from_ : List Byte) : List (List Byte) :=
  (s.obj.index.filter (fun e => decide (e.ns = ns) && !keyLt e.key from_)).map (fun e => e.key)

/-- One key of the KV List data: its length in two bytes, the key, zeros up to a multiple of 4 (notes/assumptions/42.md). -/
def listEntry (key : List Byte) : List Byte := leBytes 2 key.length ++ key ++ zeros ((4 - (2 + key.length) % 4) % 4)

/-- As many whole entries as fit. -/
def listFit : Nat → List (List Byte) → List (List Byte)
  | _, [] => []
  | room, k :: ks => if (listEntry k).length ≤ room then k :: listFit (room - (listEntry k).length) ks else []

/-- The data of a List: the number of keys returned, then the keys. -/
def listData (keys : List (List Byte)) (buf : Nat) : List Byte :=
  let l := listFit (buf - 4) keys
  (leBytes 4 l.length ++ l.flatMap listEntry).take buf

def listOp (c : Sqe) (k : KvKey) (buf : Nat) (s : State) : State :=
  if !nsActive s k.nsid then complete c 0xB 0 0 s
  else if 16 < k.len then complete c 0x86 0 0 s
  else if s.obj.rebuilding then complete c 0x82 0 0 s
  else complete c 0 0 0 (send (.data c (listData (keysFrom s k.nsid (keyOf k)) buf)) s)

def execList (c : Sqe) (k : KvKey) (buf : Nat) (s : State) : Res State := nvme c (fun s => listOp c k buf (countReadCmd s)) s

/-! ### Flush and the durable mark (R310-R312) -/

/-- R17: the cells of an object are in the Reservoir, or on media and verified; with the Reservoir out of service only the latter: no
segment and no staging copy (R253) still holds a cell that has not been destaged. -/
def cellsDurable (s : State) (n : Nat) : Bool :=
  let out := flag s rsvB RSV_STATUS_OUT_OF_SERVICE
  let staged (o : Obj) := o.stripes.any (fun r => r.places.any (fun p => match p with
    | some c => s.rsv.staged.any (fun e => decide (e.1 = cellKey c))
    | none => false))
  s.pool.segs.all (fun e => decide (e.2.obj ≠ n) || !(decide (e.2.state = .dirty) || (decide (e.2.state = .draining) && e.2.wasDirty) || (out && decide (e.2.state = .staged))))
    && s.pool.waiting.all (fun g => decide (g.obj ≠ n) || decide (g.state ≠ .dirty))
    && !(out && (match objOf s n with | some o => staged o | none => false))

/-- The last commit of an object: that of its newest store, append or import event (R324). -/
def lastCommit (o : Obj) : Nat := match (o.events.filter (fun e => decide (e.kind ≤ 3))).getLast? with | some e => e.commit | none => 0

/-- A commit numbered `upTo` or below of the Flush's namespaces is not durable yet. With the Reservoir out of service, what a durable mark
covered is durable only on media (R28). -/
def notDurable (s : State) (ns upTo : Nat) : Bool :=
  s.obj.undo.any (fun u => decide (u.num ≤ upTo) && decide (s.obj.durable < u.num) && decide (ns = 0xFFFFFFFF ∨ u.ns = ns))
    || (flag s rsvB RSV_STATUS_OUT_OF_SERVICE
      && s.obj.objs.any (fun e => decide (ns = 0xFFFFFFFF ∨ e.2.ns = ns) && decide (lastCommit e.2 ≤ upTo) && !cellsDurable s e.1))

/-- R310: a Flush notes the commit sequence and waits. What is Dirty is offered to the Reservoir. -/
def flushOp (c : Sqe) (ns : Nat) (s : State) : State :=
  if ns ≠ 0xFFFFFFFF ∧ nsActive s ns = false then complete c 0xB 0 0 s
  else if s.obj.rebuilding then complete c 0x82 0 0 s
  else offerAll { s with obj := { s.obj with flushes := s.obj.flushes ++ [⟨c, ns, s.obj.commit⟩] } }

def execFlush (c : Sqe) (ns : Nat) (s : State) : Res State := nvme c (flushOp c ns) s

/-- R310: a Flush completes once every commit that it covers is durable. -/
def flushEndOp (c : Sqe) (s : State) : State :=
  match s.obj.flushes.find? (fun f => decide (f.cmd = c)) with
  | none => s
  | some f =>
    if notDurable s f.ns f.upTo then s
    else complete c 0 0 0 { s with obj := { s.obj with flushes := s.obj.flushes.filter (fun g => decide (g.cmd ≠ c)) } }

def execFlushComplete (c : Sqe) (s : State) : Res State := run .core (flushEndOp c) s

/-- A commit is durable: what its key names now is. A later commit of the key covers it. -/
def commitDurable (s : State) (u : Undo) : Bool := match idxFind s u.ns u.key with | some n => cellsDurable s n | none => true

/-- R312: the durable mark advances, in the same journal record as the index changes; with the Reservoir out of service it is recorded in
the index journals on media. -/
def markOp (mark : Nat) (s : State) : State :=
  let d := min mark s.obj.commit
  if d ≤ s.obj.durable then s
  else if s.obj.undo.all (fun u => decide (d < u.num) || commitDurable s u) then
    advanceDurable d (if flag s rsvB RSV_STATUS_OUT_OF_SERVICE then s else journalCommit s)
  else s

def execDurableMarkAdvance (mark : Nat) (s : State) : Res State := run .core (markOp mark) s

end Sys2Proof.Machine
end

