-- ==== Sys2Proof/Machine/StartOps.lean ====
section
/-!
DEFINITION. Sys2Proof/Machine/StartOps.lean: what a start does: the Daybook ring, the history queues and the ledger from the Reservoir
(R218, R223, R394, R408, R412), the phases of R370, the meter and the time at a power-up (R336, R344), the end of a warm reset (R373).
-/
namespace Sys2Proof.Machine
open Reg

/-! ### The Daybook and the history queues (R394, R412) -/

/-- Put a record among records in DAYBOOK_SEQ order. -/
def seqIns (r : DayRec) : List DayRec → List DayRec
  | [] => [r]
  | x :: xs => if r.dseq < x.dseq then r :: x :: xs else x :: seqIns r xs

/-- The records of a ring in DAYBOOK_SEQ order. -/
def ringRecords (t : Table DayRec) : List DayRec := t.foldr (fun e acc => seqIns e.2 acc) []

/-- The SRAM ring is filled again from the Reservoir ring, then from what is still pending, under R411. -/
def daybookReload (s : State) : State :=
  let put (t : Table DayRec) (r : DayRec) : Table DayRec := match ringPut 16384 t r with
    | some t => t
    | none => t
  { s with day := { s.day with sram := (ringRecords s.day.ring ++ s.day.pending).foldl put [] } }

/-- The fault register sets of R380. -/
def allFb : List Nat :=
  [0xFC00, 0x1FC00, 0x2FC00, 0x3FC00, 0x7FC00] ++ (List.range 24).map fbPort ++ (List.range 48).map fbAct
    ++ [0x14FC00, 0x15FC00, 0x16FC00, 0x17FC00, 0x18FC00, 0x19FC00] ++ (List.range 4).map fbHost
    ++ [0x1BFC00, 0x1CFC00, 0x1DFC00, 0x1EFC00, 0x1FFC00]

/-- The history entry that a record of trigger 0x0100 + c copies (R409): the entry's word at +0x0C, DETAIL, DETAIL_HI. -/
def histOfRecord (r : DayRec) : HistArgs where
  unit := bitsOf r.d0 FLT_HIST_C_UNIT.lo FLT_HIST_C_UNIT.len
  code := bitsOf r.d0 FLT_HIST_C_CODE.lo FLT_HIST_C_CODE.len
  cls := bitsOf r.d0 FLT_HIST_C_CLASS.lo FLT_HIST_C_CLASS.len
  react := bitsOf r.d0 FLT_HIST_C_REACTION.lo FLT_HIST_C_REACTION.len
  path := bitsOf r.d0 FLT_HIST_C_PATH.lo FLT_HIST_C_PATH.len
  detail := r.d1
  hi := r.d2

/-- Fill the slots of a queue from `i` on. -/
def histFill (fb : Nat) : Nat → List DayRec → State → State
  | _, [], s => s
  | i, r :: rs, s => histFill fb (i + 1) rs (histSlot fb i r.stamp (histOfRecord r) s)

/-- R394: a block's queue is rebuilt from its newest 16 records, the oldest in slot 0. -/
def histRebuild (recs : List DayRec) (fb : Nat) (s : State) : State :=
  let mine := recs.filter (fun r => decide (0x100 ≤ r.trig ∧ r.trig < 0x200 ∧ r.d3 = fbBlockBase fb))
  let last := mine.drop (mine.length - 16)
  let s := keepRegs (fun k => !decide (fb + 0x100 ≤ keyAddr k ∧ keyAddr k < fb + 0x300)) s
  wr fb FLT_HIST_CTL_NEXT last.length (wr fb FLT_HIST_CTL_TOTAL 0 (histFill fb 0 last s))

/-! ### The ledger (R218, R222, R223) -/

/-- R223: an Open reach's WP is read forward on its media. What the media hold is the entry as it stood when the module stopped. -/
def forwardRead (media : Table LedEntry) (k : Nat) (e : LedEntry) : LedEntry :=
  let m := tget ledEntry0 media k
  if e.state = 1 ∧ m.gen = e.gen ∧ m.openTime = e.openTime then
    (if m.state = 1 then { e with wp := max e.wp m.wp, flags := if bitOf m.flags fFull then setBit e.flags fFull true else e.flags } else e)
  else e

/-- The ledger, the serials and the defect windows come from the mirror; without a mirror the ledger is built afresh (R224), and the index
before the start completes. -/
def ledgerLoad (s : State) : State :=
  let m := s.led.mirror
  let media := s.led.entries
  let s := { s with led := { s.led with entries := [], passes := [], defects := m.defects, invSerial := m.serials } }
  let s := forEach (List.range 6) (fun i s => wr ledB (LEDGER_COUNT_ENTRIES.ix i) 0 s) s
  let s := wr ledB LEDGER_REWRITE_ENTRIES 0 (wr ledB LEDGER_DUE_ENTRIES 0 s)
  let s := forEach m.led (fun e s => setEntry (e.1 / 10240) (e.1 % 10240) (forwardRead media e.1 e.2) s) s
  let s := forEach m.serials (fun e s => forEach (List.range 4) (fun i s => wr ledB (LEDGER_SERIAL_SERIAL.ix (4 * e.1 + i)) (e.2 / 2 ^ (32 * i)) s) s) s
  let d := now s / secs 86400
  let s := syncDefects (if m.valid then ageEntries (d - m.lastTick) s else s)
  let s := { s with led := { s.led with lastTick := d }, obj := { s.obj with rebuilding := !m.valid } }
  setF ledB LEDGER_STATUS_REBUILDING (!m.valid) s

/-! ### The phases of R370 -/

/-- R250: the fuse map is applied: up to 4 lanes of each of the 8 subchannels are steered, one row of each bank group of each device is
repaired. A map that asks for more leaves the rest to the code and sets SPARE_FAIL. What the map holds is the part's own. -/
def fuseMap (s : State) : State :=
  let lanes := (List.range 8).map Config.fuseLanes
  let s := wr poolB POOL_SPARE_LANES (lanes.foldl (fun n x => n + min 4 x) 0) s
  let s := wr poolB POOL_SPARE_ROWS (Config.fuseRows.foldl (fun n x => n + min 1 x) 0) s
  setF poolB POOL_SPARE_SPARE_FAIL (lanes.any (fun x => decide (4 < x)) || Config.fuseRows.any (fun x => decide (1 < x))) s

/-- The Pool accepts requests once its PHY is locked and the configuration is applied (R250, R377). -/
def poolReady (s : State) : State :=
  setF poolB POOL_STATUS_READY (flag s rstB RST_CLK_LOCK_DDR && cfgApplied s) s

/-- R251: the directory's organisation is taken at a cold start. -/
def directoryMode (s : State) : State :=
  let s := wr poolB POOL_DIR_STATUS_MODE_IN_FORCE (rd s poolB POOL_DIR_CTL_MODE) s
  let c := rd s poolB POOL_DIR_CTL_CARVE
  wr poolB POOL_DIR_STATUS_SEGMENTS (1536 - 48 * c) (wr poolB POOL_DIR_STATUS_CARVE_IN_FORCE c s)

/-- R370, R84: a port whose HDA is present starts its settle window; a port in service gets its sequencers running (R203). -/
def portStart (n : Nat) (s : State) : State :=
  if portState s n = 0 then (if flag s (portBase n) HDA_STATUS_PRESENT then settle n s else s)
  else if portState s n = 4 then portRun n s
  else advancePort n s

/-- R400, R401: the Bursar runs its firmware, or its boot ROM. -/
def bursarStart (s : State) : State :=
  let none_ := flag s cfgB CFG_STATUS_NO_FIRMWARE
  let s := setF burB BUR_STATUS_BOOT_ROM none_ (setF burB BUR_STATUS_RUNNING (!none_) s)
  { s with bur := { s.bur with receiver := none, eventsWaiting := [], zone := [] } }

/-- R361: a commit that was cut off shows as a Daybook record at the next start. -/
def cutNotice (s : State) : State :=
  if s.cfg.cut then dayEvent srcLoader 0x700 4 cfgB 0 0 0 { s with cfg := { s.cfg with cut := false } } else s

/-- Phases 1 to 3 of R370. `cold` says that the module comes from a cold reset or a power-on, so that what R364 reloads is reloaded. -/
def startPhases (cold : Bool) (s : State) : State :=
  let s := when cold (fun s => forEach allFb (histRebuild (ringRecords s.day.ring)) (daybookReload s)) s
  let s := chooseFirmware (chooseCopy (cutNotice (wr rstB RST_STATUS_PHASE 1 s)))
  if rd s cfgB CFG_STATUS_STATE ≠ 4 then s
  else
    let s := poolReady (fuseMap (applyCold (wr rstB RST_STATUS_PHASE 2 s)))
    let s := bursarStart (when cold directoryMode s)
    let s := forEach (List.range 24) portStart s
    if flag s cfgB CFG_STATUS_NO_FIRMWARE then s
    else
      let s := wr rstB RST_STATUS_PHASE 3 s
      when cold ledgerLoad s

/-! ### Power-up (R336, R344, R347, R370) -/

/-- The latest time recorded in the sealed log. -/
def sealedLatest (s : State) : Nat :=
  let a := s.asy.marks.foldl (fun acc e => max acc (max e.2.stamp.time e.2.after)) 0
  s.asy.meters.foldl (fun acc e => max acc (e.2.stamp.time + secs e.2.length)) a

/-- The bus is back: the time resumes and the stamp unit starts afresh at it (R336). -/
def timeFrom (t : Nat) (s : State) : State := { s with time := ⟨t, t, []⟩ }

/-- R344: the interval that the outage broke is closed if its end has passed; then the interval that runs is metered from the power-up. Both
are PARTIAL. Times between the interval's end and the power-up have no record. -/
def meterResume (t : Nat) (s : State) : State :=
  let till := intervalEnd s s.asy.intStart
  let s := modAsy (fun a => { a with intFlags := a.intFlags ||| 2 }) s
  if t < till then timeFrom t s
  else
    let (l, s) := freeChans 26 (timeFrom till s)
    let s := setAssay t (meterClose till l s)
    meterStart t (2 ||| startFlags s) s

/-- R350: an authorised facility has exchanged the tile: the old log stays there, the sequences go on, the time is anchored and the sealed
parameters are set, the seal is whole, the cell new. Its cumulative energies are its own: free values. -/
def tileExchange (x : NewTile) (s : State) : State :=
  let s := modAsy (fun _ => { assayState0 with taiUtc := x.taiUtc % 65536, serial := x.serial }) s
  let s := wr asyB ASY_PARAM_INTERVAL_S x.intervalS (wr asyB ASY_PARAM_STEP_AFTER_H x.stepAfterH s)
  let s := wr asyB ASY_SW_VERSION x.version (wr asyB ASY_SW_CRC_CRC x.crc (wr asyB ASY_CELL_CELL_MV x.cellMv s))
  let s := setF asyB ASY_STATUS_CELL_LOW (decide (x.cellMv < 2700)) (wr asyB ASY_STATUS_SEAL_BROKEN 0 s)
  let s := forEach [ASY_STATUS_DISAGREE, ASY_STATUS_SLEWING, ASY_STATUS_LONG_SLEW, ASY_STATUS_SOURCE, ASY_OFFSET_D, ASY_RATE_RATE_PPB, ASY_UTC_FROM_PTP]
    (fun f s => wr asyB f 0 s) (wr asyB ASY_UTC_TAI_UTC x.taiUtc s)
  forEach (List.range 26) (fun c s => let (v, s) := takeFree s; pairSet (asyB + 0x100 + 8 * c) v s) s

/-- R350: the new tile's first mark, of kind 10, in the time that it has carried to the power-up. The spec names no field for the old tile's
serial number; it stands in d (DESIGN CHOICE, notes/assumptions/39.md). The time before the setting is open. -/
def exchangeMark (old t : Nat) (x : NewTile) (s : State) : State :=
  let (before, s) := takeFree s
  let s := setTimeValid true (timeFrom t s)
  meterStart t (2 ||| startFlags s) (mark 10 7 (before % 2 ^ 64) x.time old 0 s)

/-- R336: the tile carried the time, at 2^-15 s, or restarts one second above the latest time of its log. -/
def tileResume (tile : Option NewTile) (carried : Option Nat) (s : State) : State :=
  let old := s.asy.serial
  let s := match tile with | some x => tileExchange x s | none => s
  match carried with
  | some n =>
    let t := match tile with | some x => max x.time (n / 512 * 512) | none => max s.time.assay (n / 512 * 512)
    let s := match tile with | some x => exchangeMark old t x s | none => meterResume t s
    markNow 1 0 0 0 (setTimeValid (timeValid s) s)
  | none =>
    let t := match tile with | some x => x.time + secs 1 | none => sealedLatest s + secs 1
    let s := match tile with | some x => exchangeMark old t x s | none => timeFrom t s
    let (before, s) := takeFree s
    let s := meterStart t 3 s
    mark 2 0 (before % 2 ^ 64) t 0 0 (setTimeValid false s)

/-- R347: a bank that its cell did not carry reads 0; PREFER then reads 0 (R42). -/
def bankResume (ok : Bool) (s : State) : State :=
  if ok then wr asyB ASY_STATUS_BANK_LOST 0 s
  else
    let s := forEach (List.range 16) (fun i s => wr asyB (ASY_BANK_WORD.ix i) 0 s) s
    wr pwrB PWR_CTL_PREFER 0 (wr asyB ASY_STATUS_BANK_LOST 1 s)

/-- R42: the feed that carries the bus: the first that has become good, and of both at one instant the one that PWR_CTL.PREFER names. -/
def firstFeed (f : Option Feed) (s : State) : Feed :=
  match f with
  | some f => f
  | none => if flag s pwrB PWR_CTL_PREFER then .b else .a

/-- The feed that has become good carries the bus (R42). -/
def feedStart (f : Option Feed) (s : State) : State :=
  let act := firstFeed f s
  let s := { s with pwr := powerState0 }
  let s := setF pwrB PWR_STATUS_FEEDA_GOOD (decide (f ≠ some .b)) s
  let s := setF pwrB PWR_STATUS_FEEDB_GOOD (decide (f ≠ some .a)) s
  setF pwrB PWR_STATUS_ACTIVE (decide (act = .b)) s

/-- R52: the exercise's period runs from the power-on, and a feed that is good is good since then. -/
def feedSince (f : Option Feed) (s : State) : State :=
  let t := now s
  let s := forEach (match f with | some f => [f] | none => [.a, .b]) (fun f s => modFeed f (fun x => { x with goodSince := some t }) s) s
  syncStandby { s with pwr := { s.pwr with exerBase := t } }

/-- A start that has not begun: the module is unpowered, or it is as State.reset leaves it (notes/assumptions/3.md). -/
def notBegun (s : State) : Bool :=
  !s.pwr.powered || (decide (service s = 0) && decide (rd s rstB RST_STATUS_PHASE = 0) && decide (rd s cfgB CFG_STATUS_STATE = 0)
    && s.rst.asserted.isNone && !s.pwr.failing)

/-- R370 phase 0: a feed becomes good after both were absent. With RESET_N low the start begins at its release (R367). -/
def powerOnOp (f : Option Feed) (flash : Flash) (tile : Option NewTile) (carried : Option Nat) (bankOk : Bool) (s : State) : State :=
  if notBegun s then
    let s := { s with cfg := { s.cfg with flash := some flash } }
    let s := tileResume tile carried (feedStart f (bankResume bankOk s))
    let s := syncSluice (countReset 1 (feedSince f s))
    let s := { s with obj := { s.obj with powerCycles := s.obj.powerCycles + 1 } }
    if s.rst.pinLow.isSome then { s with rst := { s.rst with asserted := some .cold } } else startPhases true s
  else s

/-! ### The start completes (R28, R29, R370) -/

/-- Every actuator in service is past its first word, the Reservoir's start has ended, the Pool answers, and no inventory of R224 runs. -/
def startDone (s : State) : Bool :=
  decide (service s = 0 ∨ service s = 3) && s.rst.asserted.isNone && decide (3 ≤ rd s rstB RST_STATUS_PHASE)
    && flag s poolB POOL_STATUS_READY && (flag s rsvB RSV_STATUS_READY || flag s rsvB RSV_STATUS_OUT_OF_SERVICE)
    && (List.range 48).all (fun a => !actInService s a || (actOf s a).configured)
    && (!s.obj.rebuilding || decide (rd s ledB LEDGER_STATUS_INV_BUSY = 0))

/-- R224, R326, R370: the start completes; without a mirror it stays Starting until the index is complete. `unreadable` are provenance sectors
that cannot be read. -/
def startCompleteOp (unreadable : List CellPlace) (s : State) : State :=
  if startDone s then
    let s := when s.obj.rebuilding (indexRebuild unreadable) (wr rstB RST_STATUS_PHASE 4 s)
    let s := wr ledB LEDGER_STATUS_REBUILDING 0 { s with obj := { s.obj with rebuilding := false } }
    let s := syncRebuild s
    let s := setService (if degraded s then 2 else 1) s
    forEach (List.range 24) advancePort (syncRebuild s)
  else s

/-! ### The end of a module reset (R373, R435, R436) -/

/-- R435: the fault states of the Tellers, the Bursar and the lock table end at a module reset. -/
def blockFaultsEnd (s : State) : State :=
  let units := (List.range 17).map (fun u => (0x1DFC00, u)) ++ [(0x1BFC00, 0)]
  forEach units (fun (fu : Nat × Nat) s => if (unitOf s fu.1 fu.2).inFault then faultExit fu.1 fu.2 0 s else s) s

/-- R421, R373: at a reset after an activation request the loader chooses a package again and writes the control stores. -/
def activateAtReset (s : State) : State :=
  if s.obj.fwCommitted then
    let s := bursarStart (chooseFirmware { s with obj := { s.obj with fwCommitted := false } })
    applyManagement s
  else s

/-- Every head is parked, and RESET_N is high: a reset in force may end. -/
def resetMayEnd (s : State) : Bool := s.rst.pinLow.isNone && (List.range 48).all (fun a => !loaded s a)

/-- R373: the warm reset ends. From Starting the start runs again from phase 1 (R29). -/
def warmEndOp (s : State) : State :=
  if decide (s.rst.asserted = some .warm) && resetMayEnd s then
    let s := blockFaultsEnd { s with rst := { s.rst with asserted := none } }
    if service s = 0 then startPhases false { s with obj := { s.obj with fwCommitted := false } }
    else
      let s := activateAtReset s
      let s := poolReady (fuseMap (wr cfgB CFG_STATUS_STATE 4 (applyWarm s)))
      forEach (List.range 24) (fun n s => if portState s n = 4 then portRun n s else s) s
  else s

/-- R436: the cold reset ends, and the phases run as after a power-on. -/
def coldEndOp (s : State) : State :=
  if decide (s.rst.asserted = some .cold) && resetMayEnd s then
    startPhases true (blockFaultsEnd { s with rst := { s.rst with asserted := none }, obj := { s.obj with fwCommitted := false } })
  else s

end Sys2Proof.Machine
end

