-- ==== Sys2Proof/Machine/Reset.lean ====
section
/-!
DEFINITION. Sys2Proof/Machine/Reset.lean: power-on and the start (R370), the sources of reset (R363-R367), the ends of resets (R373,
R436), the watchdog (R366), block resets (R304, R375, R378), the clocked domains (R377).
-/
namespace Sys2Proof.Machine
open Reg

/-! ### Start -/

def execPowerOn (f : Option Feed) (flash : Flash) (tile : Option NewTile) (carried : Option Nat) (bankOk : Bool) (s : State) : Res State :=
  runIf (notBegun s) (powerOnOp f flash tile carried bankOk) s

def execStartComplete (unreadable : List CellPlace) (s : State) : Res State := run .core (startCompleteOp unreadable) s

/-! ### RESET_N (R365) -/

/-- RESET_N is recognised low: a warm reset at once, which is counted once the low has ended or has become a cold reset; without power
only the level is noted (R367). -/
def pinLowOp (s : State) : State :=
  if s.rst.pinLow.isSome then s
  else
    let s := { s with rst := { s.rst with pinLow := some (now s) } }
    if !s.pwr.powered then s
    else match resetBarred .warm s with
      | some f => ignoreReset 2 f s
      | none =>
        let (t, s) := stamp srcReset s
        applyReset .warm { s with rst := { s.rst with pinTaken := some t } }

def execResetNLow (s : State) : Res State := runIf true pinLowOp s

/-- RESET_N is still low 500 ms after it fell: the reset becomes cold and is counted once, with cause 0x03. A low that has held the
module in its start since the power-on changes nothing (R367). -/
def pinColdOp (s : State) : State :=
  match s.rst.pinLow with
  | none => s
  | some t =>
    let s := reach (t + msecs 500) s
    let c := rd s rstB RST_STATUS_LAST_CAUSE
    if s.rst.asserted = some .cold ∧ (c = 3 ∨ c = 1) then s else assertReset .cold 3 s

def execResetNCold (s : State) : Res State := run .always pinColdOp s

/-- RESET_N rises: the cause is released (R436). -/
def pinRiseOp (s : State) : State := settlePin { s with rst := { s.rst with pinLow := none } }

def execResetNRise (s : State) : Res State := runIf true pinRiseOp s

/-! ### RST_CTL (R365) and the assertion of a reset -/

/-- RST_CTL written: the reset requested takes effect 1 ms later; with both bits it is the cold one. -/
def rstCtlOp (v : Nat) (s : State) : State :=
  let add (k : ResetKind) : State := { s with rst := { s.rst with ctlPending := s.rst.ctlPending ++ [(k, now s + msecs 1)] } }
  if bitOf v 1 then add .cold else if bitOf v 0 then add .warm else s

def execRstCtlWarm (p : Path) (s : State) : Res State := runWrite p 0x10004 1 (rstCtlOp 1) s
def execRstCtlCold (p : Path) (s : State) : Res State := runWrite p 0x10004 2 (rstCtlOp 2) s

/-- The oldest request of RST_CTL of a kind has waited its 1 ms. -/
def takePending (k : ResetKind) (s : State) : State :=
  match s.rst.ctlPending.find? (fun e => decide (e.1 = k)) with
  | none => s
  | some e => reach e.2 { s with rst := { s.rst with ctlPending := s.rst.ctlPending.erase e } }

/-- R363: a warm or cold reset is asserted for one of the causes of its kind. -/
def assertRow (k : ResetKind) (own : Nat) (causes : List Nat) (cause : Nat) (s : State) : State :=
  if causes.contains cause then assertReset k cause (if cause = own then takePending k s else s) else s

def execWarmReset (cause : Nat) (s : State) : Res State := run .always (assertRow .warm 5 [2, 4, 5, 7, 8] cause) s
def execColdReset (cause : Nat) (s : State) : Res State := run .always (assertRow .cold 6 [3, 6, 7] cause) s
def execWarmResetEnd (s : State) : Res State := run .always warmEndOp s
def execColdResetEnd (s : State) : Res State := run .always coldEndOp s

/-! ### The watchdog (R366) -/

/-- RST_WDOG_KICK written: 0xA5 arms the watchdog or restarts its period. -/
def kickOp (p : Path) (v : Nat) (s : State) : State :=
  if v % 256 ≠ 0xA5 then recordIgnored 0x1FC00 0x10018 p s
  else if flag s rstB RST_WDOG_ENABLE then { s with rst := { s.rst with wdogArmed := true, lastKick := now s } }
  else s

def execWatchdogKick (p : Path) (v : Word) (s : State) : Res State := runWrite p 0x10018 v.toNat (kickOp p v.toNat) s

/-- The watchdog stops: no reset, ALIVE stops (R35). -/
def wdogStop (s : State) : State :=
  let s := wr rstB RST_STATUS_WDOG_STOPPED 1 s
  aliveStopSet true (dayEvent srcReset 0x700 7 rstB 0 0 0 s)

/-- The period passes without a kick. -/
def expireOp (s : State) : State :=
  if s.rst.wdogArmed && flag s rstB RST_WDOG_ENABLE then
    let n := s.rst.wdogRuns
    let cold := decide (n = 1) || flag s rstB RST_WDOG_ACTION
    let s := reach (s.rst.lastKick + msecs (rd s rstB RST_WDOG_PERIOD_MS)) { s with rst := { s.rst with wdogArmed := false } }
    let s := if 2 ≤ n then wdogStop s else assertReset (if cold then .cold else .warm) 7 s
    wr rstB RST_STATUS_WDOG_FIRED 1 { s with rst := { s.rst with wdogRuns := min 3 (n + 1) } }
  else s

def execWatchdogExpiry (s : State) : Res State := run .always expireOp s

/-! ### Block resets (R304, R375, R378) -/

/-- A kind and an instance of R304. -/
def blockNamed (kind inst : Nat) : Bool := decide (1 ≤ kind ∧ kind ≤ 8) && decide (inst < kindCount kind)

/-- RST_BLOCK_REQ written on a path: each Teller and the Bursar has its own copy (R375); other paths have none. -/
def blockReqOp (p : Path) (v : Nat) (s : State) : State :=
  match p with
  | .teller _ | .bursar =>
    let s := copySet p 0x10020 (v % 2 ^ 17) s
    if bitOf v 31 then
      let kind := bitsOf v 0 8
      let inst := bitsOf v 8 8
      let s := wr rstB RST_BLOCK_RESULT_DONE 0 (wr rstB RST_BLOCK_RESULT_TIMED_OUT 0 (wr rstB RST_BLOCK_RESULT_STILL_FAULTED 0 s))
      if blockNamed kind inst && s.rst.asserted.isNone && decide (service s ≠ 4) then
        blockBegin kind inst (bitOf v 16) (some p) none (wr rstB RST_BLOCK_RESULT_REFUSED 0 s)
      else wr rstB RST_BLOCK_RESULT_REFUSED 1 s
    else s
  | _ => s

def execRstBlockReq (p : Path) (v : Word) (s : State) : Res State :=
  runWrite p 0x10020 v.toNat (blockReqOp p (setBit v.toNat 31 true)) s

def execBlockResetIdle (kind inst : Nat) (timedOut stillFaulted : Bool) (s : State) : Res State :=
  run .core (blockEnd kind inst timedOut stillFaulted) s

/-- R304: Function Reinit of a block. -/
def reinitOp (c : Sqe) (kind inst : Nat) (s : State) : State :=
  if blockNamed kind inst && !(decide (kind = 7) && decide (inst = c.port.val)) then blockBegin kind inst false none (some c) s
  else complete c 2 0 0 s

def execFunctionReinit (c : Sqe) (kind inst : Nat) (s : State) : Res State := admin c (reinitOp c kind inst) s

/-- R304: Function Reinit of kind 0: every I/O queue of the controller is reset. -/
def reinitQueuesOp (c : Sqe) (inst : Nat) (s : State) : State :=
  if inst ≠ 0 then complete c 2 0 0 s
  else complete c 0 0 0 (forEach (ctrlOf s c.port.val).queues (fun q s => queueResetOp c.port.val q.1 s) s)

def execFunctionReinitQueues (c : Sqe) (inst : Nat) (s : State) : Res State := admin c (reinitQueuesOp c inst) s

/-! ### Clocked domains (R377) -/

/-- The lock bit of a domain. -/
def lockBit (s : State) : Domain → Bool
  | .host h => bitOf (rd s rstB RST_CLK_LOCK_HOST) h.val
  | .mgmt => flag s rstB RST_CLK_LOCK_MGMT
  | .ddr => flag s rstB RST_CLK_LOCK_DDR
  | .nand => flag s rstB RST_CLK_LOCK_NAND
  | .act a => if a.val < 32 then bitOf (rd s rstB RST_ACT_LOCK_LO_ACT_LO) a.val else bitOf (rd s rstB RST_ACT_LOCK_HI_ACT_HI) (a.val - 32)
  | .motor => flag s rstB RST_CLK_LOCK_MOTOR
  | .lowSpeed => flag s rstB RST_CLK_LOCK_LOW_SPEED

def setLock (d : Domain) (v : Bool) (s : State) : State :=
  match d with
  | .host h => wr rstB RST_CLK_LOCK_HOST (setBit (rd s rstB RST_CLK_LOCK_HOST) h.val v) s
  | .mgmt => setF rstB RST_CLK_LOCK_MGMT v s
  | .ddr => setF rstB RST_CLK_LOCK_DDR v s
  | .nand => setF rstB RST_CLK_LOCK_NAND v s
  | .act a =>
    if a.val < 32 then wr rstB RST_ACT_LOCK_LO_ACT_LO (setBit (rd s rstB RST_ACT_LOCK_LO_ACT_LO) a.val v) s
    else wr rstB RST_ACT_LOCK_HI_ACT_HI (setBit (rd s rstB RST_ACT_LOCK_HI_ACT_HI) (a.val - 32) v) s
  | .motor => setF rstB RST_CLK_LOCK_MOTOR v s
  | .lowSpeed => setF rstB RST_CLK_LOCK_LOW_SPEED v s

/-- The number of a domain. -/
def domainIx : Domain → Nat
  | .host h => h.val
  | .mgmt => 4
  | .ddr => 5
  | .nand => 6
  | .motor => 7
  | .lowSpeed => 8
  | .act a => 16 + a.val

/-- The block (R304) behind a domain. -/
def domainBlock : Domain → Option (Nat × Nat)
  | .host h => some (7, h.val)
  | .nand => some (8, 0)
  | .act a => some (1, a.val)
  | _ => none

/-- The domain behind a block. -/
def blockLocked (s : State) (kind inst : Nat) : Bool :=
  if kind = 1 then (if h : inst < 48 then lockBit s (.act ⟨inst, h⟩) else true)
  else if kind = 7 then (if h : inst < 4 then lockBit s (.host ⟨inst, h⟩) else true)
  else if kind = 8 then lockBit s .nand
  else true

/-- What hangs on a domain directly: the Pool, and the management port's link (R377, R406). -/
def domainFollows (d : Domain) (v : Bool) (s : State) : State :=
  match d with
  | .ddr => poolReady s
  | .mgmt => setF burB BUR_STATUS_MGMT_UP v s
  | _ => s

/-- A PLL reports lock: its domain leaves reset; after a loss this counts as a block reset of the domain. -/
def pllLockOp (d : Domain) (s : State) : State :=
  if lockBit s d then s
  else
    let again := s.rst.pllLost.contains (domainIx d)
    let s := domainFollows d true (setLock d true { s with rst := { s.rst with pllLost := s.rst.pllLost.filter (fun x => decide (x ≠ domainIx d)) } })
    if again then
      let s := incF rstB RST_BLOCK_COUNTS_BLOCK_RESETS s
      match domainBlock d with
      | some (k, i) => if underReset s k i then s else blockRelease k i (reapply k i s)
      | none => s
    else s

def execPllLock (d : Domain) (s : State) : Res State := run .always (pllLockOp d) s

/-- A PLL that has been locked loses its lock: its domain goes back into reset. -/
def pllLossOp (d : Domain) (s : State) : State :=
  if !lockBit s d then s
  else
    let s := domainFollows d false (setLock d false s)
    if s.rst.asserted.isSome || decide (service s = 4) then s
    else
      let s := { s with rst := { s.rst with pllLost := domainIx d :: s.rst.pllLost } }
      match domainBlock d with
      | some (k, i) => blockClear k i s
      | none => s

def execPllLockLoss (d : Domain) (s : State) : Res State := run .always (pllLossOp d) s

/-- R377: no lock after 10 attempts. -/
def pllTimeoutOp (d : Domain) (s : State) : State :=
  if lockBit s d then s
  else match d with
    | .host h => lastingFault (fbHost h.val) 0 1 s
    | .mgmt => dayEvent srcBursar 0x700 4 burB 0 0 0 s
    | .ddr => dayEvent srcReset 0x700 7 poolB 0 0 0 s
    | .nand => rsvOut false s
    | .act a => lastingFault (fbAct a.val) 0 7 s
    | .motor => railOp .motion false 3 s
    | .lowSpeed => forEach (List.range 4) (fun h => lastingFault (fbHost h) 0 3) s

def execPllLockTimeout (d : Domain) (s : State) : Res State :=
  run .always (fun s => if s.rst.asserted.isSome || decide (service s = 4) then s else pllTimeoutOp d s) s

/-- RST_RELEASE written: a held block is released, unless its PLL is not locked (R378). -/
def releaseBlockOp (p : Path) (v : Nat) (s : State) : State :=
  let kind := bitsOf v 0 8
  let inst := bitsOf v 8 8
  if !bitOf v 31 then s
  else if blockLocked s kind inst then blockUnhold kind inst s
  else recordIgnored 0x1FC00 0x10028 p (wr rstB RST_STATUS_EARLY_RELEASE 1 s)

def execRstRelease (p : Path) (v : Word) (s : State) : Res State :=
  runWrite p 0x10028 v.toNat (releaseBlockOp p (setBit v.toNat 31 true)) s

end Sys2Proof.Machine
end

