-- ==== Sys2Proof/Machine/Channel.lean ====
section
/-!
DEFINITION. Sys2Proof/Machine/Channel.lean: a reader path over one sector: asymmetry, offset, equaliser and their adaptation (R91), timing
recovery (R92), the freezes (R93), soft values (R95), the search of the marks (R99) and the framing (R100).
-/
namespace Sys2Proof.Machine

/-- What CH_ADAPT and CH_TIMING say: steps and enables of the loops, gains of the timing loop, ACQ_BITS. -/
structure LoopCfg where
  muGain : Nat
  muOffset : Nat
  muAsym : Nat
  muFir : Nat
  gainEn : Bool
  offsetEn : Bool
  asymEn : Bool
  firEn : Bool
  acqKp : Nat
  acqKi : Nat
  trkKp : Nat
  trkKi : Nat
  acqBits : Nat
  taEn : Bool
  deriving DecidableEq, Repr

/-! ### Equaliser and adaptation (R91) -/

/-- R91: the asymmetry correction of an ADC code. -/
def asymOut (c : Chan91) (x : Int) : Rat := x + c.asym * ((x * x : Int) : Rat) / 4096

/-- R91: the offset correction after it. -/
def offsetOut (c : Chan91) (x : Int) : Rat := asymOut c x - c.offset / 4

/-- R91: the FIR over corrected samples, newest first. -/
def firOut (taps xs : List Rat) : Rat := (List.zipWith (· * ·) taps xs).foldl (· + ·) 0

/-- b = ±1 of a bit; a stored 1 is +1 (notes/assumptions/22.md). -/
def pm (b : Bool) : Rat := if b then 1 else -1

/-- R91: the ideal output for decisions, newest first. -/
def idealOut (target : List Int) (bs : List Bool) : Rat :=
  (List.zipWith (fun (t : Int) b => (t : Rat) / 16 * pm b) target bs).foldl (· + ·) 0

/-- The equaliser's running state in a sector: the loops, the last ADC codes, the decisions and the outputs so far, newest first. -/
structure EqRun where
  ch : Chan91
  xs : List Int
  bs : List Bool
  ys : List Rat
  deriving DecidableEq, Repr

/-- One bit: the equaliser's output, the detector's decision, and, unless the loops are frozen, one least-mean-squares step of each loop
that is enabled, down the gradient of half the squared error (R91). -/
def eqBit (k : LoopCfg) (st : EqRun) (x : Int) (frozen : Bool) : EqRun :=
  let c := st.ch
  let xs := (x :: st.xs).take 10
  let x2 := xs.map (offsetOut c)
  let y := firOut c.taps x2
  let ys := y :: st.ys
  let bs := (Config.detectorBit ys c.target c.noise :: st.bs).take 3
  let e := idealOut c.target bs - y
  let step (mu : Nat) (grad : Rat) : Rat := e * grad / 2 ^ mu
  let ch := if frozen then c else
    { c with
      taps := if k.firEn then List.zipWith (fun t z => t + step k.muFir z) c.taps x2 else c.taps
      offset := if k.offsetEn then c.offset + step k.muOffset (-(c.taps.foldl (· + ·) 0) / 4) else c.offset
      asym := if k.asymEn then c.asym + step k.muAsym (firOut c.taps (xs.map (fun (z : Int) => ((z * z : Int) : Rat) / 4096))) else c.asym
      gain := if k.gainEn then Config.gainStep c.gain e y c.gainTarget k.muGain else c.gain }
  ⟨ch, xs, bs, ys⟩

/-- A sector's bits through the equaliser. -/
def eqRun (k : LoopCfg) : List (Int × Bool) → EqRun → EqRun
  | [], st => st
  | (x, f) :: l, st => eqRun k l (eqBit k st x f)

/-! ### Timing recovery (R92) -/

/-- The timing loop: phase and frequency in 1/64 bit, bits run, bits in tracking with an error below 1/8 bit in a row, whether it has
locked. -/
structure TimingRun where
  phase : Rat
  freq : Rat
  bits : Nat
  good : Nat
  locked : Bool
  deriving DecidableEq, Repr

/-- R92: one bit of the second-order loop, whose error is the bit's timing less the loop's phase. -/
def timingBit (k : LoopCfg) (st : TimingRun) (t : Int) (frozen : Bool) : TimingRun :=
  let acq := decide (st.bits < k.acqBits)
  let err : Rat := t - st.phase
  let good := if acq then 0 else if -8 < err ∧ err < 8 then st.good + 1 else 0
  let (kp, ki) := if acq then (k.acqKp, k.acqKi) else (k.trkKp, k.trkKi)
  let (phase, freq) := if frozen then (st.phase, st.freq) else (st.phase + st.freq + err / 2 ^ kp, st.freq + err / 2 ^ ki)
  ⟨phase, freq, st.bits + 1, good, st.locked || decide (64 ≤ good)⟩

/-- R92: a sector's bits through the timing loop, which starts with zero phase error. -/
def timingRun (k : LoopCfg) : List (Int × Bool) → TimingRun → TimingRun
  | [], st => st
  | (t, f) :: l, st => timingRun k l (timingBit k st t f)

/-! ### Freezes (R93) -/

/-- The samples of the data stream: those outside the servo wedges (start, length) that split the field. -/
def streamOf {α : Type} (wedges : List (Nat × Nat)) (xs : List α) : List α :=
  (xs.zipIdx.filter (fun e => !wedges.any (fun w => decide (w.1 ≤ e.2 ∧ e.2 < w.1 + w.2)))).map Prod.fst

/-- The mean of up to `n` codes. -/
def meanOf (n : Nat) (xs : List Int) : Rat := ((xs.take n).foldl (· + ·) 0 : Int) / (n : Rat)

/-- The span of an asperity: its first sample, where the mean has returned, and the reference mean. -/
def asperityEnd (limit : Nat) (base : Rat) : List Int → Nat → Nat
  | [], n => n
  | x :: xs, n =>
    let d := meanOf 8 (x :: xs) - base
    if -(limit : Rat) ≤ d ∧ d ≤ limit then n else asperityEnd limit base xs (n + 1)

/-- R93: the asperities of a stream, as (first sample, first sample after it): the mean of 8 successive codes has moved by more than the
limit from the mean over the 64 before; `prev` holds those, newest first, and `skip` counts the samples of an asperity already found. -/
def asperities (limit : Nat) : List Int → List Int → Nat → Nat → List (Nat × Nat)
  | [], _, _, _ => []
  | x :: xs, prev, n, skip =>
    let next := (x :: prev).take 64
    if skip ≠ 0 then asperities limit xs next (n + 1) (skip - 1)
    else if prev.length < 64 ∨ xs.length < 7 then asperities limit xs next (n + 1) 0
    else
      let base := meanOf 64 prev
      let d := meanOf 8 (x :: xs) - base
      if d < -(limit : Rat) ∨ (limit : Rat) < d then
        let stop := asperityEnd limit base (x :: xs) n
        (n, stop) :: asperities limit xs next (n + 1) (stop - n - 1)
      else asperities limit xs next (n + 1) 0

/-- R93, R94: the spans that marked windows (first bit and length in codeword bits) freeze, 16 bits on each side. -/
def windowSpans (e : Nat) (ws : List (Nat × Nat)) : List (Nat × Nat) := ws.map (fun w => (e + 128 + w.1 - 16, e + 128 + w.1 + w.2 + 16))

/-- A position lies in one of some spans. -/
def inSpans (l : List (Nat × Nat)) (n : Nat) : Bool := l.any (fun w => decide (w.1 ≤ n ∧ n < w.2))

/-! ### A sector on one path -/

/-- What a path makes of a sector: the adapted values, the marks, the codeword framed from the first mark found and the one from the second
mark where that lies elsewhere (empty: none), what CH_STATUS shows, the asperities. -/
structure PathRead where
  ch : Chan91
  mark1 : Option (Int × Nat)
  mark2 : Option (Int × Nat)
  word : List Int
  alt : List Int
  locked : Bool
  frozen : Bool
  taActive : Bool
  tas : List (Nat × Nat)
  deriving DecidableEq, Repr

/-- R99: the 48 hard decisions from 8 bits before a position, the first in bit 47. -/
def markWindow (hard : Nat → Nat) (e : Nat) : Nat := (List.range 48).foldl (fun acc i => acc * 2 + hard (e + i - 8)) 0

/-- R95: a delivered soft value: the detector's, limited to ±31, times LLR_SCALE / 64, and limited again. -/
def softValue (scale : Nat) (llr : Int) : Int := satTo 31 (showRat ((satTo 31 llr : Rat) * scale / 64))

/-- R95: the span over which the detector gives soft values, for a first mark predicted at `e`. -/
def inSoftSpan (e n : Nat) : Bool := decide (e ≤ n + 8 ∧ n < e + 128 + 36992 + 8)

/-- R99, R100: marks and words from the soft values of a sector. -/
def frameSector (soft : Nat → Int) (e : Nat) : Option (Int × Nat) × Option (Int × Nat) × List Int × List Int :=
  let at_ (n : Nat) : Int := if inSoftSpan e n then soft n else 0
  let hard (n : Nat) : Nat := hardBit (at_ n)
  let m1 := findMark mark1 (markWindow hard e)
  let m2 := findMark mark2 (markWindow hard (e + 96))
  let framed (m : Option (Int × Nat)) : List Int := match m with | some x => frameWord at_ e x.1 | none => []
  (m1, m2, framed (m1.orElse (fun _ => m2)), if m1.isSome && decide (m1.map Prod.fst ≠ m2.map Prod.fst) then framed m2 else [])

/-- R91-R100: a sector's ADC codes and timing (in 1/64 bit, from the first preamble bit on) on one path, whose first mark is predicted at
`e`, with the servo wedges that split it and its marked defect windows. -/
def pathRead (k : LoopCfg) (ch : Chan91) (e : Nat) (codes timing : List Int) (wedges windows : List (Nat × Nat)) : PathRead :=
  let xs := streamOf wedges codes
  let ts := streamOf wedges timing
  let ta := if k.taEn then asperities ch.taLimit xs [] 0 0 else []
  let marked := windowSpans e (windows.take 4)
  let frozen := marked ++ ta.map (fun w => (w.1, w.2 + 64))
  let fs := (List.range xs.length).map (inSpans frozen)
  let eq := eqRun k (xs.zip fs) ⟨ch, [], [], []⟩
  let ys := eq.ys.reverse
  let tm := timingRun k (ts.zip fs) ⟨(ts.headD 0 : Int), ch.freq, 0, 0, false⟩
  let soft (n : Nat) : Int :=
    if inSpans (marked ++ ta) n || decide (xs.length ≤ n) then 0 else softValue ch.llrScale (Config.detectorLlr ys ch.target ch.noise n)
  let (m1, m2, word, alt) := frameSector soft e
  let last := xs.length - 1
  { ch := { eq.ch with noise := Config.noisePredictors ch.noise ys, freq := tm.freq }, mark1 := m1, mark2 := m2, word := word, alt := alt,
    locked := tm.locked, frozen := inSpans frozen last, taActive := inSpans ta last, tas := ta }

end Sys2Proof.Machine
end

