-- ==== Sys2Proof/Machine/ReadChannel.lean ====
section
/-!
DEFINITION. Sys2Proof/Machine/ReadChannel.lean: the read channel and the decode pool (05_read_channel.md): sectors sampled, lanes,
jobs, results, read-after-write.
-/
namespace Sys2Proof.Machine
open Reg

/-! ### Profiles and the adapted values (R91, R116, R117) -/

/-- The profile record's bytes (q × 32 on). -/
def profileByte (s : State) (q o : Nat) : Nat := bitsOf (rd s dpB (DP_PROFILE_WORD.ix (8 * q + o / 4))) (8 * (o % 4)) 8

/-- A signed byte of a profile record. -/
def profileInt (s : State) (q o : Nat) : Int := ofBits 8 (profileByte s q o)

/-- An adapted tap as CH_FIR_NOW shows it: signed, value / 64. -/
def tapShown (c : Chan91) (i : Nat) : Nat := fitBits 8 (showRat (c.taps.getD i 0 * 64))

/-- CH_FE.VGA_GAIN and CH_FIR_NOW follow the primary path's adapted values. -/
def showChannel (a : Nat) (s : State) : State :=
  let b := actBase a
  let c := (actOf s a).chn
  let four (k : Nat) := tapShown c k + tapShown c (k + 1) * 2 ^ 8 + tapShown c (k + 2) * 2 ^ 16 + tapShown c (k + 3) * 2 ^ 24
  let s := wr b CH_FE_VGA_GAIN (fitNat 5 (showRat c.gain)) s
  let s := wr b CH_FIR_NOW0_TAPS_0_3 (four 0) (wr b CH_FIR_NOW1_TAPS_4_7 (four 4) s)
  wr b CH_FIR_NOW2_TAPS_8_9 (tapShown c 8 + tapShown c 9 * 2 ^ 8) s

/-- R91, R95, R116: a path as a profile starts it. The gain that the AGC takes for GAIN_TARGET is a free value; the noise predictors start
from zero. -/
def profileChannel (s : State) (q gain : Nat) : Chan91 where
  taps := (List.range 10).map (fun i => (profileInt s q i : Rat) / 64)
  asym := profileInt s q 0x0B
  offset := profileInt s q 0x0C
  gain := (gain % 32 : Nat)
  freq := 0
  target := [profileInt s q 0x10, profileInt s q 0x11, profileInt s q 0x12]
  gainTarget := max 16 (min 63 (profileByte s q 0x0A))
  llrScale := profileByte s q 0x0F
  taLimit := profileByte s q 0x13
  noise := []

/-- R116: load a profile into both paths. -/
def loadProfile (a q : Nat) (s : State) : State :=
  let b := actBase a
  let (g, s) := takeFree s
  let c := profileChannel s q g
  let s := wr b CH_STATUS_PROFILE_IN_USE q (wr b CH_STATUS_LOCKED 0 s)
  let s := wr b CH_FE_CUTOFF (min 250 (profileByte s q 0x0D)) (wr b CH_FE_BOOST (min 60 (profileByte s q 0x0E)) s)
  showChannel a (modAct a (fun x => { x with chn := c, chk := c }) s)

/-- R117: the sum of squared differences of a profile's taps from the adapted ones. -/
def tapDistance (s : State) (a q : Nat) : Rat :=
  (List.range 10).foldl (fun acc i =>
    let d := (profileInt s q i : Rat) / 64 - (actOf s a).chn.taps.getD i 0
    acc + d * d) 0

/-- R117: the nearest profile; the lower number wins. The store is taken as it stands at the run's end (DESIGN CHOICE,
notes/assumptions/22.md). -/
def nearestProfile (s : State) (a : Nat) : Nat :=
  (List.range 64).foldl (fun best q => if tapDistance s a q < tapDistance s a best then q else best) 0

/-! ### Results (R111) -/

/-- The counters of a result. -/
def countResult (a code : Nat) (s : State) : State :=
  let b := actBase a
  if code = 8 then incF b CH_COUNT_A_SYNC_FAILS s
  else if code = 2 ∨ code = 3 then incF b CH_COUNT_B_DEEP_OK s
  else if code = 9 then incF b CH_COUNT_B_DECODE_FAILS s
  else if code = 10 then incF b CH_COUNT_C_CRC_FAILS s
  else if code = 11 then incF b CH_COUNT_C_TAG_MISMATCHES s
  else if code = 12 then incF dpB DP_COUNTS_B_REFUSED (incF b CH_COUNT_E_REFUSED s)
  else if code = 13 then incF dpB DP_COUNTS_B_WITHDRAWN s
  else s

/-- CH_ITER_AVG: the mean over the last 4,096 codewords of the actuator, times 16. -/
def iterAverage (a iters : Nat) (s : State) : State :=
  let h := (iters :: tget [] s.dec.iterHist a).take 4096
  let s := { s with dec := { s.dec with iterHist := tins s.dec.iterHist a h } }
  wr (actBase a) CH_ITER_AVG_AVG (min 4095 (h.foldl (· + ·) 0 * 16 / h.length)) s

/-- A codeword has been decoded. -/
def countWord (j : Job) (s : State) : State := iterAverage j.act j.iters (pairAdd 0x140018 1 s)

/-- Iterations run by a lane. -/
def countIters (n : Nat) (s : State) : State := pairAdd 0x140020 n s

/-- R102: the code of a converged payload, 0 if CRC and tag are right. On a Foreign reach only CRC is checked. -/
def payloadCode (s : State) (j : Job) (p : List Byte) : Nat :=
  if !payloadCrcOk p then 10
  else if (ledEntry s j.act j.reach).state = 5 then 0
  else if payloadTagOk p j.act j.reach j.slot j.wseq then 0 else 11

/-- R111: the code of a converged read job. -/
def okCode (j : Job) : Nat := if j.combine then 3 else if j.wentDeep then 2 else if j.reframed then 1 else 0

/-- R193: a mover request of the item's channel takes the sector into account. -/
def moverFeed (a n : Nat) (s : State) : State :=
  match (actOf s a).cur with
  | none => s
  | some i =>
    let c := i.mover
    let mine (r : MvReq) := decide (r.owner = a + 1) && decide (r.srcSpace = 4)
    if (chanOf s c).reqs.any mine then
      let s := modChan c (fun x => { x with reqs := x.reqs.map (fun r => if mine r then { r with left := r.left - n } else r) }) s
      let s := pairAdd (moverBase c + 0x2C) n s
      match (chanOf s c).reqs with
      | r :: _ => if mine r && decide (r.left = 0) then chanEnd c 0 s else syncChan c s
      | [] => s
    else s

/-- R193: under MOVER_OP 2 the user bytes of a good sector go to the Pool. A sector's place in the item is that of its logical slot. -/
def toPool (j : Job) (p : List Byte) (code : Nat) (s : State) : State :=
  match (actOf s j.act).cur with
  | some i =>
    if (actOf s j.act).transfer = 2 ∧ i.tag = j.tag ∧ i.sector ≤ j.sector ∧ j.sector < i.sector + i.count then
      moverFeed j.act 4096 (if code ≤ 3 then poolFill (i.pool + 4096 * (j.sector - i.sector)) (p.take 4096) s else s)
    else s
  | none => s

/-- A read sector's result reaches the run, the result map, the item, the Pool and the fetch (R193, R209, R235). A relocated copy that
fails leaves the original's result. -/
def readResult (j : Job) (code : Nat) (p : List Byte) (s : State) : State :=
  let a := j.act
  let s := readCode j code (syncDecode a (showSector j code (countResult a code s)))
  let late := decide (j.deadline ≤ now s)
  if j.slot = j.sector then
    let spent := j.combine && decide (4 ≤ code) && decide (rd s dpB DP_CTL_COMBINE_MAX ≤ j.reads)
    fetchResult a j.tag j.reach j.sector code spent late (toPool j p code s)
  else if code ≤ 3 then fetchResult a j.tag j.reach j.sector code false late (toPool j p code s)
  else s

/-! ### Read-after-write (R113-R115) -/

/-- A verify job's result. -/
def verifyResult (j : Job) (code : Nat) (s : State) : State :=
  let a := j.act
  let s := syncDecode a (showSector j code (countResult a code s))
  let s := runResult a j.tag j.slot code s
  if code = 0 then (if j.slot = j.sector then s else relocate a j.reach j.sector j.slot s)
  else syncAct a (rewriteAdd a j.reach (rewriteOf j code) s)

/-! ### Sampling (R99, R100) -/

/-- The physical slot that a read run samples next, with its logical slot; a relocated re-read follows the run's own sectors. -/
def nextRead (r : SecRun) : Option (Nat × Nat) :=
  if r.issued < r.count then some (r.start + r.issued, r.start + r.issued) else r.relocQ.head?

/-- Count the sector as sampled; the cursor stands at the next one (R187). -/
def readTaken (a : Nat) (s : State) : State :=
  match (actOf s a).run with
  | some r =>
    if r.issued < r.count then
      let s := modAct a (fun x => { x with run := some { r with issued := r.issued + 1, paused := false } }) s
      showCursor a r.reach (r.start + r.issued + 1) s
    else modAct a (fun x => { x with run := some { r with relocQ := r.relocQ.drop 1, relocated := r.relocated + 1, paused := false } }) s
  | none => s

/-- R208, R209: the write sequence that a read expects. -/
def readWseq (s : State) (a : Nat) (i : Item) (r : SecRun) (logical slot : Nat) : Option Nat :=
  if r.wseqChk then some ((i.wseq + (logical - i.sector)) % 2 ^ 32)
  else if slot = logical then none
  else some ((ledEntry s a r.reach).gen * 2 ^ 24 + logical)

/-- A new decode job for a sector of the present run. -/
def newJob (a : Nat) (i : Item) (cls : JobClass) (reach sector slot : Nat) (wseq : Option Nat) (deadline : Nat) (p : PathRead) : Job where
  act := a
  tag := i.tag
  cls := cls
  sector := sector
  slot := slot
  reach := reach
  wseq := wseq
  budget := 0
  deadline := deadline
  iters := 0
  slice := 0
  m1 := p.mark1
  m2 := p.mark2
  fromMark2 := p.mark1.isNone
  reframed := false
  wentDeep := false
  combine := false
  reads := 0
  withdrawn := false
  word := p.word
  alt := p.alt
  dec := none

/-- R110: `n` more reads of a combined sector join the sum that its slot holds, and the sum is decoded afresh. -/
def combineInto (k j : Job) (n : Nat) : Job :=
  { k with word := softAdd k.word j.word, reads := k.reads + n, dec := none, budget := 0, m1 := j.m1, m2 := j.m2, fromMark2 := j.fromMark2, tag := j.tag, deadline := j.deadline }

/-- R110: a read of a combined sector joins the sum of its slot, held, queued or being decoded (a lane then goes on with the new sum:
DESIGN CHOICE, notes/assumptions/22.md), or takes a slot. -/
def combineJob (j : Job) (n : Nat) (s : State) : State :=
  let same (k : Job) := k.combine && decide (k.act = j.act ∧ k.reach = j.reach ∧ k.slot = j.slot)
  let d := s.dec
  match d.sums.find? same with
  | some k => syncDecode j.act { s with dec := { d with sums := d.sums.erase k, deep := d.deep ++ [combineInto k j n] } }
  | none =>
    if d.deep.any same || d.lanes.any (fun e => same e.2) then
      let join (k : Job) := if same k then combineInto k j n else k
      { s with dec := { d with deep := d.deep.map join, lanes := d.lanes.map (fun e : Nat × Job => (e.1, join e.2)) } }
    else if deepUsed s < 32 ∧ combineUsed s < 16 then
      let d := { d with deep := d.deep ++ [{ j with cls := .deep, combine := true, reads := n }] }
      syncDecode j.act (incF dpB DP_COUNTS_A_DEEP_STARTED { s with dec := d })
    else readResult { j with combine := true, reads := n } 12 [] s

/-- An item for the runs of horizontal words, which carry none (R189); its tag is no requester's. -/
def noItem : Item := ⟨65536, 0, 0, 0, 1, 0, 0, 0, 0, 0, false, false⟩

/-- What CH_ADAPT, CH_TIMING and CH_CTL set of an actuator's loops. -/
def loopCfg (s : State) (a : Nat) : LoopCfg :=
  let b := actBase a
  { muGain := rd s b CH_ADAPT_MU_GAIN, muOffset := rd s b CH_ADAPT_MU_OFFSET, muAsym := rd s b CH_ADAPT_MU_ASYM, muFir := rd s b CH_ADAPT_MU_FIR,
    gainEn := flag s b CH_ADAPT_GAIN_EN, offsetEn := flag s b CH_ADAPT_OFFSET_EN, asymEn := flag s b CH_ADAPT_ASYM_EN, firEn := flag s b CH_ADAPT_FIR_EN,
    acqKp := rd s b CH_TIMING_ACQ_KP, acqKi := rd s b CH_TIMING_ACQ_KI, trkKp := rd s b CH_TIMING_TRK_KP, trkKi := rd s b CH_TIMING_TRK_KI,
    acqBits := rd s b CH_TIMING_ACQ_BITS, taEn := flag s b CH_CTL_TA_EN }

/-- A sector on a path: the primary one, or the check one. -/
def samplePath (s : State) (a : Nat) (p : ReaderPath) (e : Nat) (x : SectorIn) (windows : List (Nat × Nat)) : PathRead :=
  pathRead (loopCfg s a) (match p with | .primary => (actOf s a).chn | .check => (actOf s a).chk) e x.codes x.timing x.wedges windows

/-- CH_FE, CH_FIR_NOW and the status bits follow the primary path; each path keeps its adapted values in the run (R92). -/
def keepPath (a : Nat) (p : ReaderPath) (x : PathRead) (s : State) : State :=
  let b := actBase a
  let s := addF b CH_COUNT_D_TA_EVENTS x.tas.length s
  match p with
  | .check => modAct a (fun y => { y with chk := x.ch }) s
  | .primary =>
    let s := setF b CH_STATUS_LOCKED x.locked (setF b CH_STATUS_FROZEN x.frozen (setF b CH_STATUS_TA_ACTIVE x.taActive s))
    showChannel a (modAct a (fun y => { y with chn := x.ch }) s)

/-- R94: the marked windows of a slot of a run, up to four in order of first bit, each at most 4,096 bits long. -/
def slotWindows (r : SecRun) (slot : Nat) : List (Nat × Nat) :=
  ((r.windows.filter (fun d => decide (d.slot = slot))).take 4).map (fun d => (d.bit, min 4096 d.len))

/-- R98: the nominal position of the first mark's first bit, counted from the first preamble bit. -/
def markAt : Nat := 480

/-- R221: a read slot's asperities; one at a bit position where an earlier read of the slot showed one becomes a defect window. -/
def noteAsperities (a reach slot : Nat) (tas : List (Nat × Nat)) (s : State) : State :=
  forEach tas (fun t s =>
    let bit := t.1 - (markAt + 128)
    if t.1 < markAt + 128 ∨ 36992 ≤ bit then s
    else
      let seen := s.led.tas.any (fun d => decide (d.act = a ∧ d.reach = reach ∧ d.slot = slot ∧ d.bit = bit))
      let w : Defect := ⟨a, reach, slot, bit, max 1 (min 4096 (t.2 - t.1))⟩
      if seen then defectAdd w s else { s with led := { s.led with tas := s.led.tas ++ [w] } }) s

/-- SECTOR_SAMPLED on the primary path in a read, with the check path's samples where DUAL_READ adds them (R96). -/
def primarySampled (a : Nat) (x : SectorIn) (chk : Option SectorIn) (s : State) : State :=
  let b := actBase a
  let i := (actOf s a).cur.getD noItem
  match (actOf s a).run with
  | some r =>
    match nextRead r with
    | none => s
    | some (logical, slot) =>
      if r.op ≠ 1 ∨ 8 ≤ softUsed s a then s
      else
        let ws := slotWindows r slot
        let p := samplePath s a .primary markAt x ws
        let dual := if flag s b CH_CTL_DUAL_READ && flag s b CH_CTL_CHK_ON then chk.map (fun y => samplePath s a .check markAt y ws) else none
        let s := noteAsperities a r.reach slot p.tas (keepPath a .primary p s)
        let s := match dual with | some q => keepPath a .check q s | none => s
        let other (f : PathRead → List Int) : List Int := match dual with | some q => f q | none => []
        let second (q : PathRead) : List Int := if q.alt = [] then q.word else q.alt
        let word := softAdd p.word (other PathRead.word)
        let alt := if p.alt = [] ∧ other PathRead.alt = [] then [] else softAdd (second p) (other second)
        let n := (if p.word = [] then 0 else 1) + (if other PathRead.word = [] then 0 else 1)
        let j := newJob a i .first r.reach logical slot (readWseq s a i r logical slot) (readDeadline s a r slot) { p with word := word, alt := alt }
        let s := readTaken a s
        if word = [] then readResult j 8 [] s
        else if r.combine then combineJob j n s
        else syncDecode a { s with dec := { s.dec with first := s.dec.first ++ [j] } }
  | none => s

/-- R76: the preamplifier amplifies the check reader. -/
def checkAmplified (s : State) (a : Nat) : Bool := bitOf (tget 0 (actOf s a).pre 2) 2

/-- A path that samples nothing. -/
def lostPath (c : Chan91) : PathRead where
  ch := c
  mark1 := none
  mark2 := none
  word := []
  alt := []
  locked := false
  frozen := false
  taActive := false
  tas := []

/-- SECTOR_SAMPLED on the check path during a write: the oldest written sector not yet verified, framed at the check-reader delay (R99,
R113). A path that is not powered, or whose reader is not amplified, loses the sector (R114). -/
def checkSampled (a : Nat) (x : SectorIn) (s : State) : State :=
  let b := actBase a
  match (actOf s a).cur, (actOf s a).run with
  | some i, some r =>
    match r.verifyQ with
    | [] => s
    | w :: rest =>
      let s := modAct a (fun x => { x with run := some { r with verifyQ := rest } }) s
      let on := flag s b CH_CTL_CHK_ON && checkAmplified s a
      let p := if on then samplePath s a .check (markAt + rd s b CH_CHK_DELAY_DELAY) x [] else lostPath (actOf s a).chk
      let s := keepPath a .check p s
      let j := newJob a i .verify r.reach w.sector w.slot (some w.wseq) (now s + revTicks s a) p
      if p.word = [] then verifyResult j 8 s
      else if 8 ≤ softUsed s a then verifyResult j 12 s
      else syncDecode a { s with dec := { s.dec with first := s.dec.first ++ [j] } }
  | _, _ => s

/-- A sector sampled: on the primary path, while it is powered, or on the check path. -/
def sampledOp (a : Nat) (p : ReaderPath) (x : SectorIn) (chk : Option SectorIn) (s : State) : State :=
  match p with
  | .primary => if flag s (actBase a) CH_CTL_PRI_ON then primarySampled a x chk s else s
  | .check => checkSampled a x s

def execSectorSampled (a : ActId) (p : ReaderPath) (x : SectorIn) (chk : Option SectorIn) (s : State) : Res State :=
  run .core (sampledOp a.val p x chk) s

/-! ### Lanes (R107) -/

/-- The job with the earliest deadline, the oldest of equals. -/
def earliest : List Job → Option Job
  | [] => none
  | j :: l => match earliest l with
    | none => some j
    | some k => if j.deadline ≤ k.deadline then some j else some k

/-- A lane takes a job. -/
def laneTake (l : Nat) (j : Job) (s : State) : State :=
  syncDecode j.act { s with dec := { s.dec with lanes := tins s.dec.lanes l j } }

/-- A slice of the deep job with the earliest deadline. -/
def takeDeep (l : Nat) (s : State) : State :=
  match earliest s.dec.deep with
  | none => s
  | some j =>
    let s := { s with dec := { s.dec with deep := s.dec.deep.erase j } }
    laneTake l { j with slice := min 8 (rd s dpB DP_CTL_DEEP_ITER - j.budget) } s

/-- The verify or first-pass job with the earliest deadline, with its budget (R106). -/
def takeFirst (l : Nat) (s : State) : State :=
  match earliest s.dec.first with
  | none => s
  | some j =>
    let s := { s with dec := { s.dec with first := s.dec.first.erase j } }
    let n := if j.cls = .verify then rd s (actBase j.act) CH_RAW_CFG_ITER_LIMIT else rd s dpB DP_CTL_FIRST_ITER
    laneTake l { j with slice := n } s

/-- R107: a lane becomes free. -/
def laneFreeOp (l : Nat) (s : State) : State :=
  if bitOf (rd s dpB DP_LANE_UP_IN_SERVICE) l && !underReset s 3 l && (tfind s.dec.lanes l).isNone then
    let running := s.dec.lanes.countP (fun e => decide (e.2.cls = .deep))
    if !s.dec.deep.isEmpty && decide (running < rd s dpB DP_CTL_DEEP_FLOOR) then takeDeep l s
    else if !s.dec.first.isEmpty then takeFirst l s
    else if !s.dec.deep.isEmpty && decide (running < rd s dpB DP_CTL_DEEP_LANES) then takeDeep l s
    else s
  else s

def execLaneFree (l : LaneId) (s : State) : Res State := run .core (laneFreeOp l.val) s

/-- What the lane of a job makes of it in the slice or budget that it was given (R105). -/
def jobDecode (j : Job) : Decoded := laneDecode (j.dec.getD (decFresh j.word)) j.slice

/-- The job of a lane ends its slice or budget: the lane is empty, the iterations count, the decoder's state stays with the job (R108).
`budget` of a deep job is what it has used of DEEP_ITER. -/
def laneEnds (l : Nat) (j : Job) (s : State) : Job × State :=
  let d := jobDecode j
  let s := { s with dec := { s.dec with lanes := tdel s.dec.lanes l } }
  ({ j with iters := j.iters + d.iters, budget := j.budget + d.iters, dec := some d.st }, countIters d.iters (syncDecode j.act s))

/-- An error in a soft buffer slot or a deep store slot (R112), which the next sector writes whole: whether it is uncorrectable, the
memory's log, and An's lasting fault for its soft buffer (R391). -/
def slotError (j : Job) (err : Option MemErr) (s : State) : Bool × State :=
  match err with
  | none => (false, s)
  | some e =>
    if j.cls = .deep then sramRead 0x14FC00 0 0 e s
    else match sramRead (fbAct j.act) 0 0 e s with
      | (true, s) => (true, lastingFault (fbAct j.act) 0 8 s)
      | r => r

/-- A job whose slot has an uncorrectable error leaves its lane (R112). -/
def laneAbandon (l : Nat) (j : Job) (s : State) : State := syncDecode j.act { s with dec := { s.dec with lanes := tdel s.dec.lanes l } }

/-- A read job ends with a converged decode. -/
def readConverged (j : Job) (d : Decoded) (s : State) : State :=
  let c := payloadCode s j d.payload
  readResult j (if c = 0 then okCode j else c) d.payload (countWord j s)

/-- R100: a first-pass job that is to be framed from the second mark. -/
def reframes (j : Job) : Bool := decide (j.alt ≠ []) && !j.reframed

/-- R107: a first-pass job that has not converged. -/
def firstFails (j : Job) (s : State) : State :=
  if reframes j then
    let s := incF (actBase j.act) CH_COUNT_A_REFRAMES s
    let k := { j with reframed := true, fromMark2 := true, word := j.alt, alt := [], dec := none }
    syncDecode j.act { s with dec := { s.dec with first := s.dec.first ++ [k] } }
  else
    let more := decide (rd s dpB DP_CTL_FIRST_ITER < rd s dpB DP_CTL_DEEP_ITER)
    if more && decide (deepUsed s < 32) then
      let s := incF dpB DP_COUNTS_A_DEEP_STARTED s
      syncDecode j.act { s with dec := { s.dec with deep := s.dec.deep ++ [{ j with cls := .deep, wentDeep := true }] } }
    else if more then readResult j 12 [] s
    else readResult j 9 [] (countWord j s)

/-- The job that a lane runs, if it is of a class. -/
def laneJob (s : State) (l : Nat) (c : JobClass) : Option Job := (tfind s.dec.lanes l).filter (fun j => decide (j.cls = c))

def firstEndOp (l : Nat) (err : Option MemErr) (s : State) : State :=
  match laneJob s l .first with
  | none => s
  | some j =>
    let (bad, s) := slotError j err s
    if bad then readResult j 14 [] (laneAbandon l j s) else
    let d := jobDecode j
    let (j, s) := laneEnds l j s
    if d.converged then readConverged j d s
    else if j.withdrawn then reportWithdrawn j s
    else firstFails j s

def execFirstPassJobEnd (l : LaneId) (err : Option MemErr) (s : State) : Res State := run .core (firstEndOp l.val err) s

/-- R110: a combined decode that has used its budget: DECODE_FAIL; the slot keeps the sum until COMBINE_MAX reads. -/
def combineFails (j : Job) (s : State) : State :=
  let s := if j.reads < rd s dpB DP_CTL_COMBINE_MAX then { s with dec := { s.dec with sums := s.dec.sums ++ [{ j with budget := 0, slice := 0, dec := none }] } } else s
  readResult j 9 [] (syncDecode j.act s)

/-- R107: a deep slice ends. -/
def deepEndOp (l : Nat) (err : Option MemErr) (s : State) : State :=
  match laneJob s l .deep with
  | none => s
  | some j =>
    let (bad, s) := slotError j err s
    if bad then readResult j 14 [] (laneAbandon l j s) else
    let d := jobDecode j
    let (j, s) := laneEnds l j s
    if d.converged then readConverged j d s
    else if j.withdrawn then reportWithdrawn j s
    else if rd s dpB DP_CTL_DEEP_ITER ≤ j.budget then
      let s := countWord j (incF dpB DP_COUNTS_A_DEEP_EXHAUSTED s)
      if j.combine then combineFails j s else readResult j 9 [] s
    else syncDecode j.act { s with dec := { s.dec with deep := s.dec.deep ++ [j] } }

def execDeepSliceEnd (l : LaneId) (err : Option MemErr) (s : State) : Res State := run .core (deepEndOp l.val err) s

/-- R114: the code of a verify job that has ended: the decoder may have changed at most FLIP_LIMIT hard decisions of the detector. -/
def verifyCode (s : State) (j : Job) (d : Decoded) : Nat :=
  if !d.converged then 9
  else match payloadCode s j d.payload with
    | 0 => if rd s (actBase j.act) CH_RAW_CFG_FLIP_LIMIT < flipped j.word d.st.post then 15 else 0
    | c => c

def verifyEndOp (l : Nat) (err : Option MemErr) (s : State) : State :=
  match laneJob s l .verify with
  | none => s
  | some j =>
    let (bad, s) := slotError j err s
    if bad then verifyResult j 14 (laneAbandon l j s) else
    let d := jobDecode j
    let (j, s) := laneEnds l j s
    if !d.converged && j.withdrawn then reportWithdrawn j s
    else verifyResult j (verifyCode s j d) (countWord j s)

def execVerifyJobEnd (l : LaneId) (err : Option MemErr) (s : State) : Res State := run .core (verifyEndOp l.val err) s

/-! ### Registers -/

def laneEnOp (v : Nat) (s : State) : State := syncLanes (plainWrite 0x140004 v s)

def execDpLaneEnWrite (p : Path) (v : Word) (s : State) : Res State := runWrite p 0x140004 v.toNat (laneEnOp v.toNat) s

def execDpCtlWrite (p : Path) (v : Word) (s : State) : Res State := runWrite p 0x140000 v.toNat (checkedWrite p 0x140000 v.toNat) s

end Sys2Proof.Machine
end

