-- ==== Sys2Proof/Machine/Flags.lean ====
section
/-!
DEFINITION. Sys2Proof/Machine/Flags.lean: the conditions of the actuator sequencers (R191) and the times of a wait (R192).
-/
namespace Sys2Proof.Machine
open Reg

/-- The results of the run's own sectors. -/
def ownResults (r : SecRun) : List Nat := (r.results.filter (fun e => decide (e.1 < 2 ^ 20))).map Prod.snd

/-- Condition 8: every sector is issued and every result is in. -/
def runComplete (r : SecRun) : Bool :=
  decide (r.count ≤ r.issued) && r.relocQ.isEmpty && decide (r.count ≤ (ownResults r).length)
    && decide (r.relocated ≤ r.results.countP (fun e => decide (2 ^ 20 ≤ e.1)))

/-- Some result of the last run is one of the given codes. -/
def runHas (s : State) (a : Nat) (codes : List Nat) : Bool :=
  match (actOf s a).run with
  | some r => (ownResults r).any (fun c => codes.contains c)
  | none => false

/-- Condition 17: the write path holds the next codeword of a write run, which the mover has brought (R194). A rewrite takes its bytes from
the item's Pool buffer itself. -/
def codewordReady (s : State) (a : Nat) : Bool :=
  match (actOf s a).run with
  | some r => decide (r.op = 3) || decide (4096 ≤ (actOf s a).fifo.length)
  | none => decide (4096 ≤ (actOf s a).fifo.length)

/-- Condition 18: the item's transfer is no longer on its channel. -/
def transferDone (s : State) (a : Nat) : Bool :=
  match (actOf s a).cur with
  | some i => !(chanOf s i.mover).reqs.any (fun q => decide (q.owner = a + 1))
  | none => true

/-- Condition 38: the deadline has passed for a sector without a result. -/
def deadlinePassed (s : State) (a : Nat) : Bool :=
  match (actOf s a).cur, (actOf s a).run with
  | some i, some r =>
    let late (j : Job) := decide (j.act = a) && decide (j.tag = i.tag) && decide (j.deadline ≤ now s)
    decide (r.op = 1) && (s.dec.first.any late || s.dec.deep.any late || s.dec.lanes.any (fun e => late e.2)
      || (List.range r.count).any (fun k => decide (r.issued ≤ k) && decide (readDeadline s a r (r.start + k) ≤ now s)))
  | _, _ => false

/-- The entry of the current item's reach. -/
def curEntry (s : State) (a : Nat) : Option LedEntry := (actOf s a).cur.map (fun i => ledEntry s a i.reach)

/-- R191: the conditions. `w` is the wait in progress (conditions 4 and 5). -/
def cond (s : State) (a : Nat) (w : Option Wait) (code : Nat) : Bool :=
  let b := actBase a
  let x := actOf s a
  let n := portOfAct a
  match code with
  | 0 => true
  | 1 => !x.work.isEmpty
  | 2 => decide (svState s a = 4)
  | 3 => flag s b SV_STATE_WR_OK
  | 4 => match w with | some w => w.wedge | none => false
  | 5 => match w with | some w => w.index | none => false
  | 6 => flag s b AS_STATUS_GRANTED
  | 7 => x.gates.any
  | 8 => match x.run with | some r => runComplete r | none => true
  | 9 => match x.run with | some r => (ownResults r).all (fun c => decide (c ≤ 3)) | none => true
  | 10 => runHas s a [8]
  | 11 => runHas s a [9]
  | 12 => runHas s a [10, 11]
  | 13 => runHas s a [12, 14]
  | 14 => !x.rw.isEmpty
  | 15 => decide (64 ≤ x.rw.length)
  | 16 => decide (softUsed s a < 8)
  | 17 => codewordReady s a
  | 18 => transferDone s a
  | 19 => x.curMoverErr
  | 20 => x.frames.isEmpty
  | 21 => x.frameFailed
  | 22 => flag s (portBase n) (fltField a)
  | 23 => flag s (portBase n) HDA_STATUS_SHOCK
  | 24 => decide (rd s b AS_LOOP_COUNTER = 0)
  | 25 => decide (writtenSlots (ledEntry s a x.curReach) ≤ rd s b AS_CURSOR_SECTOR)
  | 26 => match curEntry s a with | some e => decide (lastSlot ≤ e.wp) | none => false
  | 27 => match curEntry s a with | some e => decide (e.state = 1) | none => false
  | 28 => decide (rd s (portBase n) SP_STATUS_REGION = 1)
  | 29 => decide (svState s a = 0)
  | 30 => decide (svState s a = 7)
  | 31 => flag s b SV_EVENTS_RETRACTED
  | 32 => flag s b SV_EVENTS_SETTLE_TIMEOUT
  | 33 => flag s b SV_EVENTS_LOAD_FAIL
  | 34 => flag s (leBase a) LE_STATUS_SET_INVALID
  | 35 => flag s (leBase a) LE_STATUS_TUNE_DONE
  | 36 => flag s (leBase a) LE_STATUS_TUNE_ABORTED
  | 37 => match x.cur with | some i => i.withdrawn | none => false
  | 38 => deadlinePassed s a
  | 39 => decide (service s = 3)
  | 40 => s.pwr.failing
  | 41 => decide (x.doneQ.length < 16)
  | c =>
    if 42 ≤ c ∧ c ≤ 47 then bitOf (rd s b AS_FLAGS_SW_FLAG) (c - 42)
    else if 48 ≤ c ∧ c ≤ 55 then bitOf (rd s b AS_LOOP_CUST_FLAG) (c - 48)
    else false

/-- The last measured wedge period in ns, or that of the target speed while none has been measured. -/
def wedgeNs (s : State) (a : Nat) : Nat :=
  match (actOf s a).periods with
  | p :: _ => p
  | [] => ceilDiv (60 * 10 ^ 9) (480 * max 1 (rd s (portBase (portOfAct a)) SP_SPEED_TARGET))

/-- R192: a wait's window in ticks, rounded up (R69). -/
def waitTicks (s : State) (a unit count : Nat) : Nat :=
  let n := max 1 count
  if unit = 0 then usecs n
  else if unit = 1 then usecs (100 * n)
  else if unit = 2 then ceilDiv (n * wedgeNs s a * 2 ^ 24) (10 ^ 9)
  else n * revTicks s a

end Sys2Proof.Machine
end

