-- ==== Sys2Proof/Machine/SeqWords.lean ====
section
/-!
DEFINITION. Sys2Proof/Machine/SeqWords.lean: the control stores and their words (R185-R189, R197, R201), the cursor, sector runs
(R187, R193, R194, R207) and the actions of one nano-word (R188, R196, R200).
-/
namespace Sys2Proof.Machine
open Reg

/-! ### Control stores (R197) -/

/-- R185: what the library holds at microword 0, a fetch, and at entry points 5 to 63, a return that is always taken. Its other words are
the package's (R198, R420; notes/assumptions/7.md). -/
def libraryWord (off : Nat) : Option Nat :=
  if off = 0 then some 0xCC0000
  else if off % 4 = 0 ∧ 20 ≤ off ∧ off ≤ 252 then some 0x40C000
  else none

/-- A word of An's control store. A word that neither a package nor software wrote is the library's where R185 gives it, and open
elsewhere. -/
def storeRead (s : State) (a off : Nat) : Nat :=
  let key := a * 0x20000 + off
  match tfind s.stores key with
  | some v => v
  | none => (libraryWord off).getD (Config.surroundings key % 2 ^ 32)

/-- A microword (bits [31:24] read as 0). -/
def microWord (s : State) (a pc : Nat) : Nat := storeRead s a (4 * pc) % 2 ^ 24

/-- `n` 32-bit words of a store, least significant first. -/
def wideWord (s : State) (a off : Nat) : Nat → Nat
  | 0 => 0
  | n + 1 => wideWord s a off n + storeRead s a (off + 4 * n) % 2 ^ 32 * 2 ^ (32 * n)

def nanoWord (s : State) (a j : Nat) : Nat := wideWord s a (0x8000 + 32 * j) 5
def horizWord (s : State) (a k : Nat) : Nat := wideWord s a (0xC000 + 32 * k) 6 % 2 ^ 176

/-- R197: microwords 6,144 to 8,191. -/
def inRegion (pc : Nat) : Bool := decide (6144 ≤ pc ∧ pc ≤ 8191)

/-- R185: a valid ENTRY. -/
def entryOk (e : Nat) : Bool := decide (e ≤ 63) || inRegion e

def wKind (w : Nat) : Nat := bitsOf w 22 2
def wCond (w : Nat) : Nat := bitsOf w 16 6
def wSense (w : Nat) : Bool := bitOf w 15
def wTarget (w : Nat) : Nat := bitsOf w 0 13
def wBranchOp (w : Nat) : Nat := bitsOf w 13 2
def wSpecialOp (w : Nat) : Nat := bitsOf w 18 4

/-- R201: a nano-word without a reserved value or a bit outside its fields, and with a valid count. -/
def nanoLegal (n arg : Nat) : Bool :=
  decide (bitsOf n 62 2 = 0) && decide (bitsOf n 96 64 = 0) && decide (bitsOf n 6 2 ≠ 3) && decide (bitsOf n 13 4 ≤ 10)
    && decide (bitsOf n 39 3 ≤ 4) && decide (bitsOf n 42 2 ≠ 3) && (!bitOf n 5 || decide (1 ≤ arg ∧ arg ≤ 256))

/-- R201: a microword legal at its place. `s` gives the nano-word it names. -/
def microLegal (s : State) (a pc w : Nat) : Bool :=
  match wKind w with
  | 0 => nanoLegal (nanoWord s a (bitsOf w 13 9)) (bitsOf w 0 13)
  | 1 => decide (wBranchOp w ≠ 3) || (decide (wCond w = 0) && !wSense w)
  | 2 => true
  | _ => decide (wSpecialOp w ≤ 3) && decide (bitsOf w 13 5 = 0) && !(decide (wSpecialOp w = 2) && inRegion pc)

/-- R199: the further rules of a word of the customer-open region. -/
def regionLegal (s : State) (a pc w : Nat) : Bool :=
  microLegal s a pc w
    && (decide (wKind w ≠ 1) || decide (wBranchOp w = 2) || entryOk (wTarget w))

/-! ### The end of an item, and breaches -/

/-- R216, R220: the copy of a member that is being copied out stands in the index for the member. -/
def copyIndexed (c : Copy) (s : State) : State :=
  let s := { s with led := { s.led with copying := s.led.copying.erase c } }
  modStripe c.sid (fun r => { r with places := r.places.set c.member (some c.target) }) s

/-- R212: the journal's cell entry of a write item that ends with status 0x00 or 0x01. Where no object holds the cell its fields are free
values. A copied cell enters the index first (R216). -/
def journalCell (a : Nat) (s : State) : State :=
  let x := actOf s a
  match x.cur with
  | none => s
  | some i =>
    if 0 < x.itemPos ∧ itemStatus x ≤ 1 then
      let here (c : CellPlace) := decide (c = ⟨a, i.reach, x.itemFirst⟩)
      let s := match s.led.copying.find? (fun c => here c.target) with
        | some c => copyIndexed c s
        | none => s
      match (membersOn s here).head? with
      | some (sid, m) =>
        match stripeOf s sid, objOf s (sid / 2 ^ 24) with
        | some r, some o =>
          let start := stripeStart o.stripes sid + m * 2 ^ 20
          let valid := if m < r.j then min (2 ^ 20) (o.value.length - start) else 2 ^ 20
          addJournal a i.reach ⟨1, o.key, [r.j, r.m, m], x.itemFirst, valid, sid, storeStamp o, 0⟩ s
        | _, _ => s
      | none =>
        let (v, s) := takeFree s
        let (t, s) := takeFree s
        addJournal a i.reach ⟨1, [BitVec.ofNat 8 v], [], x.itemFirst, min (2 ^ 20) (4096 * x.itemPos), v, ⟨t, v, t⟩, 0⟩ s
    else s

/-- End the item and continue at microword 0; an actuator left idle takes the ledger's own work (R213, R220). -/
def finishItem (a : Nat) (s : State) : State := goMicro a 0 (idleWork a (endItem a (journalCell a s)))

/-- R200: a breach ends the item with status 0x07. -/
def breach (a pc : Nat) (counted : Bool) (s : State) : State :=
  let b := actBase a
  let s := when counted (fun s => hist (fbAct a) { code := 2, detail := pc } (incF b AS_COUNTS_B_VIOLATIONS (wr b AS_STATUS_VIOLATION 1 s))) s
  goMicro a 0 (endItem a (modAct a (fun x => { x with curViolation := true }) s))

/-- R201: an illegal word. -/
def illegalOp (a pc : Nat) (region : Bool) (s : State) : State :=
  let b := actBase a
  let s := incF b AS_COUNTS_B_ILLEGALS s
  if region then
    let s := wr b AS_CUST_ARMED 0 s
    goMicro a 0 (endItem a (modAct a (fun x => { x with curIllegal := true }) s))
  else lastingFault (fbAct a) 0 6 (hist (fbAct a) { code := 8, cls := 2, detail := pc } (wr b AS_STATUS_ILLEGAL 1 s))

/-! ### Sector runs -/

/-- Entry e of the profile map. -/
def profileMap (s : State) (e : Nat) : Nat :=
  let f := if e % 4 = 0 then DP_PROFILE_MAP_ENTRY_0 else if e % 4 = 1 then DP_PROFILE_MAP_ENTRY_1 else if e % 4 = 2 then DP_PROFILE_MAP_ENTRY_2
    else DP_PROFILE_MAP_ENTRY_3
  rd s dpB (f.ix (e / 4))

/-- R116: the profile of a run over a reach. -/
def chooseProfile (s : State) (a : Nat) (e : LedEntry) : Nat :=
  if flag s (actBase a) CH_CTL_PROFILE_FORCE then rd s (actBase a) CH_CTL_PROFILE
  else if e.profile ≤ 63 ∧ e.days < 365 then e.profile
  else
    let t := ofBits 8 e.temp
    let tb := if t < 10 then 0 else if 70 ≤ t then 7 else t.toNat / 10
    let age := (now s / 2 ^ 24 - e.openTime) / 86400
    let ab := [30, 180, 365, 730, 1826, 3652, 9131].countP (fun d => decide (d ≤ age))
    profileMap s (8 * tb + ab)

/-- R234: DL of a run: 0 from the descriptor, 1 AS_READ_DEADLINE, 2 one revolution. -/
def runDeadline (s : State) (a sel us : Nat) : Nat :=
  if sel = 2 then revTicks s a
  else if sel = 0 ∧ us ≠ 0 then usecs us
  else usecs (rd s (actBase a) AS_READ_DEADLINE_DEADLINE)

/-- A fresh sector run. -/
def newRun (op reach start count : Nat) : SecRun where
  op := op
  reach := reach
  test := false
  angle := 0
  windows := []
  last := none
  wasCut := false
  count := count
  start := start
  raw := false
  wseqChk := false
  combine := false
  advance := false
  deadline := 0
  began := 0
  issued := 0
  results := []
  relocated := 0
  verifying := false
  paused := false
  verifyQ := []
  relocQ := []

/-- R221: the defect windows of the slots of a run, which the channel is passed. -/
def runWindows (s : State) (a reach start count : Nat) : List Defect :=
  s.led.defects.filter (fun d => decide (d.act = a ∧ d.reach = reach ∧ start ≤ d.slot ∧ d.slot < start + count))

/-- A read run (R193) of sectors of the cursor's reach. -/
def beginRead (a reach start count deadline : Nat) (wseqChk combine : Bool) (s : State) : State :=
  let moved := (relocsOf s a reach).filter (fun e => decide (start ≤ e.1 ∧ e.1 < start + count))
  let verifying := match (actOf s a).cur with | some i => decide (i.entry = 3) | none => false
  let s := loadProfile a (chooseProfile s a (ledEntry s a reach)) s
  let r : SecRun := { newRun 1 reach start count with
    angle := rd s (actBase a) SV_STATE_WEDGE, windows := runWindows s a reach start count, wseqChk := wseqChk, combine := combine,
    deadline := deadline, began := now s, verifying := verifying, relocQ := moved }
  let s := modAct a (fun x => { x with run := some r }) s
  if verifying then passItem a reach start s else s

/-- The place of a cell in the directory, the index and the copies follows the slot at which its write starts (R251, R212). -/
def placeCell (a : Nat) (i : Item) (wp : Nat) (s : State) : State :=
  match s.pool.segs.find? (fun e => decide (segAddr e.1 = i.pool) && decide (e.2.act = a ∧ e.2.reach = i.reach)) with
  | none => s
  | some (k, g) =>
    if g.slot = wp then s
    else
      let old : CellPlace := ⟨a, i.reach, g.slot⟩
      let new : CellPlace := ⟨a, i.reach, wp⟩
      let s := { s with pool := { s.pool with segs := tins s.pool.segs k { g with slot := wp } } }
      let moved := s.led.copying.map (fun (c : Copy) => if c.target = old then { c with target := new } else c)
      let s := { s with led := { s.led with copying := moved } }
      let fix (p : Option CellPlace) := if p = some old then some new else p
      let fixObj (o : Obj) := { o with stripes := o.stripes.map (fun r => { r with places := r.places.map fix }) }
      { s with obj := { s.obj with objs := s.obj.objs.map (fun e : Nat × Obj => (e.1, fixObj e.2)) } }

/-- A write run: COUNT sectors at the write pointer, or every entry of the rewrite queue, whose drain reopens a gate that the full queue
closed (R115). -/
def beginWrite (a op reach count : Nat) (raw advance : Bool) (s : State) : State :=
  let n := if op = 3 then (actOf s a).rw.length else count
  gateUpdate a (modAct a (fun x => { x with run := some { newRun op reach 0 n with raw := raw, advance := advance, began := now s } }) s)

/-- R189: the test sector of a horizontal word, whose bytes are a free value and which belongs to no reach's data. -/
def testSector (a : Nat) (r : SecRun) (s : State) : State :=
  let (v, s) := takeFree s
  let user := (List.range 4096).map (fun i => BitVec.ofNat 8 (v / 256 ^ i))
  let s := slotOut a r.reach r.start (wseqOf (ledEntry s a r.reach) 0 r.start) user s
  modAct a (fun x => { x with writing := true, run := some { r with issued := r.issued + 1, results := tins r.results r.start 0 } }) s

/-- R194, R115: the user bytes of the next sector: those that the mover brought, or in a rewrite those of the item's Pool buffer at the
sector's place in the item. -/
def writeUser (s : State) (a : Nat) (i : Item) (op : Nat) (w : Rewrite) : List Byte :=
  if op = 3 then poolBytes s (i.pool + 4096 * ((w.wseq + 2 ^ 32 - i.wseq % 2 ^ 32) % 2 ^ 32)) 4096 else (actOf s a).fifo.take 4096

/-- R207-R209, R437: one sector of a run goes to its slot: the next of the item at base + its position, or the oldest rewrite. -/
def writeSector (a : Nat) (i : Item) (r : SecRun) (s : State) : State :=
  let x := actOf s a
  let e := ledEntry s a i.reach
  let slot := if r.advance then e.wp else e.wp + r.issued
  let w : Rewrite := if r.op = 3 then { (x.rw.headD ⟨slot, slot, 0, 0⟩) with slot := slot } else ⟨slot, slot, 0, (i.wseq + x.itemPos) % 2 ^ 32⟩
  let s := slotOut a i.reach slot w.wseq (writeUser s a i r.op w) s
  let s := when (decide (r.op = 2 ∧ x.itemPos = 0)) (fun s => placeCell a i slot (modAct a (fun x => { x with itemFirst := slot }) s)) s
  let r := { r with issued := r.issued + 1, paused := false, wasCut := false, last := some w }
  let r := if r.raw then { r with verifyQ := r.verifyQ ++ [w] } else { r with results := tins r.results slot 0 }
  let s := modAct a (fun x =>
    let x := if r.op = 3 then rewriteTake x else { x with fifo := x.fifo.drop 4096, itemPos := x.itemPos + 1 }
    { x with run := some r, writing := true }) s
  let s := retryPassed a (if r.advance then wpAdvance a i.reach s else s)
  let full := decide ((ledEntry s a i.reach).wp = lastSlot) && decide (r.issued < r.count)
  let s := when full (modAct a (fun x => { x with curFull := true, run := some { r with count := r.issued } })) s
  syncAct a (closeIfLast a i.reach s)

/-- R61: the next codeword is not there: the write output ends with the sector in progress and the run waits, one cut counted however many
slots pass. -/
def cutWrite (a : Nat) (r : SecRun) (s : State) : State :=
  let s := when (!r.wasCut) (incF fabB FAB_CUTS_WRITE_CUTS) s
  modAct a (fun x => { x with writing := false, run := some { r with wasCut := true } }) s

/-- R207, R437: a slot begins under the writer. Slot 0 takes the reach header (R210, R215), the last slot the closing journal. -/
def writeSlotOp (a : Nat) (s : State) : State :=
  let x := actOf s a
  match x.run with
  | none => s
  | some r =>
    if (r.op ≠ 2 ∧ r.op ≠ 3) ∨ r.count ≤ r.issued ∨ flag s (actBase a) AS_STATUS_GRANTED = false then s
    else if r.test then testSector a r s
    else match x.cur with
      | none => s
      | some i =>
        let e := ledEntry s a i.reach
        if e.state ≠ 1 then s
        else if e.wp = 0 then headerFirst a i.reach (modAct a (fun x => { x with writing := true }) s)
        else if e.wp = lastSlot then
          closeReach a i.reach (modAct a (fun x => { x with curFull := true, run := some { r with count := r.issued }, writing := false }) s)
        else if codewordReady s a then writeSector a i r s
        else cutWrite a r s

/-- A write run that has ended leaves the write output idle; a verifying run ends its part of the pass (R117, R219). -/
def runEndOp (a : Nat) (s : State) : State :=
  match (actOf s a).run with
  | none => s
  | some r =>
    if runComplete r then
      let s := modAct a (fun x => { x with run := some { r with verifying := false, last := none }, writing := false }) s
      if r.verifying then
        let s := if 256 ≤ r.count then (let q := nearestProfile s a; modEntry a r.reach (fun e => { e with profile := q }) s) else s
        passRun a r.reach r.start r.count r.results s
      else s
    else s

/-! ### Nano-words (R187, R188) -/

/-- PRE_MODE as last written, frames on their way included. -/
def modeWritten (s : State) (a : Nat) : Nat :=
  match ((actOf s a).frames.filter (fun f => !f.read && decide (f.addr = 2))).getLast? with
  | some f => f.data
  | none => tget 0 (actOf s a).pre 2

/-- R196: the frame of a PA_OP: read, address, data. -/
def paFrame (s : State) (a op : Nat) (table : Bool) (data : Nat) : Bool × Nat × Nat :=
  let h := rd s (actBase a) AS_CURSOR_HEAD
  match op with
  | 1 => (false, 2, data)
  | 2 => (false, 3, if table then h else data)
  | 3 => (false, 4, if table then rd s (actBase a) (AS_HEAD_0_WR_CUR.ix h) else data)
  | 4 => (false, 5, if table then rd s (actBase a) (AS_HEAD_0_HEAT.ix h) else data)
  | 5 => (false, 6, data)
  | 6 => (false, 8, data)
  | 7 => (true, 1, 0)
  | 8 => (false, 1, (actOf s a).statusRead)
  | 9 => (true, 7, 0)
  | _ => (true, 0, 0)

/-- A sequencer's request on its item's channel (R193, R194). -/
def seqRequest (a srcSpace src dstSpace dst count : Nat) (c : Nat) (s : State) : State :=
  if (unitOf s 0x18FC00 c).inFault then modAct a (fun x => { x with curMoverErr := true }) s
  else
    let prio := rd s (moverBase c) MV_CTL_PRIO
    syncChan c (modChan c (fun x => { x with reqs := x.reqs ++ [⟨srcSpace, src, dstSpace, dst, count, count, prio, none, false, none, a + 1⟩] }) s)

/-- MOVER_OP (R187). -/
def moverOp (a op : Nat) (i : Item) (count : Nat) (s : State) : State :=
  let bytes := 4096 * count
  match op with
  | 1 => seqRequest a 0 i.pool 3 0 bytes i.mover (modAct a (fun x => { x with transfer := 1 }) s)
  | 2 => seqRequest a 4 0 0 i.pool bytes i.mover (modAct a (fun x => { x with transfer := 2 }) s)
  | 3 => match (actOf s a).run with
    | some r => forEach r.results (fun e s => when (decide (e.1 < 2 ^ 20)) (mapByte a i.tag e.1 e.2) s) s
    | none => s
  | 4 =>
    let mine (q : MvReq) := decide (q.owner = a + 1)
    match (chanOf s i.mover).reqs.find? mine with
    | some q =>
      let s := modAct a (fun x => { x with transfer := if q.left = 0 then x.transfer else 3 }) s
      let s := modAct a (fun x => { x with fifo := [] }) s
      syncChan i.mover (chanOutcome i.mover 2 q.left (modChan i.mover (fun x => { x with reqs := x.reqs.filter (fun q => !mine q) }) s))
    | none => s
  | _ => s

/-- R200: what the customer-open region may not do. `sector` is the cursor after step 1. -/
def customerBreach (s : State) (a n sector : Nat) : Bool :=
  let op := bitsOf n 0 2
  let pa := bitsOf n 13 4
  let sv := bitsOf n 34 2
  let openAt := match (actOf s a).cur with
    | some i => let e := ledEntry s a i.reach; decide (e.state = 1) && decide ((actOf s a).curReach = i.reach) && decide (e.wp = sector)
    | none => false
  (decide (2 ≤ op) && !openAt) || (decide (pa = 3 ∨ pa = 4) && !bitOf n 17) || decide (2 ≤ sv)

/-- R188's steps 2 and 3 without the preamplifier: the channel's mode bits, the servo and the jog. -/
def nanoServo (a n : Nat) (s : State) : State :=
  let b := actBase a
  let s := if bitOf n 8 then
      let c := bitsOf n 9 4
      let s := wr b CH_CTL_PRI_ON (c % 2) (wr b CH_CTL_CHK_ON (c / 2 % 2) s)
      wr b CH_CTL_DUAL_READ (if bitOf n 4 then c / 4 % 2 else 0) (wr b CH_CTL_TA_EN (c / 8) s)
    else s
  let t := rd s b AS_CURSOR_TRACK_TRACK
  let s := match bitsOf n 34 2 with
    | 1 => if t = rd s b SV_TARGET_TRACK then s else targetOp a t s
    | 2 => loadOp a s
    | 3 => unload a .sequencer s
    | _ => s
  if bitOf n 36 then wr b SV_JOG_JOG (rd s b (AS_HEAD_4_JOG.ix (rd s b AS_CURSOR_HEAD))) s else s

/-- R188's steps 4 to 7. -/
def nanoRun (a n arg : Nat) (i : Item) (s : State) : State :=
  let b := actBase a
  let count := if bitOf n 5 then arg else i.count
  let s := when (bitOf n 38) (fun s => gateUpdate a (modAct a (fun x => { x with wgReq := false }) s)) s
  let s := when (bitOf n 37) (fun s => gateUpdate a (modAct a (fun x => { x with wgReq := true }) s)) s
  let s := match bitsOf n 0 2 with
    | 1 => beginRead a (actOf s a).curReach (rd s b AS_CURSOR_SECTOR) count (runDeadline s a (bitsOf n 6 2) i.deadline) (bitOf n 3) (bitOf n 4 || i.combine) s
    | 2 => beginWrite a 2 i.reach count (bitOf n 2) (bitOf n 44) s
    | 3 => beginWrite a 3 i.reach count (bitOf n 2) (bitOf n 44) s
    | _ => s
  let s := if bitOf n 56 then wr b AS_LOOP_COUNTER (bitsOf n 64 16) s else s
  let f := bitsOf n 59 3
  let s := if bitOf n 57 then wr b AS_LOOP_CUST_FLAG (setBit (rd s b AS_LOOP_CUST_FLAG) f true) s else s
  let s := if bitOf n 58 then wr b AS_LOOP_CUST_FLAG (setBit (rd s b AS_LOOP_CUST_FLAG) f false) s else s
  when (bitOf n 47) (dayEvent (srcAct a) (bitsOf n 48 8) (rd s dbB DB_CTL_SEQ_SEV) i.tag i.reach (rd s b AS_CURSOR_SECTOR) 0) s

/-- R188 step 1: LEDGER_LOAD takes the descriptor's reach, whose live entry the run then uses (DEDUCED, notes/assumptions/26.md), and
CURSOR_OP sets the cursor in it. -/
def nanoCursor (a n : Nat) (i : Item) (s : State) : State :=
  let s := when (bitOf n 45) (fun s => showCursor a i.reach (rd s (actBase a) AS_CURSOR_SECTOR) s) s
  match bitsOf n 42 2 with
  | 1 => showCursor a i.reach i.sector s
  | 2 => showCursor a i.reach (ledEntry s a i.reach).wp s
  | _ => s

/-- R188: the actions of one legal nano-word in their order. -/
def nanoActions (a pc n arg : Nat) (s : State) : State :=
  let i := match (actOf s a).cur with | some i => i | none => noItem
  let s0 := s
  let s := nanoCursor a n i s
  if inRegion pc && customerBreach s a n (rd s (actBase a) AS_CURSOR_SECTOR) then breach a pc true s0
  else
    let s := nanoServo a n s
    if bitsOf n 13 4 = 2 ∧ modeWritten s a % 4 = 3 then breach a pc false s
    else
    let s := if bitsOf n 13 4 = 0 then s
      else
        let (r, addr, d) := paFrame s a (bitsOf n 13 4) (bitOf n 17) (bitsOf n 18 16)
        sendFrame a r addr d s
    let s := moverOp a (bitsOf n 39 3) i (if bitOf n 5 then arg else i.count) s
    let s := nanoRun a n arg i s
    if bitOf n 46 then finishItem a s else goMicro a ((pc + 1) % 8192) s

end Sys2Proof.Machine
end

