-- ==== Sys2Proof/Machine/Sequencer.lean ====
section
/-!
DEFINITION. Sys2Proof/Machine/Sequencer.lean: the actuator sequencers (09_actuator_sequencers.md): the work queue, one microword or
horizontal word at a time, the runs, and the registers of R203.
-/
namespace Sys2Proof.Machine
open Reg

/-! ### Work (R183) -/

/-- The descriptor of the writer's copy of AS_WORK0-7. -/
def workItem (s : State) (p : Path) (a : Nat) : Item :=
  let w (i : Nat) := copyGet s p (actBase a + 0x640 + 4 * i)
  { tag := bitsOf (w 0) 16 16, entry := bitsOf (w 0) 0 13, reach := bitsOf (w 1) 0 14, sector := bitsOf (w 2) 0 20, count := bitsOf (w 3) 0 9, deadline := bitsOf (w 3) 12 20, pool := w 4 + bitsOf (w 5) 0 4 * 2 ^ 32, mover := bitsOf (w 5) 4 5, resultMap := w 6 + bitsOf (w 5) 16 4 * 2 ^ 32, wseq := w 7, combine := false, withdrawn := false }

/-- R183: Tellers and the Bursar have a copy; the other paths' GO has no effect. -/
def ownsWork : Path → Bool
  | .teller _ | .bursar => true
  | _ => false

def workGoOp (p : Path) (a : Nat) (s : State) : State :=
  if !ownsWork p then recordIgnored (fbAct a) (actBase a + 0x660) p s
  else if 16 ≤ (actOf s a).work.length then wr (actBase a) AS_STATUS_WORK_FULL 1 s
  else syncAct a (modAct a (fun x => { x with work := x.work ++ [workItem s p a] }) s)

def execAsWorkGo (p : Path) (a : ActId) (s : State) : Res State :=
  runWrite p (actBase a.val + 0x660) 1 (workGoOp p a.val) s

/-! ### Microwords -/

/-- R375: a block reset lets the item that runs end; then the sequencer stops. -/
def stoppedByReset (s : State) (a : Nat) : Bool := underReset s 1 a && (actOf s a).cur.isNone

/-- The sequencer steps through microwords: RUN, microcode mode, no wait, no POST that waits for room, no block reset. -/
def seqReady (s : State) (a : Nat) : Bool :=
  let x := actOf s a
  decide (rd s (actBase a) AS_STATUS_MODE = 1) && flag s (actBase a) AS_CTL_RUN && x.wait.isNone && x.postQ.isEmpty && !stoppedByReset s a

def pcOf (s : State) (a : Nat) : Nat := rd s (actBase a) AS_PC_MICRO_PC

/-- The row of a microword: the kind, and the operation within it. Reserved Special operations fall to the no-operation row. -/
def wordRow (w : Nat) : Nat :=
  match wKind w with
  | 0 => 0
  | 1 => 1 + wBranchOp w
  | 2 => 5
  | _ => if wSpecialOp w ≤ 3 then 6 + wSpecialOp w else 6

/-- Carry out the present microword if it is of the given row. -/
def microStep (row a : Nat) (f : Nat → Nat → State → State) (s : State) : State :=
  if seqReady s a then
    let pc := pcOf s a
    let w := microWord s a pc
    if wordRow w = row then
      if microLegal s a pc w then f pc w s else illegalOp a pc (inRegion pc) s
    else s
  else s

def nextPc (pc : Nat) : Nat := (pc + 1) % 8192

/-- A MOVER_OP that its channel's full queue holds back (R261). -/
def moverFull (s : State) (a n : Nat) : Bool :=
  let c := match (actOf s a).cur with | some i => i.mover | none => 0
  decide (bitsOf n 39 3 = 1 ∨ bitsOf n 39 3 = 2) && decide (5 ≤ (chanOf s c).reqs.length)

def nanoOp (a pc w : Nat) (s : State) : State :=
  let n := nanoWord s a (bitsOf w 13 9)
  if moverFull s a n then s else nanoActions a pc n (bitsOf w 0 13) s

/-- A nano microword; R201, R396: one whose nano-word meets an uncorrectable error is an illegal word. -/
def nanoStep (a : Nat) (err : Option MemErr) (s : State) : State :=
  let pc := pcOf s a
  if seqReady s a && decide (wordRow (microWord s a pc) = 0) then
    match storeFetch a (0x8000 + 32 * bitsOf (microWord s a pc) 13 9) err s with
    | (true, s) => illegalOp a pc (inRegion pc) s
    | (false, s) => microStep 0 a (nanoOp a) s
  else s

def execNano (a : ActId) (err : Option MemErr) (s : State) : Res State := run .core (nanoStep a.val err) s

/-- R195: a cause under R73 has ended: the standing request is granted again if every condition holds. -/
def execWriteGateReturn (a : ActId) (s : State) : Res State := run .motion (gateUpdate a.val) s

def branchTaken (s : State) (a w : Nat) : Bool := decide (cond s a none (wCond w) = wSense w)

def jumpOp (a pc w : Nat) (s : State) : State := goMicro a (if branchTaken s a w then wTarget w else nextPc pc) s

def execJump (a : ActId) (s : State) : Res State := run .core (microStep 1 a.val (jumpOp a.val)) s

/-- Call a microword: the stack holds 8 return addresses (R186, R201). -/
def callWord (a pc target ret : Nat) (s : State) : State :=
  if 8 ≤ (actOf s a).stack.length then illegalOp a pc (inRegion pc) s
  else goMicro a target (modAct a (fun x => { x with stack := ret :: x.stack }) s)

def callOp (a pc w : Nat) (s : State) : State :=
  if branchTaken s a w then callWord a pc (wTarget w) (nextPc pc) s else goMicro a (nextPc pc) s

def execCall (a : ActId) (s : State) : Res State := run .core (microStep 2 a.val (callOp a.val)) s

def returnOp (a pc w : Nat) (s : State) : State :=
  if branchTaken s a w then
    match (actOf s a).stack with
    | [] => illegalOp a pc (inRegion pc) s
    | r :: rest => goMicro a r (modAct a (fun x => { x with stack := rest }) s)
  else goMicro a (nextPc pc) s

def execReturn (a : ActId) (s : State) : Res State := run .core (microStep 3 a.val (returnOp a.val)) s

def loopWordOp (a pc w : Nat) (s : State) : State :=
  let b := actBase a
  let c := (rd s b AS_LOOP_COUNTER + 65535) % 65536
  let s := wr b AS_LOOP_COUNTER c s
  goMicro a (if c ≠ 0 then wTarget w else nextPc pc) s

def execLoop (a : ActId) (s : State) : Res State := run .core (microStep 4 a.val (loopWordOp a.val)) s

/-! ### Waits (R192) -/

def waitOp (a pc w : Nat) (s : State) : State :=
  let b := actBase a
  let k := bitsOf w 12 3
  if cond s a none (wCond w) = wSense w ∧ wCond w ≠ 4 ∧ wCond w ≠ 5 then goMicro a (nextPc pc) s
  else
    let till := now s + waitTicks s a (rd s b (AS_WAIT_TMO_UNIT.ix k)) (bitsOf w 0 12)
    let h := rd s b (AS_WAIT_TMO_HANDLER.ix k)
    syncAct a (modAct a (fun x => { x with wait := some ⟨wCond w, wSense w, till, h, none, false, false⟩ }) s)

def execWait (a : ActId) (s : State) : Res State := run .core (microStep 5 a.val (waitOp a.val)) s

/-- The awaited value is there. -/
def waitMet (s : State) (a : Nat) (w : Wait) : Bool := decide (cond s a (some w) w.cond = w.sense)

/-- Go to a horizontal word within horizontal mode. -/
def goHoriz (a k : Nat) (s : State) : State :=
  syncAct a (wr (actBase a) AS_PC_HORIZ_PC k (modAct a (fun x => { x with wait := none }) s))

def waitMetOp (a : Nat) (s : State) : State :=
  match (actOf s a).wait with
  | none => s
  | some w =>
    if waitMet s a w && decide (now s < w.until_) then
      match w.horiz with
      | some (next, _) => goHoriz a next s
      | none => if flag s (actBase a) AS_CTL_RUN then goMicro a (nextPc (pcOf s a)) s else s
    else s

def execWaitConditionMet (a : ActId) (s : State) : Res State := run .core (waitMetOp a.val) s

def waitTimeoutOp (a : Nat) (s : State) : State :=
  let b := actBase a
  match (actOf s a).wait with
  | none => s
  | some w =>
    if waitMet s a w && decide (now s < w.until_) then s
    else
      let s := reach w.until_ s
      match w.horiz with
      | some (_, alt) => goHoriz a alt s
      | none =>
        if flag s b AS_CTL_RUN then
          let s := incF b AS_COUNTS_A_TIMEOUTS (wr b AS_STATUS_TIMEOUT 1 s)
          let s := modAct a (fun x => { x with curTimeout := x.cur.isSome, wait := none }) s
          callWord a (pcOf s a) w.handler (nextPc (pcOf s a)) s
        else s

def execWaitTimeout (a : ActId) (s : State) : Res State := run .core (waitTimeoutOp a.val) s

/-! ### Specials -/

def execNoOperation (a : ActId) (s : State) : Res State := run .core (microStep 6 a.val (fun pc _ s => goMicro a.val (nextPc pc) s)) s

def haltOp (a : Nat) (s : State) : State := wr (actBase a) AS_STATUS_MODE 0 s

def execHalt (a : ActId) (s : State) : Res State := run .core (microStep 7 a.val (fun _ _ s => haltOp a.val s)) s

def execEnterHorizontalMode (a : ActId) (s : State) : Res State :=
  run .core (microStep 8 a.val (fun _ w s => enterHoriz a.val (bitsOf w 0 10) s)) s

/-- Fetch: the next item is judged (R185, R199) and entered; an item that still runs ends first (R184). -/
def fetchOp (a : Nat) (s : State) : State :=
  let b := actBase a
  match (actOf s a).work with
  | [] => s
  | i :: rest =>
    let s := when (actOf s a).cur.isSome (fun s => endItem a (journalCell a s)) s
    let s := refillWork a (modAct a (fun x => { x with work := rest }) s)
    let ok := entryOk i.entry && decide (1 ≤ i.count ∧ i.count ≤ 256) && (!inRegion i.entry || flag s b AS_CUST_ARMED)
    if ok then
      let s := modAct a (fun x => { clearItem x with cur := some i }) s
      goMicro a i.entry (gateUpdate a s)
    else syncAct a (post a i.tag 8 s)

def execFetch (a : ActId) (s : State) : Res State := run .core (microStep 9 a.val (fun _ _ s => fetchOp a.val s)) s

/-! ### Horizontal words (R189, R190) -/

/-- R201 for a horizontal word. -/
def horizLegal (w : Nat) : Bool := decide (bitsOf w 154 22 = 0) && decide (bitsOf w 77 7 ≤ 8) && decide (bitsOf w 142 2 ≠ 3)

/-- R189: the reach and the slot at the present position: the track under the head that PRE_HEAD selects, at the angle of the last wedge. A
position in no reach leaves the cursor's sector. -/
def presentSlot (s : State) (a : Nat) : Nat × Nat :=
  let x := actOf s a
  let track := (roundAway x.y).toNat
  (slotAt (layoutOf s a) (tget 0 x.pre 3 % 16) track (rd s (actBase a) SV_STATE_WEDGE)).getD (x.curReach, rd s (actBase a) AS_CURSOR_SECTOR)

/-- R189: one test sector is to be written at the present position. -/
def beginTest (a : Nat) (s : State) : State :=
  let (r, p) := presentSlot s a
  gateUpdate a (modAct a (fun x => { x with run := some { newRun 2 r p 1 with test := true, began := now s } }) s)

/-- The resources that one horizontal word drives, in the order of its fields. -/
def horizActions (a w : Nat) (s : State) : State :=
  let b := actBase a
  let s := if bitOf w 57 then
      let i := bitsOf w 58 17
      let s := wr b CH_CTL_PRI_ON (i % 2) (wr b CH_CTL_CHK_ON (i / 2 % 2) s)
      let s := wr b CH_CTL_DUAL_READ (i / 4 % 2) (wr b CH_CTL_PROFILE_FORCE (i / 8 % 2) s)
      wr b CH_CTL_PROFILE (i / 256 % 64) (wr b CH_CTL_TA_EN (i / 65536) s)
    else s
  let s := when (bitOf w 75) (fun s =>
    if bitsOf w 77 7 = 3 ∧ bitOf w 76 = false ∧ modeWritten s a % 4 = 3 then endItem a (modAct a (fun x => { x with curViolation := x.cur.isSome }) s)
    else sendFrame a (bitOf w 76) (bitsOf w 77 7) (bitsOf w 84 16) s) s
  let s := when (bitOf w 100) (targetOp a (bitsOf w 101 20)) s
  let s := match bitsOf w 121 2 with
    | 1 => wr b SV_CTL_ENABLE 1 s
    | 2 => loadOp a s
    | 3 => unload a .sequencer s
    | _ => s
  let s := when (bitOf w 123) (fun s => if bitOf w 124 then leEnableOp a s else leDisableOp a s) s
  let s := when (bitOf w 125) (leReloadOp a) s
  let s := when (bitOf w 126) (tuneStartOp a) s
  let s := when (bitOf w 128) (fun s => gateUpdate a (modAct a (fun x => { x with wgReq := false }) s)) s
  let s := when (bitOf w 127) (fun s => gateUpdate a (modAct a (fun x => { x with wgReq := true }) s)) s
  let s := if bitOf w 129 then wr b CH_CHK_DELAY_DELAY (bitsOf w 130 12) s else s
  let s := match bitsOf w 142 2 with
    | 1 => let (r, p) := presentSlot s a; beginRead a r p 1 (runDeadline s a 1 0) false false s
    | 2 => beginTest a s
    | _ => s
  let s := when (bitOf w 152) (dayEvent (srcAct a) (bitsOf w 144 8) (rd s dbB DB_CTL_SEQ_SEV) 0 0 (rd s b AS_CURSOR_SECTOR) 0) s
  when (bitOf w 153) (fun s => send (.irq (fbAct a)) (wr b AS_STATUS_TRAPPED 1 s)) s

/-- R190: the exit to microcode: An counts as configured; the run from word 0 has recorded the calibration. -/
def enterMicro (a entry : Nat) (s : State) : State :=
  let s := when (decide ((actOf s a).hEntry = 0)) (recordHeads a) s
  let s := modAct a (fun x => { x with configured := true }) s
  goMicro a entry (gateUpdate a s)

/-- Where a horizontal word leads (R189). -/
def horizFlow (a w : Nat) (s : State) : State :=
  let next := bitsOf w 0 10
  let alt := bitsOf w 19 10
  let sense := bitOf w 16
  let c := bitsOf w 10 6
  if bitOf w 29 then
    if cond s a none c = sense ∧ c ≠ 4 ∧ c ≠ 5 then goHoriz a next s
    else
      let till := now s + waitTicks s a (bitsOf w 30 2) (bitsOf w 32 12)
      syncAct a (modAct a (fun x => { x with wait := some ⟨c, sense, till, 0, some (next, alt), false, false⟩ }) s)
  else match bitsOf w 17 2 with
    | 0 => goHoriz a next s
    | 1 => goHoriz a (if cond s a none c = sense then alt else next) s
    | 2 => enterMicro a (bitsOf w 44 13) s
    | _ => haltOp a s

/-- One horizontal word, or one that meets an uncorrectable error of its store. -/
def horizOp (a : Nat) (err : Option MemErr) (s : State) : State :=
  if rd s (actBase a) AS_STATUS_MODE = 2 ∧ (actOf s a).wait.isNone = true ∧ stoppedByReset s a = false then
    let k := rd s (actBase a) AS_PC_HORIZ_PC
    let w := horizWord s a k
    match storeFetch a (0xC000 + 32 * k) err s with
    | (true, s) => illegalOp a k false s
    | (false, s) => if horizLegal w then horizFlow a w (horizActions a w s) else illegalOp a k false s
  else s

def execHorizontalWord (a : ActId) (err : Option MemErr) (s : State) : Res State := run .core (horizOp a.val err) s

/-! ### Runs -/

def execSectorRunComplete (a : ActId) (s : State) : Res State := run .core (runEndOp a.val) s

def execWriteSlot (a : ActId) (s : State) : Res State := run .core (writeSlotOp a.val) s

/-! ### Registers (R203) -/

def execAsWithdraw (p : Path) (a : ActId) (v : Word) (s : State) : Res State :=
  runWrite p (actBase a.val + 0x668) v.toNat (withdrawItem a.val (v.toNat % 65536) (fun _ _ => true)) s

def execAsCtlRun (p : Path) (a : ActId) (on : Bool) (s : State) : Res State :=
  runWrite p (actBase a.val + 0x600) (b2n on) (if on then seqRun a.val else seqStop a.val) s

/-- R190: word 4, from microword 0 with an empty queue. -/
def testOp (a : Nat) (s : State) : State :=
  if rd s (actBase a) AS_STATUS_MODE = 1 ∧ pcOf s a = 0 ∧ (actOf s a).work.isEmpty = true then enterHoriz a 4 s else s

def execAsCtlTest (p : Path) (a : ActId) (s : State) : Res State := runWrite p (actBase a.val + 0x600) 2 (testOp a.val) s

def recoverOp (a : Nat) (s : State) : State :=
  if (unitOf s (fbAct a) 0).inFault || underReset s 1 a then s else enterWord2 a s

def execAsCtlRecover (p : Path) (a : ActId) (s : State) : Res State := runWrite p (actBase a.val + 0x600) 4 (recoverOp a.val) s

/-- POSTs that waited for room (R202). -/
def postWaiting (a : Nat) : Nat → State → State
  | 0, s => s
  | n + 1, s =>
    match (actOf s a).postQ with
    | (t, st) :: rest =>
      if (actOf s a).doneQ.length < 16 then postWaiting a n (post a t st (modAct a (fun x => { x with postQ := rest }) s)) else s
    | [] => s

/-- R203: a read of AS_DONE removes the entry it answers. -/
def doneRead (p : Path) (a : Nat) (s : State) : State :=
  let addr := actBase a + 0x664
  match (actOf s a).doneQ with
  | [] => send (.value p addr 0) s
  | (t, st) :: rest =>
    let s := send (.value p addr (BitVec.ofNat 32 (t + st * 2 ^ 16 + 2 ^ 24))) s
    let s := syncAct a (modAct a (fun x => { x with doneQ := rest }) s)
    postWaiting a (actOf s a).postQ.length s

def execAsDoneRead (p : Path) (a : ActId) (s : State) : Res State := runIf (readLive s p) (doneRead p a.val) s

/-- R199: the bytes whose CRC-32C is checked: 2,048 microwords, then nano-words 384 to 511 as 32-byte words. -/
def regionBytes (s : State) (a : Nat) : List Byte :=
  (List.range 2048).flatMap (fun i => leBytes 4 (microWord s a (6144 + i)))
    ++ (List.range 128).flatMap (fun j => leBytes 32 (nanoWord s a (384 + j)))

def armOp (a : Nat) (s : State) : State :=
  let b := actBase a
  let ok := decide (crc32c (regionBytes s a) = rd s b AS_CUST_CRC_EXPECT)
    && (List.range 2048).all (fun i => regionLegal s a (6144 + i) (microWord s a (6144 + i)))
  if ok then wr b AS_CUST_ARMED 1 s else wr b AS_CUST_ARM_FAILED 1 s

def execAsCustArm (p : Path) (a : ActId) (s : State) : Res State := runWrite p (actBase a.val + 0x670) 1 (armOp a.val) s

/-- R199: DISARM waits for a customer item to end. -/
def disarmOp (a : Nat) (s : State) : State :=
  let busy := match (actOf s a).cur with | some i => inRegion i.entry || flag s (actBase a) AS_PC_IN_CUSTOMER | none => false
  if busy then modAct a (fun x => { x with disarm := true }) s else wr (actBase a) AS_CUST_ARMED 0 s

def execAsCustDisarm (p : Path) (a : ActId) (s : State) : Res State := runWrite p (actBase a.val + 0x670) 4 (disarmOp a.val) s

end Sys2Proof.Machine
end

