-- ==== Sys2Proof/Machine/Sluice.lean ====
section
/-!
DEFINITION. Sys2Proof/Machine/Sluice.lean: the Sluice: its evaluation, admission, shrinking and suspension (R178-R181), and the
plan of held spindles (R176).
-/
namespace Sys2Proof.Machine
open Reg

/-! ### Queue order -/

/-- Insert a port in ascending order. -/
def insPort (n : Nat) : List Nat → List Nat
  | [] => [n]
  | m :: t => if n < m then n :: m :: t else m :: insPort n t

def sortPorts : List Nat → List Nat
  | [] => []
  | n :: t => insPort n (sortPorts t)

/-- R179: requests that arose since the last evaluation join the queue in ascending port number. -/
def joinQueue (s : State) : State :=
  { s with sluice := { s.sluice with queue := s.sluice.queue ++ sortPorts s.sluice.fresh, fresh := [], evals := s.sluice.evals + 1 } }

/-! ### Reservations (R178) -/

/-- R178: the sum of reservations with this spindle at a target stays within RUN_ALLOW. -/
def fits (s : State) (n target : Nat) : Bool :=
  decide (runSum s - (portOf s n).reserved + runMw s target ≤ rd s slB SLUICE_RUN_RUN_ALLOW * 100)

def unqueue (n : Nat) (s : State) : State :=
  { s with sluice := { s.sluice with queue := s.sluice.queue.filter (fun m => decide (m ≠ n)) } }

/-- A rise of a running spindle's target (R178): admitted, or refused and left queued. -/
def tryRise (n : Nat) (s : State) : State :=
  let t := wantedTarget s n
  if fits s n t then
    let s := unqueue n (modPort n (fun p => { p with reserved := runMw s t }) s)
    wr (portBase n) SP_SPEED_TARGET t s
  else wr slB SLUICE_STATUS_CAP_REACHED 1 s

/-- R179: a spin-up starts with its grant. -/
def admitSpin (n : Nat) (s : State) : State :=
  let t := wantedTarget s n
  let s := wr (portBase n) SP_SPEED_TARGET t (unqueue n s)
  let s := modPort n (fun p => { p with reserved := runMw s t }) s
  let s := setGrant n (rd s slB SLUICE_SPINUP_SPINUP_W * 100) s
  let s := { s with sluice := { s.sluice with active := s.sluice.active ++ [(n, s.sluice.evals)] } }
  measureStart n (incF slB SLUICE_COUNTS_ADMITTED s)

/-! ### One evaluation (R179, R180) -/

/-- The input power left over, in mW: `other` and `h`. -/
def headroom (s : State) (pinMw : Nat) : Int × Int :=
  let up : Nat := s.sluice.active.foldl (fun acc e => acc + 10 * rd s (portBase e.1) SP_POWER_POWER) 0
  let other : Int := (pinMw : Int) - up
  (other, (rd s slB SLUICE_BUDGET_CEILING * 100 : Nat) - (rd s slB SLUICE_BUDGET_GUARD * 100 : Nat) - other - (grantSum s : Nat))

/-- R179: raise grants below SPINUP_W, oldest admission first. -/
def raiseGrants : List (Nat × Nat) → Int → State → Int × State
  | [], h, s => (h, s)
  | (n, _) :: r, h, s =>
    let short : Int := (rd s slB SLUICE_SPINUP_SPINUP_W * 100 : Nat) - ((portOf s n).grant : Nat)
    let add := if short ≤ 0 then 0 else min h short
    raiseGrants r (h - add) (if add = 0 then s else setGrant n ((portOf s n).grant + add.toNat) s)

/-- R179: the queued requests, in order. -/
def admitAll : List Nat → Int → State → State
  | [], _, s => s
  | n :: r, h, s =>
    let w : Int := (rd s slB SLUICE_SPINUP_SPINUP_W * 100 : Nat)
    if rd s slB SLUICE_SPINUP_MAX_SPINUPS ≤ s.sluice.active.length ∨ h < w then s
    else if fits s n (wantedTarget s n) then admitAll r (h - w) (admitSpin n s)
    else admitAll r h (wr slB SLUICE_STATUS_CAP_REACHED 1 s)

/-- The spin-up admitted last, the higher port first among those admitted together. -/
def lastAdmitted : List (Nat × Nat) → Option (Nat × Nat)
  | [] => none
  | e :: r => match lastAdmitted r with
    | none => some e
    | some x => if x.2 < e.2 ∨ (x.2 = e.2 ∧ x.1 < e.1) then some e else some x

/-- R180: suspend a spin-up: bridge at high impedance, grant released, queued at the head, reservation kept. -/
def suspend (n : Nat) (s : State) : State :=
  let s := dequeue n (releaseGrant n (bridgeOff n s))
  let s := wr (portBase n) SP_STATUS_SUSPENDED 1 (spSet n 1 s)
  let s := incF slB SLUICE_COUNTS_SUSPENSIONS (wr slB SLUICE_STATUS_SUSPENDED 1 s)
  { s with sluice := { s.sluice with queue := n :: s.sluice.queue } }

/-- R180: suspend until nothing is missing. -/
def suspendAll : Nat → Int → State → State
  | 0, _, s => s
  | k + 1, h, s =>
    if 0 ≤ h then s
    else match lastAdmitted s.sluice.active with
      | none => s
      | some (n, _) => suspendAll k (h + ((portOf s n).grant : Nat)) (suspend n s)

/-- R180: lower every grant in the same proportion, none below FLOOR_W. -/
def shrinkGrants (h : Int) : List (Nat × Nat) → Nat → Int → State → Int × State
  | [], _, left, s => (left, s)
  | (n, _) :: r, total, left, s =>
    let g := (portOf s n).grant
    let keep : Int := (total : Int) + h
    let prop : Nat := if keep ≤ 0 then 0 else g * keep.toNat / total
    let floor := min (rd s slB SLUICE_SPINUP_FLOOR_W) (rd s slB SLUICE_SPINUP_SPINUP_W) * 100
    let g' := min g (max floor prop)
    let s := if g' < g then wr slB SLUICE_STATUS_SHRUNK 1 (setGrant n g' s) else s
    shrinkGrants h r total (left + ((g : Int) - g')) s

def shrinkSluice (h : Int) (s : State) : State :=
  let (left, s) := shrinkGrants h s.sluice.active (grantSum s) h s
  suspendAll 24 left s

/-- R179: both feeds' input power in mW. -/
def inputPower (m : Monitors) : Nat := (m.aMv * m.aMa + m.bMv * m.bMa) / 1000

/-- One evaluation of the Sluice, from the monitors' present values. A power-fail sequence ends spin-ups and admits none (R177). -/
def evaluateOp (m : Monitors) (s : State) : State :=
  let s := monitorTake m s
  let pinMw := inputPower m
  if s.pwr.gap then s
  else
    let s := joinQueue s
    if !s.pwr.charged || s.pwr.failing || s.cfg.running.isEmpty then syncSluice s
    else
      let (other, h) := headroom s pinMw
      let s := wr slB SLUICE_POWER_OTHER (min 4095 (other / 100).toNat) s
      let s := wr slB SLUICE_POWER_HEADROOM (fitBits 12 (h / 100)) s
      if h < 0 then syncSluice (shrinkSluice h s)
      else
        let (h, s) := raiseGrants s.sluice.active h s
        let s := forEach (s.sluice.queue.filter (fun n => spRunning s n)) tryRise s
        syncSluice (admitAll (s.sluice.queue.filter (fun n => decide (spState s n = 1))) h s)

def execSluiceEvaluation (m : Monitors) (s : State) : Res State := run .motion (evaluateOp m) s

/-- R176: SLUICE_PLAN written: spindles newly held stop, spindles released start. -/
def planOp (v : Nat) (s : State) : State :=
  let was := rd s slB SLUICE_PLAN_HOLD
  let s := plainWrite 0x4000C v s
  let is := rd s slB SLUICE_PLAN_HOLD
  forEach (List.range 24) (fun n s =>
    if bitOf is n && !bitOf was n then stopSpindle n s
    else if bitOf was n && !bitOf is n then startSpindle n s
    else s) s

def execSluicePlanWrite (p : Path) (v : Word) (s : State) : Res State := runWrite p 0x4000C v.toNat (planOp v.toNat) s

end Sys2Proof.Machine
end

