-- ==== Sys2Proof/Machine/Stripe.lean ====
section
/-!
DEFINITION. Sys2Proof/Machine/Stripe.lean: stripe classes, read-around, the stripe engines, rebuild and the stripe audit
(11_stripes_and_repair.md).
-/
namespace Sys2Proof.Machine
open Reg

/-- A write of a word of SR_CLASS (R226); a change of the active namespaces is notified (R291). -/
def classWrite (p : Path) (addr v : Nat) (s : State) : State := nsNotice (activeSet s) (checkedWrite p addr v s)

/-- The address of a class's word. -/
def classAddr (q : Nat) (hdas : Bool) : Nat := srB + 0x10 + 8 * q + (if hdas then 4 else 0)

def execSrClassWrite (p : Path) (q : Fin 4) (hdas : Bool) (v : Word) (s : State) : Res State :=
  runWrite p (classAddr q.val hdas) v.toNat (classWrite p (classAddr q.val hdas) v.toNat) s

/-! ### Read-around -/

/-- The stripe identifier of a stripe of a fetch's object. -/
def fetchSid (s : State) (tag stripe : Nat) : Option Nat := (fetchOf s tag).map (fun f => f.obj * 2 ^ 24 + stripe)

/-- R234: the deadline D of sector i of a cell: that of the run of the fetch's item on its actuator, or of the sector's decode job. -/
def sectorDeadline (s : State) (tag : Nat) (c : CellPlace) (i : Nat) : Option Nat :=
  let x := actOf s c.act
  let p := c.slot + i
  let mine (j : Job) := decide (j.act = c.act ∧ j.tag = tag ∧ j.reach = c.reach ∧ j.sector = p)
  match (s.dec.first ++ s.dec.deep ++ s.dec.lanes.map Prod.snd).find? mine, x.cur, x.run with
  | some j, _, _ => some j.deadline
  | none, some it, some r =>
    if it.tag = tag ∧ r.op = 1 ∧ r.reach = c.reach ∧ r.start ≤ p ∧ p < r.start + r.count then some (readDeadline s c.act r p) else none
  | _, _, _ => none

/-- R234, R235: sector i of a member that was asked for reaches its deadline D without a good result. -/
def deadlineOp (tag stripe m i : Nat) (s : State) : State :=
  match fetchOf s tag with
  | none => s
  | some f =>
    let sid := f.obj * 2 ^ 24 + stripe
    match (memberPlace s sid m).bind (fun c => sectorDeadline s tag c i) with
    | none => s
    | some d => if flag s srB SR_RA_ENABLE && isAsked f sid m i && !isBad f sid m i && !isGood s f sid m i then sectorBad tag sid m i (reach d s) else s

def execReadAroundDeadline (tag : Nat) (stripe member sector : Nat) (s : State) : Res State :=
  run .core (deadlineOp tag stripe member sector) s

/-- A read item of a fetch has sampled a sector of a member. -/
def sampledAny (s : State) (f : Fetch) (sid m : Nat) : Bool :=
  let seen (x : Nat × Nat × Nat) := decide (x.1 = sid ∧ x.2.1 = m)
  f.good.any seen || f.bad.any seen || (match memberPlace s sid m with
    | none => false
    | some c => match (actOf s c.act).cur, (actOf s c.act).run with
      | some i, some r => decide (i.tag = f.tag ∧ r.reach = c.reach ∧ c.slot ≤ r.start ∧ r.start < c.slot + 256 ∧ 0 < r.issued)
      | _, _ => false)

/-- R235: a member's item has sampled nothing START_MS after it was queued: every sector of the member that was asked for is bad. -/
def startLimitOp (tag stripe m : Nat) (s : State) : State :=
  match fetchOf s tag with
  | none => s
  | some f =>
    let sid := f.obj * 2 ^ 24 + stripe
    match f.asked.find? (fun x => decide (x.sid = sid ∧ x.member = m)) with
    | none => s
    | some x =>
      if !flag s srB SR_RA_ENABLE || sampledAny s f sid m then s
      else forEach ((List.range 256).filter (fun i => decide (x.first ≤ i))) (fun i s => sectorBad tag sid m i s) (reach (x.since + msecs (rd s srB SR_RA_START_MS)) s)

def execStartLimit (tag : Nat) (stripe member : Nat) (s : State) : Res State := run .core (startLimitOp tag stripe member) s

/-! ### Stripe engines -/

/-- R235, R236: the engine has rebuilt the bad data sectors at position i: each counts, and goes to its member's place in the Pool. -/
def rebuiltSectors (tag sid i : Nat) (s : State) : State :=
  forEach (List.range (stripeData s sid)) (fun c s =>
    match fetchOf s tag with
    | none => s
    | some f =>
      if f.need.contains (sid, c) && !isGood s f sid c i && !cellInRsv s sid c && (isBad f sid c i || !memberUp s sid c) then
        let s := incF srB SR_COUNTS_A_RA_SECTORS (modFetch tag (fun f => { f with rebuilt := f.rebuilt ++ [(sid, c, i)] }) s)
        let s := match memberPlace s sid c, stripeOf s sid, objOf s f.obj with
          | some p, some r, some o => match segOf s p with
            | some e => poolFill (segAddr e.1 + 4096 * i) (((memberCell o r c).drop (4096 * i)).take 4096) s
            | none => s
          | _, _, _ => s
        memberEnd tag sid c s
      else s) s

/-- R232: a stripe engine ends its job; it takes the next by priority. -/
def engineEndOp (e : Nat) (s : State) : State :=
  match tfind s.str.running e with
  | none => s
  | some j =>
    let s := { s with str := { s.str with running := tdel s.str.running e } }
    let s := match j.work with
      | .readAround tag sid i => fetchEnd tag (rebuiltSectors tag sid i s)
      | _ => s
    engineDispatch s

def execStripeEngineJobEnd (e : Fin 2) (s : State) : Res State := run .core (engineEndOp e.val) s

/-! ### Rebuild -/

/-- R241 step 6: a member leaves the work and the debt, and counts as rebuilt; the next one waits for an engine. -/
def memberOut (sid m : Nat) (s : State) : State :=
  let other (y : Nat × Nat × Nat) := !(decide (y.1 = sid) && decide (y.2.1 = m))
  let s := { s with str := { s.str with missing := s.str.missing.filter other, debt := s.str.debt.filter other } }
  let j : EngineJob := ⟨3, .rebuild sid m⟩
  let s := { s with str := { s.str with jobs := s.str.jobs.erase j, running := s.str.running.filter (fun e => decide (e.2 ≠ j)) } }
  rebuildQueue (engineDispatch (syncRebuild (incF srB SR_COUNTS_B_STRIPES_REBUILT s)))

/-- R240: a member that fits on no actuator of its port goes to the stripe debt. -/
def memberToDebt (x : Nat × Nat × Nat) (s : State) : State :=
  let j : EngineJob := ⟨3, .rebuild x.1 x.2.1⟩
  let s := { s with str := { s.str with missing := s.str.missing.erase x, debt := addNew s.str.debt [x], jobs := s.str.jobs.erase j, running := s.str.running.filter (fun e => decide (e.2 ≠ j)) } }
  rebuildQueue (engineDispatch (syncRebuild s))

/-- R241 steps 3 to 6: the member's bytes go to the target under R230, with the journal entry, the index in the Reservoir, the debt. A stripe
whose object is gone finishes (R242). -/
def memberDoneOp (sid m : Nat) (s : State) : State :=
  match s.str.missing.find? (fun x => decide (x.1 = sid ∧ x.2.1 = m)) with
  | none => s
  | some x =>
    if !stillHeld s x then memberOut sid m s
    else if rebuildable s x && !enginesOut s && decide (portState s x.2.2 = 4) then
      match writeMember sid m x.2.2 s with
      | none => memberToDebt x s
      | some t => memberOut sid m (when (rsvUp t) journalCommit t)
    else s

def execRebuildMemberDone (sid : Nat) (member : Nat) (s : State) : Res State := run .core (memberDoneOp sid member) s

/-! ### The stripe audit -/

/-- R243: the object that the audit takes next, in ascending object number, and whether a new cycle begins with it: one begins AUDIT_DAYS
after the last. -/
def auditNext (s : State) : Option (Nat × Bool) :=
  let ns := s.obj.objs.map Prod.fst
  match ns.find? (fun n => decide (s.str.auditPos < n)) with
  | some n => some (n, decide (s.str.auditPos = 0))
  | none => if s.str.auditFrom + secs (86400 * rd s srB SR_AUDIT_AUDIT_DAYS) ≤ now s then ns.head?.map (fun n => (n, true)) else none

/-- R243, R233: one object is audited, while the audit is enabled, no rebuild runs and an engine and a hash lane are in service. -/
def stripeAuditOp (x : AuditRead) (s : State) : State :=
  if flag s srB SR_AUDIT_ENABLE && decide (rd s srB SR_REBUILD_STATUS_PORTS = 0) && !enginesOut s && !lanesOut s then
    match auditNext s with
    | none => s
    | some (n, first) =>
      let s := { s with str := { s.str with auditPos := n, auditFrom := if first then now s else s.str.auditFrom } }
      match objOf s n with
      | none => s
      | some o => hashCount o.value.length (auditApply n (auditOf o x) true s)
  else s

def execStripeAudit (read : AuditRead) (s : State) : Res State := run .core (stripeAuditOp read) s

end Sys2Proof.Machine
end

