-- ==== Sys2Proof/Machine/RegIO.lean ====
section
/-!
DEFINITION. Sys2Proof/Machine/RegIO.lean: every address of the register space as one write and one read (R5, R24-R27, R197-R199), on every
path: BLOCK_REGISTER_WRITE, Register Window Write and Read (R302), and the management link's Register Read and Write (R405).
-/
namespace Sys2Proof.Machine
open Reg

/-- A path that has a copy of its own of the per-writer registers (R183, R225, R274, R375, DB_WRITE). -/
def hasCopy : Path → Bool
  | .teller _ | .bursar => true
  | _ => false

/-- The per-writer registers. -/
def perWriter (addr : Nat) : Bool :=
  (decide (0x100000 ≤ addr ∧ addr < 0x130000) && decide (0x640 ≤ addr % 0x1000 ∧ addr % 0x1000 < 0x660))
    || decide (addr = 0x160014 ∨ addr = 0x10020) || decide (0x190060 ≤ addr ∧ addr ≤ 0x190068)
    || decide (0x1C0040 ≤ addr ∧ addr ≤ 0x1C004C) || decide (addr = 0x3002C ∨ addr = 0x30030)

/-! ### Control stores (R197-R199) -/

/-- The actuator and the offset of an address among the control stores. -/
def storeAt (addr : Nat) : Nat × Nat := ((addr - 0x50000000) / 0x20000, (addr - 0x50000000) % 0x20000)

/-- R197: the customer-open region. -/
def customerOpen (off : Nat) : Bool := decide (0x6000 ≤ off ∧ off < 0x8000) || decide (0xB000 ≤ off ∧ off < 0xC000)

/-- R197: the bits that a store holds at an offset; the others read as 0. -/
def storeBits (off : Nat) : Nat :=
  if off < 0x8000 then 24
  else if off < 0xC000 then (if 0x14 ≤ off % 32 then 0 else 32)
  else if off < 0x14000 then (if off % 32 < 0x14 then 32 else if off % 32 < 0x18 then 16 else 0)
  else 0

/-- R197: a word of a control store as a read shows it. -/
def storeShown (s : State) (addr : Nat) : Nat :=
  let (a, off) := storeAt addr
  if storeBits off = 0 then 0 else storeRead s a off % 2 ^ storeBits off

/-- R198, R199: a write of a control store. A write of 4 bytes does not write a poisoned word whole, so it is rejected (R396). -/
def storeWrite (p : Path) (addr v : Nat) (s : State) : State :=
  let (a, off) := storeAt addr
  if 0x14000 ≤ off then recordUnoccupied p addr s
  else if p = .loader ∨ (customerOpen off && !flag s (actBase a) AS_CUST_ARMED) = true then
    (if storeBits off = 0 then s
     else if p ≠ .loader ∧ tget 0 s.flt.poison (storeKey a off) ≠ 0 then
       send (.busError p addr) (sramRead (fbAct a) (storeMem off) (tget 0 s.flt.poison (storeKey a off)) ⟨off / 8, off / 8, []⟩ s).2
     else { s with stores := tins s.stores (a * 0x20000 + off) (v % 2 ^ storeBits off) })
  else recordIgnored (fbAct a) addr p s

/-! ### Writes -/

/-- A write in the block of actuator `a` at offset `o`. -/
def actWrite (p : Path) (a o v : Nat) (s : State) : State :=
  let addr := actBase a + o
  if o = 0x100 then when (bitOf v 1) (requestRetract a) (plainWrite addr v s)
  else if o = 0x104 then targetOp a (v % 2 ^ 20) s
  else if 0x200 ≤ o ∧ o < 0x300 then zoneWriteOp a addr v s
  else if o = 0x300 then leCtlOp p a v s
  else if o = 0x600 then
    let s := if bitOf v 0 = flag s (actBase a) AS_CTL_RUN then s else if bitOf v 0 then seqRun a s else seqStop a s
    when (bitOf v 2) (recoverOp a) (when (bitOf v 1) (testOp a) s)
  else if 0x640 ≤ o ∧ o < 0x660 then when (hasCopy p) (copySet p addr v) s
  else if o = 0x660 then when (bitOf v 0) (workGoOp p a) s
  else if o = 0x668 then withdrawItem a (v % 65536) (fun _ _ => true) s
  else if o = 0x670 then
    when (bitOf v 2) (disarmOp a) (when (bitOf v 0) (armOp a) (plainWrite addr v s))
  else checkedWrite p addr v s

/-- A write in the block of port `n` at offset `o`. -/
def portWrite (p : Path) (n o v : Nat) (s : State) : State :=
  let addr := portBase n + o
  if o = 0x4 then
    let s := plainWrite addr v s
    advancePort n (when (bitOf v 0) (releaseOp n) s)
  else if o = 0x14 then when (bitOf v 0) (paGoOp n) s
  else if o = 0x600 then spCtlOp n v s
  else if o = 0x604 then speedSetOp n v s
  else if o = 0x800 then leCtlOp p (48 + n) v s
  else if o = 0x808 then leWrite p (48 + n) addr (plainWrite addr v) s
  else checkedWrite p addr v s

/-- A write of a mover channel's register at offset `o`. -/
def moverWrite (p : Path) (c o v : Nat) (s : State) : State :=
  let addr := moverBase c + o
  if o = 0x10 then mvCountOp c v s
  else if o = 0x18 then when (bitOf v 1) (mvWithdrawOp c) (when (bitOf v 0) (mvGoOp c) s)
  else if o = 0x28 then mvRateOp p c v s
  else checkedWrite p addr v s

/-- LEDGER_CFG written: the age at which a verify is due applies to every entry at once (R218). -/
def ledgerCfgOp (v : Nat) (s : State) : State :=
  let s := plainWrite 0x160020 v s
  forEach s.led.entries (fun e s => setEntry (e.1 / 10240) (e.1 % 10240) (dueEntry (rd s ledB LEDGER_CFG_VERIFY_DAYS) e.2) s) s

/-- DB_WRITE_GO (R408, the Daybook registers): a record at the writer's stamp, with the writer's data. -/
def dbWriteOp (p : Path) (v : Nat) (s : State) : State :=
  match takeSource p with
  | none => s
  | some src =>
    if v % 65536 < 0x8000 then recordIgnored 0x1CFC00 0x1C0050 p s
    else
      let d (i : Nat) := copyGet s p (0x1C0040 + 4 * i)
      dayEvent src (v % 65536) (bitsOf v 16 3) (d 0) (d 1) (d 2) (d 3) s

/-- A write of a register that serves the whole module. -/
def sharedWrite (p : Path) (addr v : Nat) (s : State) : State :=
  if addr = 0x10004 then rstCtlOp v s
  else if addr = 0x10018 then kickOp p v s
  else if addr = 0x10020 then blockReqOp p v s
  else if addr = 0x10028 then when (bitOf v 31) (releaseBlockOp p v) s
  else if addr = 0x20004 then when (bitOf v 1) forceSwapOp (plainWrite addr v s)
  else if addr = 0x20008 then ibSetOp v s
  else if addr = 0x30004 then govCtlOp p v s
  else if addr = 0x30008 then syncManual (plainWrite addr v s)
  else if addr = 0x4000C then planOp v s
  else if addr = 0x140004 then laneEnOp v s
  else if addr = 0x150000 then engineDispatch (syncLanes (plainWrite addr v s))
  else if 0x150010 ≤ addr ∧ addr < 0x150030 then classWrite p addr v s
  else if addr = 0x150050 then rebuildQueue (plainWrite addr v s)
  else if addr = 0x160000 then ledgerCtlOp v s
  else if addr = 0x160010 then ledgerCmdOp p (bitsOf v 20 3) (bitsOf v 14 6) (bitsOf v 0 14) s
  else if addr = 0x160020 then ledgerCfgOp v s
  else if addr = 0x16008C then (if v % 4 = 1 then defectAddOp s else if v % 4 = 2 then defectRemoveOp s else s)
  else if addr = 0x170004 then poolCtlOp v s
  else if addr = 0x170020 then dirRateApply (plainWrite addr v s)
  else if addr = 0x170040 then dirRateOp v s
  else if addr = 0x19000C then rsvPaceOp v s
  else if addr = 0x190014 then rsvReadOp v s
  else if 0x190060 ≤ addr ∧ addr ≤ 0x190068 then when (hasCopy p) (copySet p addr (if addr = 0x190064 then v % 16 else v)) s
  else if addr = 0x19006C then discardOp p v s
  else if 0x1C0040 ≤ addr ∧ addr ≤ 0x1C004C then when (hasCopy p) (copySet p addr v) s
  else if addr = 0x1C0050 then dbWriteOp p v s
  else checkedWrite p addr v s

/-- A write of a fault register set at offset `o` (R380). -/
def faultWrite (p : Path) (fb o v : Nat) (s : State) : State :=
  if o = 0x18 then histCtlOp fb v s
  else if o = 0x1C then memSelOp fb v s
  else if o = 0x20 then memCountsOp fb v s
  else checkedWrite p (fb + o) v s

/-- What a write that acts does at any address that passes R27. -/
def writeEffect (p : Path) (addr v : Nat) (s : State) : State :=
  if inLedgerWindow addr then entryWriteOp p addr v s
  else if inControlStores addr then storeWrite p addr v s
  else if (findReg addr).isNone then recordUnoccupied p addr s
  else if isFb (addr - addr % 0x400) then faultWrite p (addr - addr % 0x400) (addr % 0x400) v s
  else if 0x80000 ≤ addr ∧ addr < 0x98000 then portWrite p ((addr - 0x80000) / 0x1000) (addr % 0x1000) v s
  else if 0x100000 ≤ addr ∧ addr < 0x130000 then actWrite p ((addr - 0x100000) / 0x1000) (addr % 0x1000) v s
  else if 0x180000 ≤ addr ∧ addr < 0x182000 then moverWrite p ((addr - 0x180000) / 0x100) (addr % 0x100) v s
  else sharedWrite p addr v s

/-- R25: a write to a register that has no row of its own; a register that has one acts as its row does. -/
def execBlockRegisterWrite (p : Path) (addr : Nat) (v : Word) (s : State) : Res State :=
  runWrite p addr v.toNat (writeEffect p addr v.toNat) s

/-! ### Reads -/

/-- A read that acts, at any address that passes R27: its side effect and the value sent. -/
def readEffect (p : Path) (addr : Nat) (s : State) : State :=
  let answer (v : Nat) (s : State) := send (.value p addr (BitVec.ofNat 32 v)) s
  if inLedgerWindow addr then answer (windowValue s addr) s
  else if inControlStores addr then
    answer (storeShown s addr) (when (decide (0x14000 ≤ (storeAt addr).2)) (recordUnoccupied p addr) s)
  else if (findReg addr).isNone then answer 0 (recordUnoccupied p addr s)
  else if isPairLo addr then latchRead p addr s
  else if addr = 0x30028 then stampTake p s
  else if perWriter addr then answer (if hasCopy p || decide (addr = 0x160014) then copyGet s p addr else 0) s
  else if 0x100000 ≤ addr ∧ addr < 0x130000 ∧ addr % 0x1000 = 0x664 then doneRead p ((addr - 0x100000) / 0x1000) s
  else answer (regValue s addr) s

/-- A read by a Teller or the Bursar at any address: a bus error where R27 fails, and otherwise the read's answer, which latches at a low
half (R30). -/
def readOp (p : Path) (addr : Nat) (s : State) : State :=
  if !addrOk addr then send (.busError p addr) s else when (readLive s p) (readEffect p addr) s

def execLatchingLowHalfRead (p : Path) (addr : Nat) (s : State) : Res State := runIf s.pwr.powered (readOp p addr) s

/-- The first value among responses. -/
def firstValue : List Response → Nat
  | [] => 0
  | .value _ _ v :: _ => v.toNat
  | _ :: rs => firstValue rs

/-- A response that is no register value. -/
def notValue : Response → Bool
  | .value _ _ _ => false
  | _ => true

/-- A read as part of a larger command: the value goes into the command's data. -/
def readInto (p : Path) (addr : Nat) (s : State) : Nat × State :=
  let t := readEffect p addr { s with out := [] }
  (firstValue t.out, { t with out := s.out ++ t.out.filter notValue })

/-- `n` registers in ascending order. -/
def readMany (p : Path) : Nat → Nat → State → List Nat × State
  | 0, _, s => ([], s)
  | n + 1, addr, s =>
    let (v, s) := readInto p addr s
    let (vs, s) := readMany p n (addr + 4) s
    (v :: vs, s)

/-- R302: every address passes R27. -/
def rangeOk (addr n : Nat) : Bool := (List.range n).all (fun i => addrOk (addr + 4 * i))

/-- Registers written one by one in ascending order, under R25 and R26. -/
def writeMany (p : Path) : Nat → List Word → State → State
  | _, [], s => s
  | addr, v :: vs, s =>
    writeMany p (addr + 4) vs (if forbidden p addr then recordForbidden p addr v.toNat s else writeEffect p addr v.toNat s)

/-- R302: Register Window Write. -/
def windowWriteOp (c : Sqe) (addr : Nat) (vals : List Word) (s : State) : State :=
  if decide (1 ≤ vals.length ∧ vals.length ≤ 1024) && rangeOk addr vals.length then
    complete c 0 0 0 (writeMany (.window c.port) addr vals s)
  else complete c 2 0 0 s

def execRegisterWindowWrite (c : Sqe) (addr : Nat) (vals : List Word) (s : State) : Res State := admin c (windowWriteOp c addr vals) s

/-- R302: Register Window Read. -/
def windowReadOp (c : Sqe) (addr n : Nat) (s : State) : State :=
  if decide (1 ≤ n ∧ n ≤ 1024) && rangeOk addr n then
    let (vs, s) := readMany (.window c.port) n addr s
    complete c 0 0 0 (send (.data c (wordsBytes vs)) s)
  else complete c 2 0 0 s

def execRegisterWindowRead (c : Sqe) (addr count : Nat) (s : State) : Res State := admin c (windowReadOp c addr count) s

/-- The Bursar answers on the management link: its firmware, or its boot ROM (R401). -/
def bursarUp (s : State) : Bool := flag s burB BUR_STATUS_RUNNING || flag s burB BUR_STATUS_BOOT_ROM

/-- R405: Register Read on the management link, answered by the boot ROM too (R401). 4 is Invalid Parameter. -/
def miReadOp (addr n : Nat) (s : State) : State :=
  if bursarUp s then
    if decide (1 ≤ n ∧ n ≤ 64) && rangeOk addr n then
      let (vs, s) := readMany .mi n addr s
      send (.mi 0 (wordsBytes vs)) s
    else send (.mi 4 []) s
  else s

def execRegisterRead (addr count : Nat) (s : State) : Res State := run .mgmt (miReadOp addr count) s

/-- R26, R405: Register Write: an error response and the record. The code of the response is open (notes/assumptions/43.md). -/
def miWriteOp (addr v : Nat) (s : State) : State :=
  if flag s burB BUR_STATUS_RUNNING then
    let s := recordForbidden .mi addr v s
    let (n, s) := takeFree s
    send (.mi (1 + n % 255) []) s
  else s

def execRegisterWrite (addr : Nat) (v : Word) (s : State) : Res State := run .mgmt (miWriteOp addr v.toNat) s

end Sys2Proof.Machine
end

