-- ==== Sys2Proof/Machine/Daybook.lean ====
section
/-!
DEFINITION. Sys2Proof/Machine/Daybook.lean: the Daybook's freeze, mirror and firmware records (R303, R409-R413), the sensors' thresholds
(R404, R415, R416) and the temperature history (R419).
-/
namespace Sys2Proof.Machine
open Reg

/-! ### Freeze (R303, R413) -/

/-- R413: the first freeze writes its record and stops the rings; a freeze while frozen only restarts the window. -/
def freezeOp (c : Sqe) (s : State) : State :=
  let s := if flag s dbB DB_STATUS_FROZEN then s
    else
      let s := dayEvent srcBursar 0x600 2 (c.port.val + 1) 0 0 0 s
      wr dbB DB_STATUS_FROZEN 1 { s with day := { s.day with holdDrops := 0 } }
  complete c 0 0 0 { s with day := { s.day with freezeEnd := now s + secs (rd s dbB DB_CTL_FREEZE_MAX_S) } }

def execDaybookFreeze (c : Sqe) (s : State) : Res State := admin c (freezeOp c) s

/-- R413: a resume; while nothing is frozen it only completes. -/
def resumeOp (c : Sqe) (s : State) : State := complete c 0 0 0 (thaw (c.port.val + 1) s)

def execDaybookResume (c : Sqe) (s : State) : Res State := admin c (resumeOp c) s

/-- R413: FREEZE_MAX_S after the last freeze command. -/
def freezeEndOp (s : State) : State :=
  if flag s dbB DB_STATUS_FROZEN then thaw 0 (reach s.day.freezeEnd s) else s

def execFreezeWindowEnd (s : State) : Res State := run .mgmt freezeEndOp s

/-! ### Firmware records and the mirror -/

/-- R409: DB_WRITE_GO. -/
def execDbWriteGo (p : Path) (v : Word) (s : State) : Res State := runWrite p 0x1C0050 v.toNat (dbWriteOp p v.toNat) s

/-- R412: when a pending record is due in the Reservoir ring. -/
def mirrorDue (s : State) (r : DayRec) : Nat :=
  r.stamp.time + msecs (if 6 ≤ r.sev then 10 else rd s dbB DB_CTL_MIRROR_MS)

/-- R412: a record goes to the Reservoir ring, while it is in service and the Daybook is not frozen. -/
def mirrorRecord (r : DayRec) (s : State) : State :=
  let s := mirrorOne r (reach (mirrorDue s r) s)
  let s := { s with day := { s.day with pending := s.day.pending.filter (fun x => decide (x.dseq ≠ r.dseq)) } }
  setF dbB DB_STATUS_MIRROR_BEHIND (!s.day.pending.isEmpty) s

def mirrorSeqOp (seq : Nat) (s : State) : State :=
  if flag s rsvB RSV_STATUS_OUT_OF_SERVICE || flag s dbB DB_STATUS_FROZEN then s
  else match s.day.pending.find? (fun r => decide (r.dseq = seq)) with
    | some r => mirrorRecord r s
    | none => s

def execDaybookMirror (seq : Nat) (s : State) : Res State := run .mgmt (mirrorSeqOp seq) s

/-! ### Sensors (R404, R415, R416) -/

/-- A sensor that a port carries, while the port is not Online, is unavailable (R404). -/
def sensorLive (s : State) (i : Nat) : Bool :=
  sensorListed i && (if i < 16 then true else if i < 48 then decide (portState s (i - 16) = 4) else decide (portState s (i - 48) = 4))

/-- R404: the value of a sensor in its unit. The die's and the Pool's temperatures have no register: they are what was last
read. -/
def sensorValue (s : State) (i v : Nat) : Int :=
  if i = 2 then rd s fabB FAB_PACE_INDEX
  else if i = 3 then rd s fabB FAB_VCORE_MEAS_MV
  else if i = 4 then rd s pwrB PWR_FEEDA_MON_VOLT_MV
  else if i = 5 then rd s pwrB PWR_FEEDA_MON_CURR_MA
  else if i = 6 then rd s pwrB PWR_FEEDB_MON_VOLT_MV
  else if i = 7 then rd s pwrB PWR_FEEDB_MON_CURR_MA
  else if i = 8 then rd s pwrB PWR_IB_MON_ACTIVE_MV
  else if i = 9 then rd s asyB (ASY_POWER_POWER.ix 0) + rd s asyB (ASY_POWER_POWER.ix 1)
  else if i = 10 then rsvTemp s
  else if 16 ≤ i ∧ i < 40 then hdaDegrees s (i - 16)
  else if 48 ≤ i ∧ i < 72 then rd s (portBase (i - 48)) SP_MEAS_SPEED
  else match tfind s.bur.zone i with
    | some t => t
    | none => ofBits 8 (v % 256)

/-- R407: a value is at a threshold or beyond: bit 0 warning low, 1 warning high, 2 critical low, 3 critical high. -/
def beyond (t : Threshold) (v : Int) (k : Nat) : Bool :=
  bitOf t.mask k &&
    (if k = 0 then decide (v ≤ t.warnLo) else if k = 1 then decide (t.warnHi ≤ v) else if k = 2 then decide (v ≤ t.critLo) else decide (t.critHi ≤ v))

/-- R402, R404: one PlatformEventMessage to the receiver, or the event waits for it. -/
def pldmEvent (i : Nat) (v : Int) (s : State) : State :=
  match s.bur.receiver with
  | some _ => send (.pldm i v) s
  | none => { s with bur := { s.bur with eventsWaiting := s.bur.eventsWaiting ++ [(i, v)] } }

/-- R404: every threshold that lies between the last value and this one sends its event. -/
def crossEvents (i : Nat) (old : Option Int) (v : Int) (s : State) : State :=
  match tfind s.bur.thresholds i with
  | none => s
  | some t => forEach [0, 1, 2, 3] (fun k s =>
      let was := match old with | some o => beyond t o k | none => false
      when (beyond t v k != was) (pldmEvent i v) s) s

/-- R416: early-warning 13, once per crossing. -/
def hdaTempWarn (i : Nat) (old : Option Int) (v : Int) (s : State) : State :=
  let lim : Int := rd s burB BUR_HEALTH_HDA_TEMP_WARN
  let was := match old with | some o => decide (lim ≤ o) | none => false
  when (decide (16 ≤ i ∧ i < 40) && decide (lim ≤ v) && !was) (earlyWarn 13 4 (i - 16) (toBits 32 v)) s

/-- R294: the composite temperature of the values last reported by the die, the Reservoir and the HDAs. -/
def reportedComposite (s : State) : Int :=
  (s.bur.zone.filter (fun e => decide (e.1 = 1 ∨ e.1 = 10) || (decide (16 ≤ e.1 ∧ e.1 < 40) && sensorLive s e.1))).foldl (fun acc e => max acc e.2) (-273)

/-- The composite temperature lies outside a controller's thresholds (R294, R415). -/
def compositeOut (s : State) (h : Nat) (t : Int) : Bool :=
  decide ((ctrlOf s h).tempOver ≤ kelvin t ∨ kelvin t ≤ (ctrlOf s h).tempUnder)

/-- R417: the Critical Warning's temperature bit has become set on a controller whose event configuration asks for it. -/
def tempNotices (before after : Int) (s : State) : State :=
  forEach (List.range 4) (fun h s =>
    when ((ctrlOf s h).hostNqn.isSome && bitOf (ctrlOf s h).asyncCfg 1 && compositeOut s h after && !compositeOut s h before) (aerDeliver h 1 1 2) s) s

/-- The Bursar reads a sensor (R404): the die and the Pool give the value `read`, every other sensor its register's. -/
def reportSensor (i : Nat) (read : Int) (s : State) : State :=
  if sensorLive s i && flag s burB BUR_STATUS_RUNNING then
    let v := if i = 1 ∨ i = 11 then read else sensorValue s i 0
    let old := tfind s.bur.zone i
    let before := if s.bur.zone.isEmpty then v else reportedComposite s
    let s := { s with bur := { s.bur with zone := tins s.bur.zone i v } }
    tempNotices before (reportedComposite s) (hdaTempWarn i old v (crossEvents i old v (tempTrack s)))
  else s

def execSensorThresholdCrossing (sensor : Nat) (value : Int) (s : State) : Res State := run .mgmt (reportSensor sensor value) s

/-! ### Temperature history (R415, R419) -/

/-- R419: the entry of the hour that ends. Extremes of which nothing was read are open. -/
def hourEntry (s : State) : TempHour × State :=
  let x := { s.bur.hourNow with minutes := (s.bur.warnTicks - s.bur.hourWarn) / secs 60 }
  let (f, s) := takeFree s
  let (g, s) := takeFree s
  let die := ofBits 8 (f % 256)
  let hda := ofBits 8 (g % 256)
  let x := if x.dieMax < x.dieMin then { x with dieMax := die, dieMin := die } else x
  (if x.hdaMax < x.hdaMin then { x with hdaMax := hda, hdaMin := hda, hottest := g / 256 % 24, humidity := g / 8192 % 101 } else x, s)

/-- R415, R419: an hour ends. -/
def hourOp (s : State) : State :=
  let s := tempTrack (reach ((now s / secs 3600 + 1) * secs 3600) s)
  let (x, s) := hourEntry s
  let b := s.bur
  let e := if b.history.isEmpty then 0 else (b.newest + 1) % 2 ^ 32
  let on := (s.pwr.feedA.goodSince.isSome || s.pwr.feedB.goodSince.isSome)
  let hours := if on then tmod 0 b.hours 24 (· + 1) else b.hours
  let hours := (List.range 24).foldl (fun hs n => if spRunning s n then tmod 0 hs n (· + 1) else hs) hours
  tempTrack { s with bur := { b with history := tins b.history (e % 8760) (now s / secs 3600 - 1, x), newest := e, hours := hours, hourWarn := b.warnTicks, hourNow := bursarState0.hourNow } }

def execTemperatureHistoryHour (s : State) : Res State := run .mgmt hourOp s

end Sys2Proof.Machine
end

