-- ==== Sys2Proof/Machine/HostLink.lean ====
section
/-!
DEFINITION. Sys2Proof/Machine/HostLink.lean: the host ports' links (R286, R371, R377, R391) and the answers outside TCP (R286, R406).
-/
namespace Sys2Proof.Machine
open Reg

/-- A host port may bring its link up: its SerDes has locked, its network section is applied, it is neither in its fault state nor
held in reset. -/
def linkAllowed (s : State) (h : HostId) : Bool :=
  lockBit s (.host h) && cfgApplied s && (addressBlock s (some h)).isSome && !(unitOf s (fbHost h.val) 0).inFault && !underReset s 7 h.val

/-- HP_LINK.UP changes. -/
def linkSet (h : Nat) (up : Bool) (s : State) : State :=
  if flag s (hostBase h) HP_LINK_UP = up then s else setF (hostBase h) HP_LINK_UP up (wr (hostBase h) HP_LINK_CHANGED 1 s)

def execHostLinkUp (h : HostId) (s : State) : Res State :=
  run .core (fun s => when (linkAllowed s h) (linkSet h.val true) s) s

/-- R286: the partner stops signalling or RS-FEC loses lock. Connections end by their own timers. -/
def execHostLinkDown (h : HostId) (s : State) : Res State := run .core (linkSet h.val false) s

/-- R391: RS-FEC lock has stayed lost for 1 s while the partner signals. -/
def execRsFecLockLost (h : HostId) (s : State) : Res State := run .core (fun s => lastingFault (fbHost h.val) 0 2 (linkSet h.val false s)) s

/-- R286: ARP is IPv4's, NDP is IPv6's, echo is of both. -/
def answers (ver : Nat) : NetFrame → Bool
  | .arp => decide (ver = 4)
  | .ndp => decide (ver = 6)
  | .icmpEcho => decide (ver = 4 ∨ ver = 6)
  | .other => false

/-- A port that takes frames: its link is up and it has an address. -/
def portListens (s : State) (port : Option HostId) : Bool :=
  match port with
  | some h => flag s (hostBase h.val) HP_LINK_UP && live s .core
  | none => flag s burB BUR_STATUS_MGMT_UP && flag s burB BUR_STATUS_RUNNING

/-- R286, R406: a request of a neighbour or an echo is answered, any other frame outside TCP is not. -/
def netFrameOp (port : Option HostId) (f : NetFrame) (s : State) : State :=
  match addressBlock s port with
  | some b => when (portListens s port && answers (ipVersion b) f) (send (.net port)) s
  | none => s

/-- R55, R61: a frame that finds its port's receive FIFO full is dropped and counted. -/
def frameDrop (port : Option HostId) (s : State) : State :=
  match port with
  | some h => rxDropOp h.val s
  | none => { s with fab := { s.fab with mgmtDrops := s.fab.mgmtDrops + 1 } }

/-- `served`: the core has served the port's FIFO in time (R55). -/
def execArpNdpIcmpEcho (port : Option HostId) (frame : NetFrame) (served : Bool) (s : State) : Res State :=
  run .mgmt (if served then netFrameOp port frame else frameDrop port) s

end Sys2Proof.Machine
end

