-- ==== Sys2Proof/Machine/Mgmt.lean ====
section
/-!
DEFINITION. Sys2Proof/Machine/Mgmt.lean: the management link's MCTP control messages, NVMe-MI and PLDM commands (R401-R404). The layouts of
the responses are those of DSP0236, NVMe-MI 1.2, DSP0240 and DSP0248, which the rules name (notes/assumptions/43.md).
-/
namespace Sys2Proof.Machine
open Reg

def byte (n : Nat) : Byte := BitVec.ofNat 8 n

/-- A response with `n` bytes after `known` that this spec leaves open. -/
def miFree (known : List Byte) (n : Nat) (s : State) : State :=
  let (v, s) := takeFree s
  send (.mi 0 (known ++ (List.range n).map (freeByte v))) s

/-- The Bursar's firmware runs: it answers NVMe-MI and PLDM (R400, R401). -/
def bursarRuns (f : State → State) (s : State) : State := when (flag s burB BUR_STATUS_RUNNING) f s

/-! ### MCTP control (R402) -/

/-- Set Endpoint ID. 0x00 and 0xFF are no endpoint IDs. -/
def setEidOp (eid : Byte) (s : State) : State :=
  if eid = 0 ∨ eid = 0xFF then send (.mi 0 [2]) s
  else send (.mi 0 [0, 0, eid, 0]) (wr burB BUR_STATUS_EID eid.toNat s)

def execSetEndpointId (eid : Byte) (s : State) : Res State := run .mgmt (fun s => when (bursarUp s) (setEidOp eid) s) s

def execGetEndpointId (s : State) : Res State :=
  run .mgmt (fun s => when (bursarUp s) (miFree [0, byte (rd s burB BUR_STATUS_EID)] 2) s) s

/-- R402: the message types supported: MCTP control, PLDM, NVMe-MI. -/
def msgTypeOk (ty : Nat) : Bool := decide (ty = 0 ∨ ty = 1 ∨ ty = 4 ∨ ty = 0xFF)

def execGetMctpVersionSupport (msgType : Nat) (s : State) : Res State :=
  run .mgmt (fun s => when (bursarUp s) (if msgTypeOk msgType then miFree [0, 1] 4 else send (.mi 0 [0x80])) s) s

def execGetMessageTypeSupport (s : State) : Res State :=
  run .mgmt (fun s => when (bursarUp s) (send (.mi 0 [0, 2, 1, 4])) s) s

/-! ### NVMe-MI (R403) -/

/-- Read NVMe-MI Data Structure: subsystem information, port information, controller list, controller information, commands
supported. -/
def miStructOp (dtyp : Nat) (s : State) : State :=
  if dtyp = 0 then miFree [] 32 s
  else if dtyp = 1 then miFree [] 32 s
  else if dtyp = 2 then send (.mi 0 (leBytes 2 4 ++ leBytes 2 1 ++ leBytes 2 2 ++ leBytes 2 3 ++ leBytes 2 4)) s
  else if dtyp = 3 then miFree [] 32 s
  else if dtyp = 4 then miFree [] 32 s
  else send (.mi 4 []) s

def execReadNvmeMiDataStructure (dtyp : Nat) (s : State) : Res State := run .mgmt (bursarRuns (miStructOp dtyp)) s

/-- NVM Subsystem Health Status Poll: the Critical Warning inverted, the composite temperature, the percentage used. -/
def subsystemPollOp (s : State) : State :=
  let (v, s) := takeFree s
  let die := dieTemp s v
  send (.mi 0 ([freeByte v 1, byte (255 - critBits s 0 die), byte (toBits 8 (composite s die)), byte (rd s rsvB RSV_HEALTH_WEAR_PCT), freeByte v 2, freeByte v 3, 0, 0])) s

def execNvmSubsystemHealthStatusPoll (s : State) : Res State := run .mgmt (bursarRuns subsystemPollOp) s

/-- Controller Health Status Poll of one controller. -/
def controllerPollOp (h : Nat) (s : State) : State :=
  let (v, s) := takeFree s
  let die := dieTemp s v
  send (.mi 0 (leBytes 2 (h + 1) ++ [byte (b2n (flag s (hostBase h) HP_CONN_READY) + 2 * (v / 256 % 128)), freeByte v 2] ++ leBytes 2 (kelvin (composite s die))
    ++ [byte (rd s rsvB RSV_HEALTH_WEAR_PCT), byte (rd s rsvB RSV_HEALTH_SPARE_PCT), byte (critBits s h die)] ++ zeros 7)) s

def execControllerHealthStatusPoll (h : HostId) (s : State) : Res State := run .mgmt (bursarRuns (controllerPollOp h.val)) s

/-- Configuration Get: SMBus frequency, health status change, MCTP transmission unit size. -/
def execConfigurationGet (id : Nat) (s : State) : Res State :=
  run .mgmt (bursarRuns (if 1 ≤ id ∧ id ≤ 3 then miFree [] 3 else send (.mi 4 []))) s

/-- VPD Read. Which byte of the VPD holds what of the part number, the stepping and the serial is open. -/
def execVpdRead (_offset len : Nat) (s : State) : Res State := run .mgmt (bursarRuns (miFree [] len)) s

/-- A tunnelled command's completion and data. -/
def miAdmin (dw0 status : Nat) (data : List Byte) (s : State) : State :=
  send (.mi 0 (leBytes 4 dw0 ++ zeros 4 ++ leBytes 2 0 ++ leBytes 2 (statusField status (b2n (decide (dnrOf status = some true)))) ++ data)) s

/-- Identify, Get Log Page and Get Features under a host port's rules; the link changes nothing, so a read leaves what it reports
pending. -/
def tunnelOp (t : Tunnelled) (s : State) : State :=
  match t with
  | .identify cns csi nsid =>
    let (v, s1) := takeFree s
    let (st, p) := identifyData s 0 cns csi nsid
    if st = 0 then miAdmin 0 0 (pageBytes p 0 4096 v) s1 else miAdmin 0 st [] s
  | .getLog lid lsp offset len =>
    match readPage srcBursar 0 lid lsp offset len s with
    | (some bs, s) => miAdmin 0 0 bs s
    | (none, s) => miAdmin 0 2 [] s
  | .getFeatures fid =>
    let (v, s1) := takeFree s
    match featureValue s1 0 fid v with
    | some (dw0, bs) => miAdmin dw0 0 bs s1
    | none => miAdmin 0 2 [] s
  | .other _ => send (.mi 3 []) s

def execTunnelledAdminCommand (t : Tunnelled) (s : State) : Res State := run .mgmt (bursarRuns (tunnelOp t)) s

/-! ### PLDM (R404) -/

def execGetTid (s : State) : Res State := run .mgmt (bursarRuns (miFree [0] 1)) s

/-- GetPLDMVersion of types 0 and 2. -/
def execGetPldmVersion (ty : Nat) (s : State) : Res State :=
  run .mgmt (bursarRuns (if ty = 0 ∨ ty = 2 then miFree [0] 13 else send (.mi 0 [0x83]))) s

def execGetPldmTypes (s : State) : Res State := run .mgmt (bursarRuns (send (.mi 0 ([0, 5] ++ zeros 7)))) s

/-- A bitmap of commands as 32 bytes. -/
def commandMap (cs : List Nat) : List Byte := leBytes 32 (cs.foldl (fun acc c => setBit acc c true) 0)

/-- GetPLDMCommands: GetTID, GetPLDMVersion, GetPLDMTypes and GetPLDMCommands of type 0; SetEventReceiver, PlatformEventMessage,
GetSensorReading and GetPDR of type 2. -/
def pldmCommands (ty : Nat) : List Byte :=
  if ty = 0 then 0 :: commandMap [2, 3, 4, 5]
  else if ty = 2 then 0 :: commandMap [0x04, 0x0A, 0x11, 0x51]
  else [0x83]

def execGetPldmCommands (ty : Nat) (s : State) : Res State := run .mgmt (bursarRuns (send (.mi 0 (pldmCommands ty)))) s

/-- The PDR of a sensor: its number and the thresholds whose MASK bits are set (R407). -/
def pdrBytes (s : State) (i : Nat) : List Byte :=
  let th := (tfind s.bur.thresholds i).getD ⟨0, 0, 0, 0, 0⟩
  let t (k : Nat) (v : Int) : List Byte := if bitOf th.mask k then leBytes 4 (toBits 32 v) else []
  leBytes 2 i ++ leBytes 1 (th.mask % 16) ++ t 0 th.warnLo ++ t 1 th.warnHi ++ t 2 th.critLo ++ t 3 th.critHi

def pdrOp (i : Nat) (s : State) : State :=
  if sensorListed i then send (.mi 0 ([0] ++ pdrBytes s i)) s else send (.mi 0 [0x82]) s

def execGetPdr (handle : Nat) (s : State) : Res State := run .mgmt (bursarRuns (pdrOp handle)) s

/-- GetSensorReading: the operational state is 0 enabled or 2 unavailable; the reading has 4 bytes. -/
def readingOp (i : Nat) (s : State) : State :=
  if sensorListed i then
    let (v, s) := takeFree s
    if sensorLive s i then send (.mi 0 ([0, 5, 0, freeByte v 1, freeByte v 2, freeByte v 3, freeByte v 4] ++ leBytes 4 (toBits 32 (sensorValue s i v)))) s
    else send (.mi 0 ([0, 5, 2] ++ (List.range 8).map (freeByte v))) s
  else send (.mi 0 [0x80]) s

def execGetSensorReading (sensor : Nat) (s : State) : Res State := run .mgmt (bursarRuns (readingOp sensor)) s

/-- SetEventReceiver: the events that waited go to the receiver (R402). -/
def receiverOp (addr : Byte) (s : State) : State :=
  let s := send (.mi 0 [0]) { s with bur := { s.bur with receiver := some addr } }
  let evs := s.bur.eventsWaiting
  forEach evs (fun e s => send (.pldm e.1 e.2) s) { s with bur := { s.bur with eventsWaiting := [] } }

def execSetEventReceiver (addr : Byte) (s : State) : Res State := run .mgmt (bursarRuns (receiverOp addr)) s

end Sys2Proof.Machine
end

