-- ==== Sys2Proof/Machine/Nvme.lean ====
section
/-!
DEFINITION. Sys2Proof/Machine/Nvme.lean: connections and controllers (R286-R290, R313-R316), the admin commands that act on one
controller (R292-R295, R317, R417), firmware packages (R315, R422).
-/
namespace Sys2Proof.Machine
open Reg

/-! ### Connections (R288) -/

/-- R288: why a Connect is refused: 0 it is not. Connect Controller Busy 0x181, Connect Invalid Parameters 0x182. -/
def connectStatus (s : State) (h nqn q depth : Nat) : Nat :=
  let b := hostBase h
  let x := ctrlOf s h
  if service s = 0 ∨ service s = 4 then 0x181
  else if (match x.hostNqn with | some n => decide (n ≠ nqn) | none => false) then 0x181
  else if x.quiescing.any (fun e => decide (e.1 = q) && decide (now s < e.2)) then 0x181
  else if q = 0 then (if flag s b HP_CONN_ADMIN || !decide (1 ≤ depth ∧ depth ≤ 32) then 0x182 else 0)
  else if !flag s b HP_CONN_READY then 0x181
  else if x.hostNqn.isNone ∨ !decide (q ≤ x.ioqMax) ∨ !decide (1 ≤ depth ∧ depth ≤ x.depthMax) ∨ x.queues.any (fun e => decide (e.1 = q)) = true then 0x182
  else 0

/-- R289: KATO from 1 s; 0 leaves the timer off. -/
def katoOf (ms : Nat) : Nat := if ms = 0 then 0 else max 1000 ms

/-- R286: the TCP connections of a port. -/
def connections (s : State) (h : Nat) : Nat := b2n (flag s (hostBase h) HP_CONN_ADMIN) + (ctrlOf s h).queues.length + (ctrlOf s h).discovery

/-- R288: a Connect to the discovery controller. -/
def discoveryConnect (c : Sqe) (s : State) : State :=
  if service s = 0 ∨ service s = 4 then complete c 0x181 0 0 s
  else complete c 0 0xFFFF 0 (modCtrl c.port.val (fun x => { x with discovery := x.discovery + 1 }) s)

def connectOp (c : Sqe) (nqn q depth kato : Nat) (s : State) : State :=
  let h := c.port.val
  if !flag s (hostBase h) HP_LINK_UP || s.pwr.failing || s.obj.activating.isSome || decide (130 ≤ connections s h) then s
  else if q = discQid then discoveryConnect c s
  else
    let st := connectStatus s h nqn q depth
    if st ≠ 0 then complete c st 0 0 s
    else if q = 0 then
      let s := modCtrl h (fun x => { x with hostNqn := some nqn, kato := katoOf kato, lastAlive := now s, quiescing := x.quiescing.filter (fun e => decide (e.1 ≠ 0)) }) s
      complete c 0 (h + 1) 0 (wr (hostBase h) HP_CONN_ADMIN 1 s)
    else
      let s := modCtrl h (fun x => { x with queues := x.queues ++ [(q, depth)], quiescing := x.quiescing.filter (fun e => decide (e.1 ≠ q)) }) s
      complete c 0 (h + 1) 0 (syncConn h s)

def execConnect (c : Sqe) (hostNqn queue depth kato : Nat) (s : State) : Res State :=
  run .core (connectOp c hostNqn queue depth kato) s

/-- The end of a queue's connection (R313, R314): the admin queue's ends the association. -/
def endQueue (h q : Nat) (s : State) : State :=
  if q = 0 then (if flag s (hostBase h) HP_CONN_ADMIN then dropAssociation h s else s)
  else if q = discQid then modCtrl h (fun x => { x with discovery := x.discovery - 1 }) s
  else if (ctrlOf s h).queues.any (fun e => decide (e.1 = q)) then queueResetOp h q s
  else s

def execDisconnect (c : Sqe) (s : State) : Res State := nvme c (fun s => endQueue c.port.val c.qid (complete c 0 0 0 s)) s

def execQueueReset (h : HostId) (queue : Nat) (s : State) : Res State := run .core (endQueue h.val queue) s

/-- R287: a header digest failure ends its connection. -/
def execHeaderDigestFailure (h : HostId) (queue : Nat) (s : State) : Res State :=
  run .core (fun s => endQueue h.val queue (incF (hostBase h.val) HP_ERRS_DIGEST_ERRS s)) s

/-- R287: a data digest failure completes the command with Data Transfer Error. -/
def execDataDigestFailure (c : Sqe) (s : State) : Res State :=
  nvme c (fun s => complete c 4 0 0 (incF (hostBase c.port.val) HP_ERRS_DIGEST_ERRS s)) s

/-- R316: the keep-alive timer of an association expires. -/
def expiryOp (h : Nat) (s : State) : State :=
  let x := ctrlOf s h
  if flag s (hostBase h) HP_CONN_ADMIN && decide (x.kato ≠ 0) then ctrlReset h (reach (x.lastAlive + msecs x.kato) s) else s

def execKeepAliveExpiry (h : HostId) (s : State) : Res State := run .core (expiryOp h.val) s

def execKeepAlive (c : Sqe) (s : State) : Res State :=
  admin c (fun s => complete c 0 0 0 (modCtrl c.port.val (fun x => { x with lastAlive := now s }) s)) s

/-! ### Properties -/

def propertyOp (c : Sqe) (ofst : Nat) (s : State) : State :=
  let (v, s) := takeFree s
  match property s c.port.val ofst v with
  | some (lo, hi) => complete c 0 lo hi s
  | none => complete c 2 0 0 s

def execPropertyGet (c : Sqe) (ofst : Nat) (s : State) : Res State := admin c (propertyOp c ofst) s

/-- R289, R290: CC.EN written 1. -/
def enableOp (h : Nat) (s : State) : State :=
  let b := hostBase h
  if flag s b HP_CONN_ENABLED then s
  else
    let s := modCtrl h (fun x => { x with ioqMax := rd s qeB QE_CTL_IOQ_MAX, depthMax := rd s qeB QE_CTL_DEPTH_MAX }) s
    setF b HP_CONN_READY (decide (service s = 1 ∨ service s = 2)) (wr b HP_CONN_ENABLED 1 s)

def execControllerEnable (c : Sqe) (s : State) : Res State := admin c (fun s => complete c 0 0 0 (enableOp c.port.val s)) s

/-- R313: CC.EN written 0 while it is 1. -/
def execControllerDisable (c : Sqe) (s : State) : Res State :=
  admin c (fun s => when (flag s (hostBase c.port.val) HP_CONN_ENABLED) (ctrlReset c.port.val) (complete c 0 0 0 s)) s

/-- R320, R363: NSSR. A warm reset leaves no completion (R314); another value has no effect. -/
def nssrOp (c : Sqe) (v : Nat) (s : State) : State := if v = 0x4E564D65 then assertReset .warm 4 s else complete c 0 0 0 s

def execNvmSubsystemReset (c : Sqe) (v : Word) (s : State) : Res State := admin c (nssrOp c v.toNat) s

/-! ### Reading: log pages, Identify, features -/

def logOp (c : Sqe) (lid lsp : Nat) (rae : Bool) (offset len : Nat) (s : State) : State :=
  match readPage (tellerSrc s).1 c.port.val lid lsp offset len (tellerSrc s).2 with
  | (some bytes, s) => complete c 0 0 0 (when (decide (lid = 0xC1) && !rae) (clearPending offset len) (send (.data c bytes) s))
  | (none, s) => complete c 2 0 0 s

/-- R288, R295: the discovery controller has page 0x70 and no other. -/
def discoveryLog (c : Sqe) (lid offset len : Nat) (s : State) : State :=
  if lid = 0x70 then
    let (v, s) := takeFree s
    complete c 0 0 0 (send (.data c (pageBytes (discoveryPage s) offset len v)) s)
  else complete c 2 0 0 s

def execGetLogPage (c : Sqe) (lid lsp : Nat) (rae : Bool) (offset len : Nat) (s : State) : Res State :=
  if c.qid = discQid then nvme c (discoveryLog c lid offset len) s else admin c (logOp c lid lsp rae offset len) s

def identifyOp (c : Sqe) (cns csi nsid : Nat) (s : State) : State :=
  match identifyData s c.port.val cns csi nsid with
  | (0, p) =>
    let (v, s) := takeFree s
    complete c 0 0 0 (send (.data c (pageBytes p 0 4096 v)) s)
  | (st, _) => complete c st 0 0 s

def execIdentify (c : Sqe) (cns csi nsid : Nat) (s : State) : Res State := admin c (identifyOp c cns csi nsid) s

def featureOp (c : Sqe) (fid : Nat) (s : State) : State :=
  let (v, s) := takeFree s
  match featureValue s c.port.val fid v with
  | some (dw, []) => complete c 0 dw 0 s
  | some (dw, bytes) => complete c 0 dw 0 (send (.data c bytes) s)
  | none => complete c 2 0 0 s

def execGetFeatures (c : Sqe) (fid : Nat) (s : State) : Res State := admin c (featureOp c fid) s

/-- R317: Abort completes with DW0 bit 0 set and leaves its target alone. -/
def execAbort (c : Sqe) (_sqid _cmd : Nat) (s : State) : Res State := admin c (complete c 0 1 0) s

/-! ### Set Features (R294) -/

/-- Save is not supported (R292); the other Sets act on the controller. -/
def setFeature (c : Sqe) (save : Bool) (f : State → State) (s : State) : Res State :=
  admin c (fun s => if save then complete c 2 0 0 s else f s) s

def execSetPowerManagement (c : Sqe) (save : Bool) (ps : Nat) (s : State) : Res State :=
  setFeature c save (complete c (if ps = 0 then 0 else 2) 0 0) s

def thresholdOp (c : Sqe) (kelvin : Nat) (under : Bool) (s : State) : State :=
  complete c 0 0 0 (modCtrl c.port.val (fun x => if under then { x with tempUnder := kelvin % 65536 } else { x with tempOver := kelvin % 65536 }) s)

def execSetTemperatureThreshold (c : Sqe) (save : Bool) (kelvin : Nat) (under : Bool) (s : State) : Res State :=
  setFeature c save (thresholdOp c kelvin under) s

def execSetVolatileWriteCache (c : Sqe) (save wce : Bool) (s : State) : Res State := setFeature c save (complete c (if wce then 0 else 2) 0 0) s

/-- R289: the queues allowed are reported, whatever number is asked for. -/
def execSetNumberOfQueues (c : Sqe) (save : Bool) (_nsq _ncq : Nat) (s : State) : Res State :=
  setFeature c save (fun s => complete c 0 (((ctrlOf s c.port.val).ioqMax - 1) * 65537) 0 s) s

def execSetAsyncEventConfiguration (c : Sqe) (save : Bool) (v : Word) (s : State) : Res State :=
  setFeature c save (fun s => complete c 0 0 0 (modCtrl c.port.val (fun x => { x with asyncCfg := v.toNat }) s)) s

def katoOp (c : Sqe) (kato : Nat) (s : State) : State :=
  complete c 0 0 0 (modCtrl c.port.val (fun x => { x with kato := katoOf kato, lastAlive := now s }) s)

def execSetKeepAliveTimer (c : Sqe) (save : Bool) (kato : Nat) (s : State) : Res State := setFeature c save (katoOp c kato) s

/-! ### Events (R289, R417) -/

/-- A request takes the oldest event that waits, or waits itself; the fifth outstanding one is refused. -/
def aerOp (c : Sqe) (s : State) : State :=
  let h := c.port.val
  let x := ctrlOf s h
  match x.events with
  | (t, i, p) :: rest => aerDeliver h t i p (modCtrl h (fun x => { x with events := rest, aers := [c] }) s)
  | [] => if 4 ≤ x.aers.length then complete c 0x105 0 0 s else modCtrl h (fun x => { x with aers := x.aers ++ [c] }) s

def execAsynchronousEventRequest (c : Sqe) (s : State) : Res State := admin c (aerOp c) s

/-! ### Firmware (R315, R422) -/

/-- R422: the buffer takes a chunk at the place that it has reached; an offset of 0 begins anew. -/
def downloadOp (c : Sqe) (ofst : Nat) (data : List Byte) (s : State) : State :=
  let have_ := if ofst = 0 then [] else s.obj.fwBuf
  if ofst % 4096 ≠ 0 ∨ ofst ≠ have_.length then complete c 0x114 0 0 s
  else if 2 ^ 24 < ofst + data.length then complete c 2 0 0 s
  else complete c 0 0 0 { s with obj := { s.obj with fwBuf := have_ ++ data } }

def execFirmwareImageDownload (c : Sqe) (ofst : Nat) (data : List Byte) (s : State) : Res State := admin c (downloadOp c ofst data) s

/-- The slots of the flash. -/
def fwSlot (f : Flash) (i : Nat) : FwSlot := if i = 1 then f.fw1 else f.fw2
def setSlot (i : Nat) (x : FwSlot) (s : State) : State :=
  match s.cfg.flash with
  | none => s
  | some f => { s with cfg := { s.cfg with flash := some (if i = 1 then { f with fw1 := x } else { f with fw2 := x }) } }

/-- BUR_FW follows the slots: their activation values and the slot that runs next (R421). -/
def syncSlots (s : State) : State :=
  match s.cfg.flash with
  | none => s
  | some f =>
    let v1 := slotValue f.fw1
    let v2 := slotValue f.fw2
    let first := if v1 < v2 then 2 else 1
    let next := if (fwSlot f first).pass then first else if (fwSlot f (3 - first)).pass then 3 - first else 0
    wr burB BUR_FW_NEXT_SLOT next (wr burB BUR_FW_VAL1_VALUE v1 (wr burB BUR_FW_VAL2_VALUE v2 s))

/-- R422: an activation value is 1 + the higher of the two slots' values; a full block is erased first. -/
def activateSlot (i : Nat) (s : State) : State :=
  match s.cfg.flash with
  | none => s
  | some f =>
    let x := fwSlot f i
    let v := 1 + max (slotValue f.fw1) (slotValue f.fw2)
    syncSlots (setSlot i { x with values := if 16384 ≤ x.values.length then [v] else x.values ++ [v] } s)

/-- VERSION of a slot as one number, for the firmware records. -/
def slotVersion (s : State) (i : Nat) : Nat := match s.cfg.flash with | some f => leNat ((fwSlot f i).version.take 8) | none => 0

/-- R409: a firmware record: slot and VERSION. -/
def fwRecord (trig sev i : Nat) (s : State) : State := dayEvent srcBursar trig sev i (slotVersion s i % 2 ^ 32) (slotVersion s i / 2 ^ 32) 0 s

/-- R422: write the downloaded package into a slot. Its VERSION and its control stores lie at places that the spec does not give. -/
def writeSlotFw (i : Nat) (s : State) : State :=
  let (v, s) := takeFree s
  let s := setSlot i ⟨true, leBytes 8 v, [], []⟩ s
  fwRecord 0x501 4 i (fwRecord 0x500 2 i (syncSlots s))

/-- R315 step 1: an activation starts. -/
def activationStart (i : Nat) (s : State) : State :=
  let s := forEach (List.range 4) (fun h s => wr (hostBase h) HP_CONN_PROCESSING_PAUSED 1 s) s
  let s := forEach (List.range 4) (fun h => when ((ctrlOf s h).hostNqn.isSome && bitOf (ctrlOf s h).asyncCfg 9) (aerDeliver h 2 1 3)) s
  let s := fwRecord 0x502 5 i s
  { s with obj := { s.obj with activating := some (i, now s + secs 5), fwCommitted := true } }

/-- R422: Firmware Commit on slot `i`. The CRC and the signature of what was downloaded pass or not: a free value. The slot is erased
before the package is verified, and a package that fails leaves it without MAGIC (notes/assumptions/36.md). -/
def commitSlot (c : Sqe) (ca i : Nat) (f : Flash) (s : State) : State :=
  if ca ≤ 1 then
    let (ok, s) := takeFree s
    if i = rd s burB BUR_FW_RUNNING_SLOT then complete c 0x106 0 0 s
    else if s.obj.fwBuf = [] then complete c 0x107 0 0 s
    else if leAt s.obj.fwBuf 0 4 ≠ 0x57464D4C ∨ ok % 2 = 0 then complete c 0x107 0 0 (syncSlots (setSlot i ⟨false, [], [], []⟩ s))
    else
      let s := writeSlotFw i s
      let s := if ca = 1 then { activateSlot i s with obj := { s.obj with fwCommitted := true } } else s
      complete c 0 0 0 s
  else if !(fwSlot f i).pass then complete c 0x107 0 0 s
  else
    let s := activateSlot i s
    if ca = 3 then activationStart i (complete c 0 0 0 s)
    else complete c 0 0 0 { s with obj := { s.obj with fwCommitted := true } }

def fwCommitOp (c : Sqe) (ca fs : Nat) (s : State) : State :=
  if 3 < ca then complete c 2 0 0 s
  else if 2 < fs then complete c 0x106 0 0 s
  else match s.cfg.flash with
    | none => complete c 0x113 0 0 s
    | some f =>
      if service s = 0 ∨ service s = 4 then complete c 0x113 0 0 s
      else commitSlot c ca (if fs = 0 then (if rd s burB BUR_FW_RUNNING_SLOT = 1 then 2 else 1) else fs) f s

def execFirmwareCommit (c : Sqe) (ca fs : Nat) (s : State) : Res State := admin c (fwCommitOp c ca fs) s

/-- R315 step 3: admitted commands that still run. -/
def draining (s : State) : Bool := !(s.obj.waiting.isEmpty && s.obj.locks.isEmpty && s.str.fetches.isEmpty && s.obj.flushes.isEmpty)

/-- R315 step 4: every cell that is not yet in the Reservoir is copied there. -/
def copyAll (s : State) : State := forEach (s.pool.segs.map Prod.fst) drainEndOp (offerAll s)

/-- R315 steps 3 to 5: the drain has ended, within 5 s; what still runs is aborted, every commit is made durable, the connections
close and the module enters Warm. While a commit is not durable yet, the module waits. -/
def drainEndedOp (s : State) : State :=
  match s.obj.activating with
  | none => s
  | some (_, till) =>
    let s := copyAll (if draining s then reach till s else s)
    if s.obj.undo.all (fun u => commitDurable s u) then
      let s := if flag s rsvB RSV_STATUS_OUT_OF_SERVICE then s else journalCommit s
      assertReset .warm 8 (dropHosts (advanceDurable s.obj.commit s))
    else s

def execActivationDrainEnd (s : State) : Res State := run .core drainEndedOp s

end Sys2Proof.Machine
end

