-- ==== Sys2Proof/Machine/StreamOps.lean ====
section
/-!
DEFINITION. Sys2Proof/Machine/StreamOps.lean: the export stream format (R328), the checks and commits of an import (R330, R331), the
laying out of an export (R329, R332).
-/
namespace Sys2Proof.Machine
open Reg

/-- The next multiple of 4 KiB. -/
def pad4k (n : Nat) : Nat := ceilDiv n 4096 * 4096

/-! ### Parts of a stream (R325, R328) -/

/-- R325, R328: a record's header, its events and the padding after them. -/
def recordHead (s : State) (n : Nat) (o : Obj) (damaged foreign : Bool) : List Byte :=
  fillTo (pad4k (0x100 + 64 * o.events.length)) (provHead s 0x4F584D4C n (if foreign then 0 else o.spans.length) o damaged [] o.events)

/-- R328: a record. A damaged one has no value. -/
def recordPart (s : State) (n : Nat) (o : Obj) (damaged foreign : Bool) : List Byte :=
  recordHead s n o damaged foreign ++ (if damaged then [] else fillTo (pad4k o.value.length) o.value)

/-- R328: the stream header. -/
def streamHead (s : State) (source : Nat) (t : Stamp) (first last : Nat) : List Byte :=
  withCrc (fillTo 0xFFC (leBytes 4 0x53584D4C ++ leBytes 2 2 ++ leBytes 2 source ++ leBytes 16 (shelfId s) ++ stampBytes t ++ leBytes 8 first ++ leBytes 8 last))

/-- R328: the stream trailer. -/
def streamTail (records damaged : Nat) (before : List Byte) (t : Stamp) : List Byte :=
  withCrc (fillTo 0xFFC (leBytes 4 0x54584D4C ++ leBytes 2 2 ++ zeros 2 ++ leBytes 8 records ++ leBytes 8 damaged ++ leBytes 8 before.length
    ++ stampBytes t ++ zeros 4 ++ sha256 before))

/-- The CRC-32C of a 4 KiB header or trailer. -/
def partCrcOk (bs : List Byte) : Bool := decide (crc32c (bs.take 0xFFC) = leAt bs 0xFFC 4)

/-! ### Streams in the state -/

def streamKey (h handle : Nat) : Nat := 16 * h + handle

def putImport (k : Nat) (x : Stream) (s : State) : State := { s with obj := { s.obj with imports := tins s.obj.imports k x } }
def putExport (k : Nat) (x : Stream) (s : State) : State := { s with obj := { s.obj with exports := tins s.obj.exports k x } }
def endImport (k : Nat) (s : State) : State := { s with obj := { s.obj with imports := tdel s.obj.imports k } }

/-- The ticket of the lock under which an export carries a record, and its queue mark in the lock table. -/
def exportTicket (k : Nat) : Nat := 65536 + k

def endExport (k : Nat) (s : State) : State := unlock (exportTicket k) { s with obj := { s.obj with exports := tdel s.obj.exports k } }

/-! ### Import (R330, R331) -/

/-- A record of an import as far as it has arrived. -/
structure ImpRec where
  ns : Nat
  key : List Byte
  size : Nat
  num : Nat
  hash : List Byte
  damaged : Bool
  events : List ProvEvent
  value : List Byte
  total : Nat
  deriving DecidableEq, Repr

/-- The record that starts at the head of `bs`, once it is complete. -/
def recordAt (bs : List Byte) : Option ImpRec :=
  let e := leAt bs 0x28 4
  let size := leAt bs 0x18 8
  let damaged := bitOf (leAt bs 0x52 1) 0
  let head := pad4k (0x100 + 64 * e)
  let total := head + (if damaged then 0 else pad4k size)
  if bs.length < 0x100 ∨ bs.length < total then none
  else some ⟨leAt bs 6 1, (bs.drop 8).take (leAt bs 7 1), size, leAt bs 0x20 8, (bs.drop 0x30).take 32, damaged, eventsFrom bs e 0x100,
    if damaged then [] else (bs.drop head).take size, total⟩

/-- R330: the header's CRC. -/
def recordCrcOk (bs : List Byte) : Bool :=
  let e := leAt bs 0x28 4
  decide (crc32c (bs.take 0xFC ++ (bs.drop 0x100).take (64 * e)) = leAt bs 0xFC 4)

/-- Spans that tile [o, size). -/
def tiles : Nat → Nat → List Span → Bool
  | o, size, [] => decide (o = size)
  | o, size, sp :: t => decide (sp.offset = o) && tiles (o + sp.len) size t

/-- R331: spans of 16 MiB from offset 0. -/
def cutSpans (value : List Byte) : Nat → Nat → List Span
  | 0, _ => []
  | n + 1, o => if value.length ≤ o then [] else
    let b := (value.drop o).take (2 ^ 24)
    ⟨o, b.length, sha256 b⟩ :: cutSpans value n (o + 2 ^ 24)

/-- R330: the value matches OBJECT_HASH and, in a FORMAT 2 stream, every span hash. -/
def recordHashOk (format : Nat) (r : ImpRec) : Bool :=
  decide (r.value.length = r.size) && decide (sha256 r.value = r.hash)
    && (decide (format = 1) || (spansOf r.events).all (fun sp => decide (sha256 ((r.value.drop sp.offset).take sp.len) = sp.hash)))

/-- The object that an import makes of a record: its spans, hash state and source events. -/
def importObject (format : Nat) (r : ImpRec) : Obj :=
  let spans := spansOf r.events
  let o := hashSpan (obj0 r.ns r.key) r.value
  { o with spans := if format ≠ 1 ∧ tiles 0 r.size spans = true then spans else cutSpans r.value (r.size / 2 ^ 24 + 1) 0, events := r.events }

/-- How far the checking of a stream has come. -/
inductive ImpStep
  | wait
  | fail (status : Nat) (sev5 : Bool)
  | go (x : Stream) (s : State)

/-- R330: the stream header. -/
def importHead (x : Stream) (s : State) : ImpStep :=
  let bs := x.bytes.take 4096
  if bs.length < 4096 then .wait
  else if leAt bs 0 4 = 0x53584D4C ∧ (leAt bs 4 2 = 1 ∨ leAt bs 4 2 = 2) ∧ partCrcOk bs = true then .go { x with parsed := 4096 } s
  else .fail 0xC8 false

/-- R330: the trailer. -/
def importTail (x : Stream) (rest : List Byte) (s : State) : ImpStep :=
  let bs := rest.take 4096
  if bs.length < 4096 then .wait
  else if partCrcOk bs && decide (leAt bs 8 8 = x.records ∧ leAt bs 0x18 8 = x.parsed) && decide ((bs.drop 0x30).take 32 = sha256 (x.bytes.take x.parsed)) then
    .go { x with parsed := x.parsed + 4096, ended := true } s
  else .fail 0xC8 true

/-- R331: the commit of one record, or why it is skipped. -/
def importRecord (x : Stream) (r : ImpRec) (s : State) : ImpStep :=
  let y := { x with parsed := x.parsed + r.total, records := x.records + 1 }
  let format := leAt x.bytes 4 2
  if r.damaged then .go { y with damaged := y.damaged + 1 } s
  else if !recordHashOk format r then .fail 0xC8 false
  else match present s r.ns r.key with
    | some (n, o) =>
      if o.value.length = r.size ∧ o.hash = r.hash then .go { y with objects := y.objects + 1 } s
      else .go { y with conflicts := y.conflicts + 1 } (tellerEvent 0x700 4 qeB (n % 2 ^ 32) 0 0 s)
    | none =>
      if !classOpen s r.ns then .fail 0xC5 false
      else if r.value ≠ [] ∧ enginesOut s = true then .fail 0xC3 false
      else
        let n := s.obj.nextObj
        let o := importObject format r
        match writeStripes n (classK s r.ns) r.size 0 r.size o { s with obj := { s.obj with nextObj := n + 1 } } with
        | none => .fail 0xC2 false
        | some (o, s) =>
          let s := commitKey o.ns o.key none (some (n, o)) s
          let (t, s) := tellerStamp s
          let info := (x.bytes.drop 8).take 16 ++ leBytes 8 r.num ++ zeros 8
          let s := addEvent n ⟨3, 0, 0, t, s.obj.commit % 2 ^ 32, info⟩ s
          .go { y with objects := y.objects + 1 } (countWritten r.size (hashCount r.size s))

/-- One part of an import stream. -/
def importStep (x : Stream) (s : State) : ImpStep :=
  if x.parsed = 0 then importHead x s
  else
    let rest := x.bytes.drop x.parsed
    if x.ended ∨ rest.length < 4 then .wait
    else if leAt rest 0 4 = 0x54584D4C then importTail x rest s
    else if leAt rest 0 4 ≠ 0x4F584D4C then .fail 0xC8 false
    else match recordAt rest with
      | none => .wait
      | some r =>
        if !recordCrcOk rest || !decide (1 ≤ r.ns ∧ r.ns ≤ 4) || !decide (1 ≤ r.key.length ∧ r.key.length ≤ 16) then .fail 0xC8 false
        else importRecord x r s

/-- Every part that has arrived, until one is missing or fails. -/
def importParts : Nat → Stream → State → Option (Nat × Bool) × Stream × State
  | 0, x, s => (none, x, s)
  | n + 1, x, s => match importStep x s with
    | .wait => (none, x, s)
    | .fail st sev => (some (st, sev), x, s)
    | .go y s => importParts n y s

/-- The keys of the complete records that have not been checked, in stream order. -/
def importKeys : Nat → List Byte → List (Nat × List Byte)
  | 0, _ => []
  | n + 1, bs =>
    if bs.length < 4 ∨ leAt bs 0 4 ≠ 0x4F584D4C then []
    else match recordAt bs with
      | none => []
      | some r => (r.ns, r.key) :: importKeys n (bs.drop (max 1 r.total))

/-- The write lock of one imported object (R306). -/
def importLock (c : Sqe) (k : Nat × List Byte) : LockReq := ⟨c, k.1, k.2, true, 0, objectMax⟩

/-- An import's effect once its locks are free. -/
def importRun (c : Sqe) (k : Nat) (last : Bool) (x : Stream) (s : State) : State :=
  match importParts (x.bytes.length / 4096 + 2) x s with
  | (some (st, sev), x, s) =>
    let s := when sev (tellerEvent 0x700 5 qeB x.records 0 0) s
    complete c st x.objects x.conflicts (endImport k s)
  | (none, x, s) => complete c 0 x.objects (x.conflicts % 65536) (if last then endImport k s else putImport k { x with lastUse := now s } s)

/-! ### Export (R329, R332) -/

/-- The next present object of an export; with FOREIGN the next of the foreign index (R332). -/
def exportNext (s : State) (x : Stream) : Option (Nat × Obj) :=
  if x.foreign then s.obj.foreign.find? (fun e => decide (x.nextObj ≤ e.1 ∧ e.1 ≤ x.lastObj))
  else (s.obj.objs.filter (fun e => decide (x.nextObj ≤ e.1 ∧ e.1 ≤ x.lastObj) && s.obj.index.any (fun i => decide (i.obj = e.1)))).head?

/-- R329: a position of the object is lost. -/
def exportLost (s : State) (o : Obj) : Bool := o.damaged || o.stripes.any (fun r => decide (readableMembers s r.sid < r.j))

/-- R20, R323: the object's bytes do not match its hash: its value is withheld. -/
def exportWithheld (s : State) (o : Obj) : Bool := !exportLost s o && decide (sha256 (objectBytes s o 0 o.value.length) ≠ o.hash)

/-- Some stripe of an object cannot be read because of held members (R238). -/
def exportHeld (s : State) (o : Obj) : Bool :=
  o.stripes.any (fun r => decide (readableMembers s r.sid < r.j ∧ r.j ≤ readableMembers s r.sid + heldMembers s r.sid))

/-- What an export command meets before it delivers. -/
inductive ExpStep
  | held
  | locked (r : LockReq)
  | ready (x : Stream) (s : State)

/-- A record joins a stream: a damaged one or one whose value is withheld carries no value, with a Daybook record. -/
def carryRecord (n : Nat) (o : Obj) (bad withheld : Bool) (x : Stream) (s : State) : Stream × State :=
  let s := when bad (tellerEvent 0x700 4 qeB (n % 2 ^ 32) (n / 2 ^ 32) 0) s
  let s := hashCount o.value.length (when withheld (incF srB HASH_MISMATCH_FETCHES) s)
  let bytes := x.bytes ++ recordPart s n o bad x.foreign
  let s := if bad then s else { s with obj := { s.obj with readBytes := s.obj.readBytes + o.value.length } }
  ({ x with bytes := bytes, records := x.records + 1, damaged := x.damaged + b2n bad, nextObj := n + 1, carried := some n, carriedTo := bytes.length }, s)

/-- Lay out parts until `upTo` bytes stand ready or the trailer is laid out. -/
def exportParts (c : Sqe) (k upTo : Nat) : Nat → Stream → State → ExpStep
  | 0, x, s => .ready x s
  | fuel + 1, x, s =>
    if upTo ≤ x.bytes.length ∨ x.ended = true then .ready x s
    else match exportNext s x with
      | none =>
        let (t, s) := tellerStamp s
        exportParts c k upTo fuel { x with bytes := x.bytes ++ streamTail x.records x.damaged x.bytes t, ended := true, carried := none } (unlock (exportTicket k) s)
      | some (n, o) =>
        if x.foreign then
          let withheld := !o.damaged && decide (sha256 o.value ≠ o.hash)
          let (y, s) := carryRecord n o (o.damaged || withheld) withheld x s
          exportParts c k upTo fuel y s
        else
          let s := unlock (exportTicket k) s
          let r : LockReq := ⟨c, o.ns, o.key, false, 0, objectMax⟩
          if exportHeld s o then .held
          else if blocked s r then .locked r
          else
            let s := grantLock (exportTicket k) { r with cmd := { c with qid := 1000 + k % 16 } } s
            let (y, s) := carryRecord n o (exportLost s o || exportWithheld s o) (exportWithheld s o) x s
            exportParts c k upTo fuel y s

/-- R301: deliver `len` bytes from `offset`; DW1 bit 0 at the stream's end. -/
def exportDeliver (c : Sqe) (k offset len : Nat) (x : Stream) (s : State) : State :=
  let bytes := (x.bytes.drop offset).take len
  let upTo := offset + bytes.length
  let ended := x.ended && decide (upTo = x.bytes.length)
  let s := send (.data c bytes) s
  let s := if x.carriedTo ≤ upTo then unlock (exportTicket k) s else s
  let x := { x with offset := upTo, lastUse := now s, carried := if x.carriedTo ≤ upTo then none else x.carried }
  complete c 0 bytes.length (b2n ended) (if ended then endExport k s else putExport k x s)

end Sys2Proof.Machine
end

