-- ==== Sys2Proof/Machine/Streams.lean ====
section
/-!
DEFINITION. Sys2Proof/Machine/Streams.lean: import and export streams (R301, R328-R332), the grant of a waiting lock (R307).
-/
namespace Sys2Proof.Machine
open Reg

/-- Some earlier request other than ticket `mine` overlaps. -/
def blockedBut (mine : Option Nat) (s : State) (r : LockReq) : Bool :=
  s.obj.locks.any (fun l => decide (mine ≠ some l.ticket) && meetsLock r l) || s.obj.waiting.any (meetsWaiting r)

/-- A stream command whose object is locked waits for that lock (R307, R329); with the table full it is not admitted yet. -/
def streamWait (i : Instr) (r : LockReq) (s : State) : State :=
  if lockFull s then incF qeB QE_LOCK_COUNTS_FULL_WAITS { s with obj := { s.obj with unadmitted := s.obj.unadmitted ++ [i] } }
  else
    let (t, s) := takeTicket s
    waitLock t i 0 r s

/-! ### Import -/

/-- R301: the chunk length of an import. -/
def chunkOk (last : Bool) (n : Nat) : Bool := decide (1 ≤ n ∧ n ≤ 2 ^ 24) && (last || decide (n % 4096 = 0))

/-- The import stream that a chunk goes to. -/
def importStream (s : State) (k : Nat) (first : Bool) : Option Stream :=
  if first then some { stream0 with isOpen := true } else tfind s.obj.imports k

/-- R301, R330, R331: an import chunk. -/
def importOp (mine : Option Nat) (c : Sqe) (handle : Fin 8) (first last : Bool) (offset : Nat) (chunk : List Byte) (s : State) : State :=
  let k := streamKey c.port.val handle.val
  if !chunkOk last chunk.length then complete c 2 0 0 s
  else if s.obj.rebuilding then complete c 0x82 0 0 s
  else match importStream s k first with
    | none => complete c 2 0 0 s
    | some x =>
      if offset ≠ x.bytes.length then complete c 0xC6 0 0 s
      else if lanesOut s then { s with obj := { s.obj with unadmitted := s.obj.unadmitted ++ [.importStreamWrite c handle first last offset chunk] } }
      else
        let x := { x with bytes := x.bytes ++ chunk, offset := offset + chunk.length }
        match (importKeys (x.bytes.length / 4096 + 1) (x.bytes.drop (max 4096 x.parsed))).find? (fun key => blockedBut mine s (importLock c key)) with
        | some key => streamWait (.importStreamWrite c handle first last offset chunk) (importLock c key) s
        | none => importRun c k last x s

/-- R301, R3: a stream with no command for 600 s has closed; a command before then keeps it open. -/
def idleClose (t now_ : Nat) (k : Nat) (l : Table Stream) : Table Stream :=
  match tfind l k with
  | some x => if x.lastUse + t ≤ now_ then tdel l k else tins l k { x with lastUse := now_ }
  | none => l

/-- A command names a stream. -/
def useStream (exp : Bool) (k : Nat) (s : State) : State :=
  let keep (l : Table Stream) := idleClose (secs 600) (now s) k l
  if exp then
    let s := if (tfind (keep s.obj.exports) k).isSome then s else unlock (exportTicket k) s
    { s with obj := { s.obj with exports := keep s.obj.exports } }
  else { s with obj := { s.obj with imports := keep s.obj.imports } }

def execImportStreamWrite (c : Sqe) (handle : Fin 8) (first last : Bool) (offset : Nat) (chunk : List Byte) (s : State) : Res State :=
  nvme c (fun s => importOp none c handle first last offset chunk (useStream false (streamKey c.port.val handle.val) (countWriteCmd s))) s

/-! ### Export -/

/-- R332: the foreign index is complete once no inventory runs. -/
def foreignReady (s : State) : Bool := decide (rd s ledB LEDGER_STATUS_INV_BUSY = 0)

/-- The highest object number that a stream covers. -/
def lastObject (s : State) (foreign : Bool) : Nat := if foreign then s.obj.foreign.foldl (fun m e => max m e.1) 0 else s.obj.nextObj - 1

/-- R328, R329: a stream opens at an object number. -/
def exportOpen (k object : Nat) (foreign : Bool) (s : State) : Stream × State :=
  let (t, s) := tellerStamp s
  let last := lastObject s foreign
  let head := streamHead s (if foreign then 0x1224 else 0x2448) t object last
  ({ stream0 with isOpen := true, bytes := head, nextObj := object, lastObj := last, foreign := foreign }, unlock (exportTicket k) s)

def exportOp (c : Sqe) (handle : Fin 8) (first foreign : Bool) (object offset len : Nat) (s : State) : State :=
  let k := streamKey c.port.val handle.val
  let i : Instr := .exportStreamRead c handle first foreign object offset len
  if 2 ^ 24 < len then complete c 2 0 0 s
  else if s.obj.rebuilding then complete c 0x82 0 0 s
  else if first && foreign && !foreignReady s then complete c 0x82 0 0 s
  else if lanesOut s then { s with obj := { s.obj with unadmitted := s.obj.unadmitted ++ [i] } }
  else
    let (x, s1) := if first then (let (x, s1) := exportOpen k object foreign s; (some x, s1)) else (tfind s.obj.exports k, s)
    match x with
    | none => complete c 2 0 0 s
    | some x =>
      if offset ≠ x.offset then complete c 0xC6 0 0 s
      else match exportParts c k (offset + len) (x.lastObj + 2) x s1 with
        | .held => complete c 0xC1 0 0 s
        | .locked r => streamWait i r s
        | .ready y s => exportDeliver c k offset len y s

def execExportStreamRead (c : Sqe) (handle : Fin 8) (first foreign : Bool) (object offset len : Nat) (s : State) : Res State :=
  nvme c (fun s => exportOp c handle first foreign object offset len (useStream true (streamKey c.port.val handle.val) (countReadCmd s))) s

/-- R301: a stream with no command for 600 s closes. -/
def idleOp (h : Nat) (exp : Bool) (handle : Nat) (s : State) : State :=
  let k := streamKey h handle
  match tfind (if exp then s.obj.exports else s.obj.imports) k with
  | none => s
  | some x =>
    let s := reach (x.lastUse + secs 600) s
    if exp then endExport k s else endImport k s

def execStreamIdleTimeout (h : HostId) (exp : Bool) (handle : Fin 8) (s : State) : Res State := run .core (idleOp h.val exp handle.val) s

/-! ### Lock grants (R307) -/

/-- What a waiting command does once its lock is granted. -/
def grantRun (ticket : Nat) (i : Instr) (num : Nat) (s : State) : State :=
  match i with
  | .importStreamWrite c h first last offset chunk => unlock ticket (importOp (some ticket) c h first last offset chunk s)
  | .exportStreamRead c h first foreign object offset len => unlock ticket (exportOp c h first foreign object offset len s)
  | _ => runLocked ticket i num s

/-- Stream commands that are not admitted yet are tried again. -/
def retryStream (i : Instr) (s : State) : State :=
  let off (s : State) := { s with obj := { s.obj with unadmitted := s.obj.unadmitted.erase i } }
  match i with
  | .importStreamWrite c h first last offset chunk => if lockFull s || lanesOut s then s else importOp none c h first last offset chunk (off s)
  | .exportStreamRead c h first foreign object offset len => if lockFull s || lanesOut s then s else exportOp c h first foreign object offset len (off s)
  | _ => s

/-- The requests that arrived before a waiting one. -/
def earlierWaiting (ticket : Nat) : List Waiting → List Waiting
  | [] => []
  | w :: ws => if w.ticket = ticket then [] else w :: earlierWaiting ticket ws

def reqOf (c : Sqe) (w : Waiting) : LockReq := ⟨c, w.ns, w.key, w.write, w.lo, w.hi⟩

/-- R307: a waiting request is granted once every earlier overlapping request has been released. -/
def lockGrantOp (ticket : Nat) (s : State) : State :=
  let s := match s.obj.waiting.find? (fun w => decide (w.ticket = ticket)) with
    | none => s
    | some w => match lockSqe w.cmd with
      | none => s
      | some c =>
        let r := reqOf c w
        if s.obj.locks.any (meetsLock r) || (earlierWaiting ticket s.obj.waiting).any (meetsWaiting r) then s
        else
          let s := { s with obj := { s.obj with waiting := s.obj.waiting.filter (fun x => decide (x.ticket ≠ ticket)) } }
          grantRun ticket w.cmd w.num (grantLock ticket r s)
  let held := s.obj.unadmitted
  forEach held retryStream (retryHeld s)

def execLockGrant (ticket : Nat) (s : State) : Res State := run .core (lockGrantOp ticket) s

end Sys2Proof.Machine
end

