-- ==== Sys2Proof/Machine/Dispatch.lean ====
section
/-!
DEFINITION. Sys2Proof/Machine/Dispatch.lean: the effect of each command: one arm per constructor.
-/
namespace Sys2Proof.Machine

def exec (i : Instr) (s : State) : Host.Outcome State Fault Refusal :=
  match i with
  | .blockRegisterWrite p addr v => Sys2Proof.Machine.execBlockRegisterWrite p addr v s
  | .latchingLowHalfRead p addr => Sys2Proof.Machine.execLatchingLowHalfRead p addr s
  | .stampTakeLoRead p => Sys2Proof.Machine.execStampTakeLoRead p s
  | .feedGood f => Sys2Proof.Machine.execFeedGood f s
  | .feedNotGood f => Sys2Proof.Machine.execFeedNotGood f s
  | .converterConditionHeld activeMv standbyMv => Sys2Proof.Machine.execConverterConditionHeld activeMv standbyMv s
  | .busUndervoltage busMv standbyMv => Sys2Proof.Machine.execBusUndervoltage busMv standbyMv s
  | .switchOverGapEnd busMv => Sys2Proof.Machine.execSwitchOverGapEnd busMv s
  | .forceSwap p => Sys2Proof.Machine.execForceSwap p s
  | .pwrIbSetWrite p v => Sys2Proof.Machine.execPwrIbSetWrite p v s
  | .powerDown => Sys2Proof.Machine.execPowerDown s
  | .failedMarkClear f => Sys2Proof.Machine.execFailedMarkClear f s
  | .holdupCharged capUf => Sys2Proof.Machine.execHoldupCharged capUf s
  | .feedExerciseDue => Sys2Proof.Machine.execFeedExerciseDue s
  | .exerciseWindowEnd => Sys2Proof.Machine.execExerciseWindowEnd s
  | .exerciseRetry => Sys2Proof.Machine.execExerciseRetry s
  | .paceUpdate rings => Sys2Proof.Machine.execPaceUpdate rings s
  | .governorEvaluation measMv => Sys2Proof.Machine.execGovernorEvaluation measMv s
  | .fabGovCtlWrite p v => Sys2Proof.Machine.execFabGovCtlWrite p v s
  | .readCut a => Sys2Proof.Machine.execReadCut a s
  | .writeCut a => Sys2Proof.Machine.execWriteCut a s
  | .receiveWindowShrink h => Sys2Proof.Machine.execReceiveWindowShrink h s
  | .rxFrameDrop h => Sys2Proof.Machine.execRxFrameDrop h s
  | .preampFrameDone a data check => Sys2Proof.Machine.execPreampFrameDone a data check s
  | .hlxFltNFall a status stillLow => Sys2Proof.Machine.execHlxFltNFall a status stillLow s
  | .shockNFall n => Sys2Proof.Machine.execShockNFall n s
  | .shockNRelease n => Sys2Proof.Machine.execShockNRelease n s
  | .sensorPoll n first second => Sys2Proof.Machine.execSensorPoll n first second s
  | .presNLow n => Sys2Proof.Machine.execPresNLow n s
  | .settleWindowEnd n => Sys2Proof.Machine.execSettleWindowEnd n s
  | .identityRead n first second => Sys2Proof.Machine.execIdentityRead n first second s
  | .preampIdentCheck n upper lower => Sys2Proof.Machine.execPreampIdentCheck n upper lower s
  | .supplyTrip n => Sys2Proof.Machine.execSupplyTrip n s
  | .hdaCtlRelease p n => Sys2Proof.Machine.execHdaCtlRelease p n s
  | .presNHigh n => Sys2Proof.Machine.execPresNHigh n s
  | .restCheck n emfMv => Sys2Proof.Machine.execRestCheck n emfMv s
  | .slowStop n => Sys2Proof.Machine.execSlowStop n s
  | .hdaPaGo p n => Sys2Proof.Machine.execHdaPaGo p n s
  | .sectorSampled a path x chk => Sys2Proof.Machine.execSectorSampled a path x chk s
  | .laneFree l => Sys2Proof.Machine.execLaneFree l s
  | .firstPassJobEnd l err => Sys2Proof.Machine.execFirstPassJobEnd l err s
  | .deepSliceEnd l err => Sys2Proof.Machine.execDeepSliceEnd l err s
  | .verifyJobEnd l err => Sys2Proof.Machine.execVerifyJobEnd l err s
  | .dpLaneEnWrite p v => Sys2Proof.Machine.execDpLaneEnWrite p v s
  | .dpCtlWrite p v => Sys2Proof.Machine.execDpCtlWrite p v s
  | .servoWedge a w => Sys2Proof.Machine.execServoWedge a w s
  | .lostTimeout a => Sys2Proof.Machine.execLostTimeout a s
  | .settleTimeout a => Sys2Proof.Machine.execSettleTimeout a s
  | .svTargetWrite p a v => Sys2Proof.Machine.execSvTargetWrite p a v s
  | .svSettleWrite p a v => Sys2Proof.Machine.execSvSettleWrite p a v s
  | .load a => Sys2Proof.Machine.execLoad a s
  | .loadLockTimeout a => Sys2Proof.Machine.execLoadLockTimeout a s
  | .loadRetry a => Sys2Proof.Machine.execLoadRetry a s
  | .unload a => Sys2Proof.Machine.execUnload a s
  | .unloadParked a emf => Sys2Proof.Machine.execUnloadParked a emf s
  | .retractParked a emf => Sys2Proof.Machine.execRetractParked a emf s
  | .svCtlRetract p a => Sys2Proof.Machine.execSvCtlRetract p a s
  | .resetRetractStart => Sys2Proof.Machine.execResetRetractStart s
  | .flyingThresholdCrossed n at_ => Sys2Proof.Machine.execFlyingThresholdCrossed n at_ s
  | .loopSample n x skipped => Sys2Proof.Machine.execLoopSample n x skipped s
  | .leEnable p n => Sys2Proof.Machine.execLeEnable p n s
  | .leDisable p n => Sys2Proof.Machine.execLeDisable p n s
  | .leManual p n on => Sys2Proof.Machine.execLeManual p n on s
  | .leHoldSet p n on => Sys2Proof.Machine.execLeHoldSet p n on s
  | .leReload p n => Sys2Proof.Machine.execLeReload p n s
  | .tuneStart p n => Sys2Proof.Machine.execTuneStart p n s
  | .tuneStop p n => Sys2Proof.Machine.execTuneStop p n s
  | .tuneTimeout n => Sys2Proof.Machine.execTuneTimeout n s
  | .zoneTableWrite p a z rate v => Sys2Proof.Machine.execZoneTableWrite p a z rate v s
  | .spSpeedSet p n v => Sys2Proof.Machine.execSpSpeedSet p n v s
  | .spCommWrite p n v => Sys2Proof.Machine.execSpCommWrite p n v s
  | .zeroCrossing n at_ => Sys2Proof.Machine.execZeroCrossing n at_ s
  | .commutation n => Sys2Proof.Machine.execCommutation n s
  | .missedCrossing n => Sys2Proof.Machine.execMissedCrossing n s
  | .overcurrent n => Sys2Proof.Machine.execOvercurrent n s
  | .startMeasurementEnd n r => Sys2Proof.Machine.execStartMeasurementEnd n r s
  | .alignStep n => Sys2Proof.Machine.execAlignStep n s
  | .openTmo n => Sys2Proof.Machine.execOpenTmo n s
  | .retryWaitEnd n => Sys2Proof.Machine.execRetryWaitEnd n s
  | .lostWatchEnd n => Sys2Proof.Machine.execLostWatchEnd n s
  | .spinDownBrake n => Sys2Proof.Machine.execSpinDownBrake n s
  | .spCtlRun p n v => Sys2Proof.Machine.execSpCtlRun p n v s
  | .sluicePlanWrite p v => Sys2Proof.Machine.execSluicePlanWrite p v s
  | .sluiceEvaluation mon => Sys2Proof.Machine.execSluiceEvaluation mon s
  | .runOver n => Sys2Proof.Machine.execRunOver n s
  | .asWorkGo p a => Sys2Proof.Machine.execAsWorkGo p a s
  | .nano a err => Sys2Proof.Machine.execNano a err s
  | .writeGateReturn a => Sys2Proof.Machine.execWriteGateReturn a s
  | .jump a => Sys2Proof.Machine.execJump a s
  | .call a => Sys2Proof.Machine.execCall a s
  | .return_ a => Sys2Proof.Machine.execReturn a s
  | .loop a => Sys2Proof.Machine.execLoop a s
  | .wait a => Sys2Proof.Machine.execWait a s
  | .waitConditionMet a => Sys2Proof.Machine.execWaitConditionMet a s
  | .waitTimeout a => Sys2Proof.Machine.execWaitTimeout a s
  | .noOperation a => Sys2Proof.Machine.execNoOperation a s
  | .halt a => Sys2Proof.Machine.execHalt a s
  | .enterHorizontalMode a => Sys2Proof.Machine.execEnterHorizontalMode a s
  | .fetch a => Sys2Proof.Machine.execFetch a s
  | .horizontalWord a err => Sys2Proof.Machine.execHorizontalWord a err s
  | .sectorRunComplete a => Sys2Proof.Machine.execSectorRunComplete a s
  | .writeSlot a => Sys2Proof.Machine.execWriteSlot a s
  | .asWithdraw p a v => Sys2Proof.Machine.execAsWithdraw p a v s
  | .asCtlRun p a on => Sys2Proof.Machine.execAsCtlRun p a on s
  | .asCtlTest p a => Sys2Proof.Machine.execAsCtlTest p a s
  | .asCtlRecover p a => Sys2Proof.Machine.execAsCtlRecover p a s
  | .asDoneRead p a => Sys2Proof.Machine.execAsDoneRead p a s
  | .asCustArm p a => Sys2Proof.Machine.execAsCustArm p a s
  | .asCustDisarm p a => Sys2Proof.Machine.execAsCustDisarm p a s
  | .ledgerOpen p r => Sys2Proof.Machine.execLedgerOpen p r s
  | .ledgerClose p r => Sys2Proof.Machine.execLedgerClose p r s
  | .ledgerReopen p r => Sys2Proof.Machine.execLedgerReopen p r s
  | .ledgerRetire p r => Sys2Proof.Machine.execLedgerRetire p r s
  | .dayTick => Sys2Proof.Machine.execDayTick s
  | .journalAge r => Sys2Proof.Machine.execJournalAge r s
  | .ledgerMirror => Sys2Proof.Machine.execLedgerMirror s
  | .ledgerInventory p v => Sys2Proof.Machine.execLedgerInventory p v s
  | .inventoryEnd n found foreign => Sys2Proof.Machine.execInventoryEnd n found foreign s
  | .ledgerEntryWrite p addr v err => Sys2Proof.Machine.execLedgerEntryWrite p addr v err s
  | .defectWindowAdd p => Sys2Proof.Machine.execDefectWindowAdd p s
  | .defectWindowRemove p => Sys2Proof.Machine.execDefectWindowRemove p s
  | .srClassWrite p q hdas v => Sys2Proof.Machine.execSrClassWrite p q hdas v s
  | .readAroundDeadline tag stripe member sector => Sys2Proof.Machine.execReadAroundDeadline tag stripe member sector s
  | .startLimit tag stripe member => Sys2Proof.Machine.execStartLimit tag stripe member s
  | .stripeEngineJobEnd e => Sys2Proof.Machine.execStripeEngineJobEnd e s
  | .rebuildMemberDone sid member => Sys2Proof.Machine.execRebuildMemberDone sid member s
  | .stripeAudit read => Sys2Proof.Machine.execStripeAudit read s
  | .poolAccess acc => Sys2Proof.Machine.execPoolAccess acc s
  | .patrolScrub upTo flips => Sys2Proof.Machine.execPatrolScrub upTo flips s
  | .poolLogClear p => Sys2Proof.Machine.execPoolLogClear p s
  | .drainEnd seg => Sys2Proof.Machine.execDrainEnd seg s
  | .fillEnd seg => Sys2Proof.Machine.execFillEnd seg s
  | .destageVerified seg => Sys2Proof.Machine.execDestageVerified seg s
  | .sequentialDetectorOff a => Sys2Proof.Machine.execSequentialDetectorOff a s
  | .mvGo p c => Sys2Proof.Machine.execMvGo p c s
  | .mvWithdraw p c => Sys2Proof.Machine.execMvWithdraw p c s
  | .moverGrant ready bytes => Sys2Proof.Machine.execMoverGrant ready bytes s
  | .beatError c beat => Sys2Proof.Machine.execBeatError c beat s
  | .moverRequestEnd c => Sys2Proof.Machine.execMoverRequestEnd c s
  | .mvRateWrite p c v => Sys2Proof.Machine.execMvRateWrite p c v s
  | .poolDirRateWrite p v => Sys2Proof.Machine.execPoolDirRateWrite p v s
  | .bandClose band bits => Sys2Proof.Machine.execBandClose band bits s
  | .tuRead tu attempts => Sys2Proof.Machine.execTuRead tu attempts s
  | .garbageCollection bits lost => Sys2Proof.Machine.execGarbageCollection bits lost s
  | .gcErase failed => Sys2Proof.Machine.execGcErase failed s
  | .programFail block => Sys2Proof.Machine.execProgramFail block s
  | .rsvDiscardGo p => Sys2Proof.Machine.execRsvDiscardGo p s
  | .reservoirLeavesService cause readable unreadable => Sys2Proof.Machine.execReservoirLeavesService cause readable unreadable s
  | .throttle die tempC => Sys2Proof.Machine.execThrottle die tempC s
  | .stagingLow => Sys2Proof.Machine.execStagingLow s
  | .connect c hostNqn queue depth kato => Sys2Proof.Machine.execConnect c hostNqn queue depth kato s
  | .disconnect c => Sys2Proof.Machine.execDisconnect c s
  | .propertyGet c ofst => Sys2Proof.Machine.execPropertyGet c ofst s
  | .controllerEnable c => Sys2Proof.Machine.execControllerEnable c s
  | .controllerDisable c => Sys2Proof.Machine.execControllerDisable c s
  | .nvmSubsystemReset c v => Sys2Proof.Machine.execNvmSubsystemReset c v s
  | .headerDigestFailure h queue => Sys2Proof.Machine.execHeaderDigestFailure h queue s
  | .dataDigestFailure c => Sys2Proof.Machine.execDataDigestFailure c s
  | .queueReset h queue => Sys2Proof.Machine.execQueueReset h queue s
  | .keepAliveExpiry h => Sys2Proof.Machine.execKeepAliveExpiry h s
  | .getLogPage c lid lsp rae offset len => Sys2Proof.Machine.execGetLogPage c lid lsp rae offset len s
  | .identify c cns csi nsid => Sys2Proof.Machine.execIdentify c cns csi nsid s
  | .abort c sqid cmd => Sys2Proof.Machine.execAbort c sqid cmd s
  | .getFeatures c fid => Sys2Proof.Machine.execGetFeatures c fid s
  | .setPowerManagement c save ps => Sys2Proof.Machine.execSetPowerManagement c save ps s
  | .setTemperatureThreshold c save kelvin under => Sys2Proof.Machine.execSetTemperatureThreshold c save kelvin under s
  | .setVolatileWriteCache c save wce => Sys2Proof.Machine.execSetVolatileWriteCache c save wce s
  | .setNumberOfQueues c save nsq ncq => Sys2Proof.Machine.execSetNumberOfQueues c save nsq ncq s
  | .setAsyncEventConfiguration c save v => Sys2Proof.Machine.execSetAsyncEventConfiguration c save v s
  | .setTimestamp c save utcMs => Sys2Proof.Machine.execSetTimestamp c save utcMs s
  | .setKeepAliveTimer c save kato => Sys2Proof.Machine.execSetKeepAliveTimer c save kato s
  | .asynchronousEventRequest c => Sys2Proof.Machine.execAsynchronousEventRequest c s
  | .firmwareImageDownload c ofst data => Sys2Proof.Machine.execFirmwareImageDownload c ofst data s
  | .firmwareCommit c ca fs => Sys2Proof.Machine.execFirmwareCommit c ca fs s
  | .activationDrainEnd => Sys2Proof.Machine.execActivationDrainEnd s
  | .keepAlive c => Sys2Proof.Machine.execKeepAlive c s
  | .registerWindowWrite c addr vals => Sys2Proof.Machine.execRegisterWindowWrite c addr vals s
  | .registerWindowRead c addr count => Sys2Proof.Machine.execRegisterWindowRead c addr count s
  | .daybookFreeze c => Sys2Proof.Machine.execDaybookFreeze c s
  | .daybookResume c => Sys2Proof.Machine.execDaybookResume c s
  | .functionReinit c kind inst => Sys2Proof.Machine.execFunctionReinit c kind inst s
  | .functionReinitQueues c inst => Sys2Proof.Machine.execFunctionReinitQueues c inst s
  | .configurationCommit c first final offset data => Sys2Proof.Machine.execConfigurationCommit c first final offset data s
  | .configCommitWriteEnd readBack => Sys2Proof.Machine.execConfigCommitWriteEnd readBack s
  | .flush c ns => Sys2Proof.Machine.execFlush c ns s
  | .flushComplete c => Sys2Proof.Machine.execFlushComplete c s
  | .store c k value o => Sys2Proof.Machine.execStore c k value o s
  | .retrieve c k offset buf => Sys2Proof.Machine.execRetrieve c k offset buf s
  | .list c k buf => Sys2Proof.Machine.execList c k buf s
  | .delete c k => Sys2Proof.Machine.execDelete c k s
  | .exist c k => Sys2Proof.Machine.execExist c k s
  | .appendValue c k create offset data => Sys2Proof.Machine.execAppendValue c k create offset data s
  | .auditObject c k repair len read => Sys2Proof.Machine.execAuditObject c k repair len read s
  | .importStreamWrite c handle first last offset chunk => Sys2Proof.Machine.execImportStreamWrite c handle first last offset chunk s
  | .exportStreamRead c handle first foreign object offset len => Sys2Proof.Machine.execExportStreamRead c handle first foreign object offset len s
  | .lockGrant ticket => Sys2Proof.Machine.execLockGrant ticket s
  | .durableMarkAdvance mark => Sys2Proof.Machine.execDurableMarkAdvance mark s
  | .streamIdleTimeout h exp handle => Sys2Proof.Machine.execStreamIdleTimeout h exp handle s
  | .ptpOffer h x => Sys2Proof.Machine.execPtpOffer h x s
  | .ppsInEdge at_ => Sys2Proof.Machine.execPpsInEdge at_ s
  | .meterIntervalEnd chans => Sys2Proof.Machine.execMeterIntervalEnd chans s
  | .cellLow mv => Sys2Proof.Machine.execCellLow mv s
  | .sealBreach => Sys2Proof.Machine.execSealBreach s
  | .powerOn f flash tile carried bankOk => Sys2Proof.Machine.execPowerOn f flash tile carried bankOk s
  | .startComplete unreadable => Sys2Proof.Machine.execStartComplete unreadable s
  | .resetNLow => Sys2Proof.Machine.execResetNLow s
  | .resetNCold => Sys2Proof.Machine.execResetNCold s
  | .resetNRise => Sys2Proof.Machine.execResetNRise s
  | .rstCtlWarm p => Sys2Proof.Machine.execRstCtlWarm p s
  | .rstCtlCold p => Sys2Proof.Machine.execRstCtlCold p s
  | .warmReset cause => Sys2Proof.Machine.execWarmReset cause s
  | .coldReset cause => Sys2Proof.Machine.execColdReset cause s
  | .warmResetEnd => Sys2Proof.Machine.execWarmResetEnd s
  | .coldResetEnd => Sys2Proof.Machine.execColdResetEnd s
  | .watchdogKick p v => Sys2Proof.Machine.execWatchdogKick p v s
  | .watchdogExpiry => Sys2Proof.Machine.execWatchdogExpiry s
  | .rstBlockReq p v => Sys2Proof.Machine.execRstBlockReq p v s
  | .blockResetIdle kind inst timedOut stillFaulted => Sys2Proof.Machine.execBlockResetIdle kind inst timedOut stillFaulted s
  | .rstRelease p v => Sys2Proof.Machine.execRstRelease p v s
  | .pllLock d => Sys2Proof.Machine.execPllLock d s
  | .pllLockLoss d => Sys2Proof.Machine.execPllLockLoss d s
  | .dualRailReport src wire cause => Sys2Proof.Machine.execDualRailReport src wire cause s
  | .persistingFaultEvent b unit status stillLow => Sys2Proof.Machine.execPersistingFaultEvent b unit status stillLow s
  | .quietPeriodEnd b unit => Sys2Proof.Machine.execQuietPeriodEnd b unit s
  | .backoffReset b unit => Sys2Proof.Machine.execBackoffReset b unit s
  | .fltReactWrite p b v => Sys2Proof.Machine.execFltReactWrite p b v s
  | .fltHistClear p b => Sys2Proof.Machine.execFltHistClear p b s
  | .fltMemLogClear p b => Sys2Proof.Machine.execFltMemLogClear p b s
  | .dbWriteGo p v => Sys2Proof.Machine.execDbWriteGo p v s
  | .daybookMirror seq => Sys2Proof.Machine.execDaybookMirror seq s
  | .freezeWindowEnd => Sys2Proof.Machine.execFreezeWindowEnd s
  | .sensorThresholdCrossing sensor value => Sys2Proof.Machine.execSensorThresholdCrossing sensor value s
  | .temperatureHistoryHour => Sys2Proof.Machine.execTemperatureHistoryHour s
  | .setEndpointId eid => Sys2Proof.Machine.execSetEndpointId eid s
  | .getEndpointId => Sys2Proof.Machine.execGetEndpointId s
  | .getMctpVersionSupport msgType => Sys2Proof.Machine.execGetMctpVersionSupport msgType s
  | .getMessageTypeSupport => Sys2Proof.Machine.execGetMessageTypeSupport s
  | .readNvmeMiDataStructure dtyp => Sys2Proof.Machine.execReadNvmeMiDataStructure dtyp s
  | .nvmSubsystemHealthStatusPoll => Sys2Proof.Machine.execNvmSubsystemHealthStatusPoll s
  | .controllerHealthStatusPoll h => Sys2Proof.Machine.execControllerHealthStatusPoll h s
  | .configurationGet id => Sys2Proof.Machine.execConfigurationGet id s
  | .vpdRead offset len => Sys2Proof.Machine.execVpdRead offset len s
  | .tunnelledAdminCommand t => Sys2Proof.Machine.execTunnelledAdminCommand t s
  | .registerRead addr count => Sys2Proof.Machine.execRegisterRead addr count s
  | .registerWrite addr v => Sys2Proof.Machine.execRegisterWrite addr v s
  | .getTid => Sys2Proof.Machine.execGetTid s
  | .getPldmVersion ty => Sys2Proof.Machine.execGetPldmVersion ty s
  | .getPldmTypes => Sys2Proof.Machine.execGetPldmTypes s
  | .getPldmCommands ty => Sys2Proof.Machine.execGetPldmCommands ty s
  | .getPdr handle => Sys2Proof.Machine.execGetPdr handle s
  | .getSensorReading sensor => Sys2Proof.Machine.execGetSensorReading sensor s
  | .setEventReceiver addr => Sys2Proof.Machine.execSetEventReceiver addr s
  | .hostLinkUp h => Sys2Proof.Machine.execHostLinkUp h s
  | .hostLinkDown h => Sys2Proof.Machine.execHostLinkDown h s
  | .rsFecLockLost h => Sys2Proof.Machine.execRsFecLockLost h s
  | .pllLockTimeout d => Sys2Proof.Machine.execPllLockTimeout d s
  | .reservoirReady ok => Sys2Proof.Machine.execReservoirReady ok s
  | .throttleEnd => Sys2Proof.Machine.execThrottleEnd s
  | .coreUncorrectableError unit => Sys2Proof.Machine.execCoreUncorrectableError unit s
  | .arpNdpIcmpEcho port frame served => Sys2Proof.Machine.execArpNdpIcmpEcho port frame served s

end Sys2Proof.Machine
end

