-- ==== Sys2Proof/Machine/Step.lean ====
section
/-!
DEFINITION. Sys2Proof/Machine/Step.lean: one step: the command at the front of the queue, or one tick of an idle block.
-/
namespace Sys2Proof.Machine

/-- On an empty queue one cycle of the main oscillator passes, a tick of 2^-24 s (notes/assumptions/4.md). -/
def idle (s : State) : Host.Outcome State Fault Refusal := runIf true oscCycle s

/-- One step of the block. -/
def step (s : State) : Host.Outcome State Fault Refusal :=
  match s.pending with
  | [] => idle s
  | c :: rest => exec c { s with pending := rest }

/-- `s` with the command that a word spells in front of its queue (none: no word spells a command). -/
def State.withFetchWord (s : State) (nbits w : Nat) : State :=
  match decodeTableWord nbits w with
  | some c => { s with pending := c :: s.pending }
  | none => s

end Sys2Proof.Machine
end

