-- ==== Sys2Proof/Safety.lean ====
section
/-!
DEFINITION. Sys2Proof/Safety.lean: the terms in which the statements are made: the parts of the state, what a command leaves as it
was, and the invariant of the service state (R28).
-/
namespace Sys2Proof.Machine
open Reg

/-- The parts of the state beside the registers, one per field of State (`out` and `pending` have statements of their own). -/
inductive Part
  | copies | pairs | time | pwr | fab | ports | acts | stores | sluice | loops | dec | led | str | pool | mov | rsv | obj | asy
  | rst | cfg | flt | day | bur | free
  deriving DecidableEq, Repr

/-- A part of the state is the same in both. -/
def samePart : Part → State → State → Prop
  | .copies, s, t => t.copies = s.copies
  | .pairs, s, t => t.pairs = s.pairs
  | .time, s, t => t.time = s.time
  | .pwr, s, t => t.pwr = s.pwr
  | .fab, s, t => t.fab = s.fab
  | .ports, s, t => t.ports = s.ports
  | .acts, s, t => t.acts = s.acts
  | .stores, s, t => t.stores = s.stores
  | .sluice, s, t => t.sluice = s.sluice
  | .loops, s, t => t.loops = s.loops
  | .dec, s, t => t.dec = s.dec
  | .led, s, t => t.led = s.led
  | .str, s, t => t.str = s.str
  | .pool, s, t => t.pool = s.pool
  | .mov, s, t => t.mov = s.mov
  | .rsv, s, t => t.rsv = s.rsv
  | .obj, s, t => t.obj = s.obj
  | .asy, s, t => t.asy = s.asy
  | .rst, s, t => t.rst = s.rst
  | .cfg, s, t => t.cfg = s.cfg
  | .flt, s, t => t.flt = s.flt
  | .day, s, t => t.day = s.day
  | .bur, s, t => t.bur = s.bur
  | .free, s, t => t.free = s.free

/-- Every part listed is the same in both. -/
def kept : List Part → State → State → Prop
  | [], _, _ => True
  | p :: ps, s, t => samePart p s t ∧ kept ps s t

/-- The parts that bringing GLB_SERVICE up to date with R28 never touches. -/
def svcParts : List Part :=
  [.copies, .pwr, .fab, .ports, .acts, .stores, .sluice, .loops, .dec, .led, .str, .pool, .mov, .rsv, .asy, .cfg, .flt, .free]

/-- Every part of a list but some. -/
def butFor (l drop : List Part) : List Part := l.filter (fun p => !drop.contains p)

/-- The register fields, by address and lowest bit, that bringing GLB_SERVICE up to date with R28 may write: GLB_SERVICE,
DB_STATUS, DB_SEQ, DB_DROPS, BUR_WARN, HP_CONN.READY. -/
def svcReg (a lo : Nat) : Bool :=
  decide (a = 4) || decide (a = 0x1C0004 ∨ a = 0x1C0008 ∨ a = 0x1C000C) || decide (a = 0x1D0008)
    || (decide (0x1A0000 ≤ a ∧ a < 0x1B0000) && decide (a % 0x4000 = 4) && decide (lo = 10))

/-- Every register field, but those of `own` and those of `svcReg`, is the same in both. -/
def keptRegs (own : Nat → Nat → Bool) (s t : State) : Prop :=
  ∀ (b : Nat) (f : Field), f.lo < 32 → svcReg (b + f.off) f.lo = false → own (b + f.off) f.lo = false → rd t b f = rd s b f

/-- No register of a command's own. -/
def noReg (_ _ : Nat) : Bool := false

/-- The addresses from `b` for `n` bytes. -/
def inRange (b n : Nat) (a _ : Nat) : Bool := decide (b ≤ a ∧ a < b + n)

/-- The fields of one register. -/
def atAddr (x : Nat) (a _ : Nat) : Bool := decide (a = x)

/-- Something was sent: what was sent before stays, and `r` follows among what is new. -/
def sent (r : Response) (s t : State) : Prop := ∃ l₁ l₂, t.out = s.out ++ (l₁ ++ r :: l₂)

/-- R28: what GLB_SERVICE says agrees with the machine. In Starting HDA_MISSING may still read its reset value 0. -/
def serviceTrue (s : State) : Bool :=
  decide (flag s idB GLB_SERVICE_RESERVOIR_OUT = flag s rsvB RSV_STATUS_OUT_OF_SERVICE)
    && decide (service s = 0 ∨ rd s idB GLB_SERVICE_HDA_MISSING = (List.range 24).countP (fun n => hdaMissing s n))
    && decide (rd s idB GLB_SERVICE_HDA_REBUILDING = popCount 24 (rd s srB SR_REBUILD_STATUS_PORTS))
    && (!decide (service s = 1) || !degraded s) && (!decide (service s = 2) || degraded s)

/-- A command is in front of the queue. -/
def withFront (c : Instr) (s : State) : State := { s with pending := c :: s.pending }

end Sys2Proof.Machine
end

