-- ==== Sys2Proof/Certificates/Slice0/Obligations.lean ====
section
/-!
DEFINITION. Sys2Proof/Certificates/Slice0/Obligations.lean: the statements about this model that await their proofs.
-/
open Sys2Proof Sys2Proof.Machine Sys2Proof.Machine.Reg

/-- A feed that turns good or bad, a converter that fails and a forced swap act as the rules on switch-over say (R41, R44, R45,
R46, R43). -/
def Obligations.FeedsAndConverters : Prop :=
  ∀ (s : State), live s .always = true →
    (∀ f, feedGood s f = false → ∃ t, exec (.feedGood f) s = .next t ∧ feedGood t f = true ∧
      flag t pwrB PWR_STATUS_STANDBY_READY = (feedGood t (standbyFeed t) && !convFailed t (standbyFeed t))) ∧
    (s.pwr.failing = false → feedGood s (activeFeed s) = true → flag s pwrB PWR_STATUS_STANDBY_READY = true →
      ∃ t, exec (.feedNotGood (activeFeed s)) s = .next t ∧ feedGood t (activeFeed s) = false ∧ activeFeed t = standbyFeed s ∧
        rd t pwrB PWR_STATUS_SWAPPED = 1) ∧
    (s.pwr.failing = false → feedGood s (standbyFeed s) = true →
      ∃ t, exec (.feedNotGood (standbyFeed s)) s = .next t ∧ feedGood t (standbyFeed s) = false ∧ activeFeed t = activeFeed s ∧
        flag t pwrB PWR_STATUS_STANDBY_READY = false) ∧
    (s.pwr.failing = false → feedGood s .a = true → feedGood s .b = true → flag s pwrB PWR_STATUS_STANDBY_READY = true →
      ∀ am sm, inBusWindow s am = false → inBusWindow s sm = true →
      ∃ t, exec (.converterConditionHeld am sm) s = .next t ∧ activeFeed t = standbyFeed s ∧
        convFailed t (activeFeed s) = true ∧ rd t pwrB PWR_STATUS_SWAPPED = 1) ∧
    (s.pwr.failing = false → feedGood s .a = true → feedGood s .b = true → ∀ am sm, inBusWindow s am = true →
      (inBusWindow s sm = false → ∃ t, exec (.converterConditionHeld am sm) s = .next t ∧ activeFeed t = activeFeed s ∧
        convFailed t (standbyFeed s) = true) ∧
      (inBusWindow s sm = true → busDiffer s am sm = true → ∃ t, exec (.converterConditionHeld am sm) s = .next t ∧
        activeFeed t = activeFeed s ∧ rd t pwrB PWR_STATUS_MISMATCH = 1) ∧
      (inBusWindow s sm = true → busDiffer s am sm = false → ∃ t, exec (.converterConditionHeld am sm) s = .next t ∧
        activeFeed t = activeFeed s ∧ t.pwr = s.pwr)) ∧
    (s.pwr.failing = false → feedGood s (activeFeed s) = true → flag s pwrB PWR_STATUS_STANDBY_READY = false →
      ∃ t, exec (.feedNotGood (activeFeed s)) s = .next t ∧ feedGood t (activeFeed s) = false ∧ t.pwr.failing = true) ∧
    (s.pwr.failing = false → ∀ bm sm, busLow bm = true →
      (inBusWindow s sm = true → flag s pwrB PWR_STATUS_STANDBY_READY = true →
        ∃ t, exec (.busUndervoltage bm sm) s = .next t ∧ activeFeed t = standbyFeed s ∧ convFailed t (activeFeed s) = true ∧
          rd t pwrB PWR_STATUS_SWAPPED = 1) ∧
      ((inBusWindow s sm && flag s pwrB PWR_STATUS_STANDBY_READY) = false →
        ∃ t, exec (.busUndervoltage bm sm) s = .next t ∧ t.pwr.failing = true)) ∧
    (∀ bm, s.pwr.gap = true → busLow bm = false → ∃ t, exec (.switchOverGapEnd bm) s = .next t ∧ t.pwr.gap = false ∧ t.pwr.allPhasesUntil = now s + msecs 10) ∧
    (∀ p, forbidden p 0x20004 = false → accessLive s p 0x20004 = true → s.pwr.failing = false →
      flag s pwrB PWR_STATUS_STANDBY_READY = true →
      ∃ t, exec (.forceSwap p) s = .next t ∧ activeFeed t = standbyFeed s ∧ rd t pwrB PWR_STATUS_SWAPPED = 1)

/-- PWR_IB_SET, the clearing of a converter's mark, the hold-up store and the feed exercise act as their rules say (R43, R47,
R48, R51, R52, R53, R50). -/
def Obligations.SetPointsMarksAndExercise : Prop :=
  ∀ (s : State),
    (∀ p (v : Word), forbidden p 0x20008 = false → accessLive s p 0x20008 = true →
      ∃ t, exec (.pwrIbSetWrite p v) s = .next t ∧ rd t pwrB PWR_IB_SET_TARGET = min 24 (v.toNat % 256) ∧
        rd t pwrB PWR_IB_SET_ILIMIT = min 18 (v.toNat / 256 % 256) ∧ t.pwr.convTarget = min 24 (v.toNat % 256) ∧
        t.pwr.convLimit = min 18 (v.toNat / 256 % 256)) ∧
    (∀ f x, live s .always = true → (feedOf s f).cleanSince = some x → convFailed s f = true → (feedOf s f).cycled = true →
      feedGood s f = true → standbyFeed s = f →
      ∃ t, exec (.failedMarkClear f) s = .next t ∧ convFailed t f = false ∧ x + secs 10 ≤ now t) ∧
    (live s .always = true → ∃ t, exec (.holdupCharged none) s = .next t ∧ t.pwr.charged = true) ∧
    (∀ c, live s .always = true → ∃ t, exec (.holdupCharged (some c)) s = .next t ∧ t.pwr.charged = true ∧
      rd t pwrB PWR_HOLDUP_CAP_UF = c % 2 ^ 16 ∧ flag t pwrB PWR_STATUS_HOLDUP_LOW = decide (c < 5200)) ∧
    (live s .always = true → flag s pwrB PWR_EXERCISE_ENABLE = true → s.pwr.exerHalted = false → s.pwr.deferFrom = none →
      s.pwr.failing = false → flag s pwrB PWR_STATUS_EXERCISE_ON = false → flag s pwrB PWR_STATUS_STANDBY_READY = true →
      exerDefer (reach (exerDueAt s) s) = false →
      ∃ t, exec .feedExerciseDue s = .next t ∧ flag t pwrB PWR_STATUS_EXERCISE_ON = true ∧ activeFeed t = standbyFeed s) ∧
    (live s .always = true → flag s pwrB PWR_STATUS_EXERCISE_ON = true → s.pwr.failing = false →
      flag s pwrB PWR_STATUS_STANDBY_READY = true → activeFeed s ≠ s.pwr.exerHome →
      ∃ t, exec .exerciseWindowEnd s = .next t ∧ flag t pwrB PWR_STATUS_EXERCISE_ON = false ∧ activeFeed t = standbyFeed s ∧
        rd t pwrB PWR_SWAP_COUNT_EXERCISES = satInc 0xFFFF (rd s pwrB PWR_SWAP_COUNT_EXERCISES) % 2 ^ 16) ∧
    (∀ x, live s .always = true → flag s pwrB PWR_EXERCISE_ENABLE = true → s.pwr.deferFrom = some x → x + secs 3600 ≤ now s →
      ∃ t, exec .exerciseRetry s = .next t ∧ rd t pwrB PWR_STATUS_EXERCISE_MISSED = 1 ∧ t.pwr.deferFrom = none ∧ t.pwr.exerBase = x) ∧
    (s.pwr.powered = true → s.pwr.failing = true → ∃ t, exec .powerDown s = .next t ∧ t.pwr.powered = false)

/-- Eight of the feed and converter commands keep every part and register that is not the power block's, the fabric block's or a
record (R41, R43, R45, R47, R52). -/
def Obligations.PowerFrame : Prop :=
  ∀ (s t : State) (c : Instr),
    ((∃ f, c = .feedGood f) ∨ (∃ bm, busLow bm = false ∧ c = .switchOverGapEnd bm) ∨ (∃ p, c = .forceSwap p) ∨ (∃ p v, c = .pwrIbSetWrite p v) ∨
      (∃ f, c = .failedMarkClear f) ∨ c = .feedExerciseDue ∨ c = .exerciseWindowEnd ∨ c = .exerciseRetry) →
    exec c s = .next t →
    kept (butFor svcParts [.pwr]) s t ∧ keptRegs (fun a _ => decide (0x20000 ≤ a ∧ a < 0x40000)) s t

/-- The pace index, the governor and FAB_GOV_CTL act as R56 to R60 say (R56, R58, R59, R60). -/
def Obligations.PaceAndGovernor : Prop :=
  ∀ (s : State),
    (∀ r rs, live s .core = true → ∃ t, exec (.paceUpdate (r :: rs)) s = .next t ∧
      rd t fabB FAB_PACE_INDEX = min 4095 (rs.foldl min r) ∧
      flag t fabB FAB_PACE_BELOW_FLOOR = decide (min 4095 (rs.foldl min r) < 256) ∧
      ((min 4095 (rs.foldl min r) < 256 ∧ (s.fab.seen = false ∨ flag s fabB FAB_PACE_BELOW_FLOOR = false)) →
        rd t fabB FAB_PACE_PACE_LOW = 1)) ∧
    (∀ mv, live s .core = true → flag s fabB FAB_GOV_CTL_ENABLE = true → govPace s < rd s fabB FAB_GOV_CTL_TARGET →
      rd s fabB FAB_VCORE_CODE < rd s fabB FAB_GOV_CTL_VMAX →
      ∃ t, exec (.governorEvaluation mv) s = .next t ∧ rd t fabB FAB_VCORE_CODE = (rd s fabB FAB_VCORE_CODE + 1) % 32 ∧
        rd t fabB FAB_VCORE_MEAS_MV = mv % 65536) ∧
    (∀ mv, live s .core = true → flag s fabB FAB_GOV_CTL_ENABLE = true → rd s fabB FAB_GOV_CTL_TARGET + 24 ≤ govPace s →
      99 ≤ s.fab.highRun → rd s fabB FAB_GOV_CTL_VMIN < rd s fabB FAB_VCORE_CODE →
      ∃ t, exec (.governorEvaluation mv) s = .next t ∧ rd t fabB FAB_VCORE_CODE = (rd s fabB FAB_VCORE_CODE - 1) % 32) ∧
    (∀ mv, live s .core = true → flag s fabB FAB_GOV_CTL_ENABLE = false →
      ∃ t, exec (.governorEvaluation mv) s = .next t ∧ rd t fabB FAB_VCORE_CODE = rd s fabB FAB_VCORE_MANUAL_CODE % 32) ∧
    (∀ p (v : Word), forbidden p 0x30004 = false → accessLive s p 0x30004 = true →
      min 30 (v.toNat / 2 ^ 16 % 32) ≤ min 30 (v.toNat / 2 ^ 24 % 32) →
      ∃ t, exec (.fabGovCtlWrite p v) s = .next t ∧ rd t fabB FAB_GOV_CTL_TARGET = clampTo 256 512 (v.toNat % 4096) ∧
        rd t fabB FAB_GOV_CTL_VMIN = min 30 (v.toNat / 2 ^ 16 % 32) ∧ rd t fabB FAB_GOV_CTL_VMAX = min 30 (v.toNat / 2 ^ 24 % 32)) ∧
    (∀ p (v : Word), forbidden p 0x30004 = false → accessLive s p 0x30004 = true →
      min 30 (v.toNat / 2 ^ 24 % 32) < min 30 (v.toNat / 2 ^ 16 % 32) →
      ∃ t, exec (.fabGovCtlWrite p v) s = .next t ∧
        ∀ f ∈ [FAB_GOV_CTL_TARGET, FAB_GOV_CTL_VMIN, FAB_GOV_CTL_VMAX, FAB_GOV_CTL_ENABLE], rd t fabB f = rd s fabB f)

/-- READ_CUT, WRITE_CUT, RECEIVE_WINDOW_SHRINK and RX_FRAME_DROP complete, each with its count or mark and its frame (R61, R55).
Where a clause rests on a choice of the model and not on a rule, the choice is that of notes/assumptions/20.md. -/
def Obligations.FallingBehind : Prop :=
  ∀ (s : State), live s .core = true →
    (∀ a : ActId, ∃ t, exec (.readCut a) s = .next t ∧
      rd t fabB FAB_CUTS_READ_CUTS = satInc 0xFFFF (rd s fabB FAB_CUTS_READ_CUTS) % 2 ^ 16 ∧
      (actOf t a.val).run = (actOf s a.val).run.map (fun r => { r with paused := true }) ∧
      (∀ b, b ≠ a.val → actOf t b = actOf s b) ∧
      kept (butFor svcParts [.acts]) s t ∧ keptRegs (fun x l => decide (x = 0x3000C ∧ l = 0)) s t) ∧
    (∀ a : ActId, ∃ t, exec (.writeCut a) s = .next t ∧
      rd t fabB FAB_CUTS_WRITE_CUTS = satInc 0xFFFF (rd s fabB FAB_CUTS_WRITE_CUTS) % 2 ^ 16 ∧ (actOf t a.val).writing = false ∧
      (actOf t a.val).run = (actOf s a.val).run.map (fun r => { r with wasCut := true }) ∧
      (∀ b, b ≠ a.val → actOf t b = actOf s b) ∧
      kept (butFor svcParts [.acts]) s t ∧ keptRegs (fun x l => decide (x = 0x3000C ∧ l = 16)) s t) ∧
    (∀ h : HostId, ∃ t, exec (.receiveWindowShrink h) s = .next t ∧ h.val ∈ t.fab.shrunk ∧
      kept (butFor svcParts [.fab]) s t ∧ keptRegs noReg s t) ∧
    (∀ h : HostId, ∃ t, exec (.rxFrameDrop h) s = .next t ∧
      rd t (hostBase h.val) HP_ERRS_RX_DROPS = satInc 0xFFFF (rd s (hostBase h.val) HP_ERRS_RX_DROPS) % 2 ^ 16 ∧
      kept svcParts s t ∧ keptRegs (fun x l => decide (x = hostBase h.val + 8 ∧ l = 0)) s t)

/-- LATCHING_LOW_HALF_READ and STAMP_TAKE_LO_READ complete, with what they send and what they latch (R30, R70, R27). Where a
clause rests on a choice of the model and not on a rule, the choice is that of notes/assumptions/11.md. -/
def Obligations.ReadsThatAct : Prop :=
  ∀ (s : State) (p : Path),
    (∀ addr, isPairLo addr = true → readLive s p = true →
      ∃ t, exec (.latchingLowHalfRead p addr) s = .next t ∧ sent (.value p addr (BitVec.ofNat 32 (pairLive s addr))) s t) ∧
    (readLive s p = true → ∃ t, exec (.latchingLowHalfRead p 0x30020) s = .next t ∧
      rd t fabB STAMP_NOW_HI_TIME_HI = s.time.unit / 2 ^ 32 % 2 ^ 32) ∧
    (readLive s p = true → ∃ t, exec (.latchingLowHalfRead p 0x1000C) s = .next t ∧
      rd t rstB RST_TIME_HI_TIME_HI = pairLive s 0x1000C / 2 ^ 32 % 2 ^ 32) ∧
    (readLive s p = true → ∃ t, exec (.latchingLowHalfRead p 8) s = .next t ∧
      rd t idB GLB_SINCE_HI_TIME_HI = pairLive s 8 / 2 ^ 32 % 2 ^ 32) ∧
    (∀ addr, addrOk addr = false → s.pwr.powered = true →
      ∃ t, exec (.latchingLowHalfRead p addr) s = .next t ∧ sent (.busError p addr) s t) ∧
    (∀ src, readLive s p = true → takeSource p = some src → ∃ t, exec (.stampTakeLoRead p) s = .next t ∧
      sent (.value p 0x30028 (BitVec.ofNat 32 (stamp src s).1.time)) s t ∧
      copyGet t p 0x3002C = (stamp src s).1.time / 2 ^ 32 % 2 ^ 32 ∧
      copyGet t p 0x30030 = ((stamp src s).1.src + (stamp src s).1.seq * 65536) % 2 ^ 32) ∧
    (readLive s p = true → takeSource p = none → serviceTrue s = true →
      ∃ t, exec (.stampTakeLoRead p) s = .next t ∧ sent (.value p 0x30028 0) s t ∧ t.copies = s.copies ∧ t.time = s.time)

/-- A stamp's time, source and sequence follow R64 and R66 (R64, R66, R67). -/
def Obligations.StampsOfOneSource : Prop :=
  ∀ (s : State) (src : Nat),
    (stamp src s).1.src = src ∧ (stamp src s).1.seq = (tget stampSrc0 s.time.srcs src).seq ∧
    (tget stampSrc0 (stamp src s).2.time.srcs src).seq = ((tget stampSrc0 s.time.srcs src).seq + 1) % 65536 ∧
    (tget stampSrc0 (stamp src s).2.time.srcs src).last = (stamp src s).1.time ∧
    s.time.unit ≤ (stamp src s).1.time ∧ (tget stampSrc0 s.time.srcs src).last ≤ (stamp src s).1.time ∧
    (16 ≤ (tget stampSrc0 s.time.srcs src).run → (tget stampSrc0 s.time.srcs src).last < (stamp src s).1.time) ∧
    (∀ o, o ≠ src → tget stampSrc0 (stamp src s).2.time.srcs o = tget stampSrc0 s.time.srcs o)

/-- The stamp unit's time never decreases, and a backward Assay time starts a hold (R66). -/
def Obligations.UnitTimeHolds : Prop :=
  ∀ (s : State) (x : Nat),
    (setAssay x s).time.unit = max s.time.unit x ∧ (setAssay x s).time.assay = x ∧
    (x < s.time.unit → flag (setAssay x s) fabB STAMP_STATUS_HOLDING = true) ∧
    (x < s.time.unit → flag s fabB STAMP_STATUS_HOLDING = false → flag (setAssay x s) fabB STAMP_STATUS_HELD = true) ∧
    (s.time.unit < x → flag (setAssay x s) fabB STAMP_STATUS_HOLDING = false) ∧
    (flag s fabB STAMP_STATUS_HOLDING = true → x = s.time.unit → flag (setAssay x s) fabB STAMP_STATUS_HOLDING = true)

/-- HDA_PA_GO, PREAMP_FRAME_DONE, HLX_FLT_N_FALL, SHOCK_N_FALL, SHOCK_N_RELEASE and SENSOR_POLL complete, with the port state
they leave (R73, R77, R78, R79, R80, R81, R87). Where a clause rests on a choice of the model and not on a rule, the choice
is that of notes/assumptions/21.md. -/
def Obligations.LinkEvents : Prop :=
  ∀ (s : State) (n : PortId) (a : ActId),
    (∀ p, forbidden p (portBase n.val + 0x14) = false → accessLive s p (portBase n.val + 0x14) = true → (portOf s n.val).swFrame = false →
      underReset s 2 n.val = false →
      (paRefused s n.val = false → ∃ t, exec (.hdaPaGo p n) s = .next t ∧ (portOf t n.val).swFrame = true ∧
        rd t (portBase n.val) HDA_PA_RESULT_DONE = 0) ∧
      (paRefused s n.val = true → ∃ t, exec (.hdaPaGo p n) s = .next t ∧ rd t (portBase n.val) HDA_PA_RESULT_DONE = 1 ∧
        rd t (portBase n.val) HDA_PA_RESULT_REFUSED = 1)) ∧
    (∀ f rest (data : BitVec 16) (check : BitVec 8), live s .core = true → (actOf s a.val).frames = f :: rest → f.again = false →
      (frameBad f data.toNat check.toNat = false →
        ∃ t, exec (.preampFrameDone a data check) s = .next t ∧ (actOf t a.val).frames = rest ∧
          (f.sw = true → f.read = true → rd t (portBase (portOfAct a.val)) HDA_PA_RESULT_DATA = data.toNat ∧
            rd t (portBase (portOfAct a.val)) HDA_PA_RESULT_DONE = 1)) ∧
      (frameBad f data.toNat check.toNat = true →
        ∃ t, exec (.preampFrameDone a data check) s = .next t ∧ (actOf t a.val).frames = { f with again := true } :: rest ∧
          rd t (portBase (portOfAct a.val)) HDA_COUNTS_PA_CRC_ERRS =
            satInc 0xFFFF (rd s (portBase (portOfAct a.val)) HDA_COUNTS_PA_CRC_ERRS) % 2 ^ 16)) ∧
    (∀ (status : BitVec 16) second, live s .motion = true → portState s (portOfAct a.val) = 4 → (unitOf s (fbAct a.val) 0).inFault = false →
      (actOf s a.val).fltTried = false → (actOf s a.val).writing = false →
      ∃ t, exec (.hlxFltNFall a ⟨some status, second⟩ false) s = .next t ∧ rd t (portBase (portOfAct a.val)) (fltSeen a.val) = 1 ∧
        flag t (portBase (portOfAct a.val)) (fltField a.val) = false ∧ (actOf t a.val).statusRead = status.toNat) ∧
    (live s .motion = true → ∃ t, exec (.shockNFall n) s = .next t ∧ rd t (portBase n.val) HDA_STATUS_SHOCK = 1 ∧
      rd t (portBase n.val) HDA_STATUS_SHOCK_SEEN = 1 ∧ (actOf t (actU n.val)).gates.shock = true ∧
      (actOf t (actL n.val)).gates.shock = true) ∧
    (live s .motion = true → ∃ t, exec (.shockNRelease n) s = .next t ∧ rd t (portBase n.val) HDA_STATUS_SHOCK = 0 ∧
      (actOf t (actU n.val)).gates.shock = false ∧ (actOf t (actL n.val)).gates.shock = false) ∧
    (∀ bs second, live s .core = true → 2 ≤ portState s n.val → portState s n.val ≤ 5 → (portOf s n.val).sensBad = false →
      leAt bs 4 1 % 2 = 0 →
      ∃ t, exec (.sensorPoll n (some bs) second) s = .next t ∧ rd t (portBase n.val) HDA_ENV_TEMP = leAt bs 0 2 % 2 ^ 16 ∧
        rd t (portBase n.val) HDA_ENV_HUMIDITY = leAt bs 2 2 % 2 ^ 16) ∧
    (live s .core = true → 2 ≤ portState s n.val → portState s n.val ≤ 5 → (portOf s n.val).sensBad = false →
      ∃ t, exec (.sensorPoll n none none) s = .next t ∧ rd t (portBase n.val) HDA_STATUS_SENS_ERR = 1)

/-- PRES_N, SETTLE_WINDOW_END, IDENTITY_READ, PREAMP_IDENT_CHECK, SUPPLY_TRIP, RELEASE, REST_CHECK and SLOW_STOP complete, with
the port state of R84 they lead to (R84, R83, R85, R86, R371). Where a clause rests on a choice of the model and not on a
rule, the choice is that of notes/assumptions/21.md. -/
def Obligations.PortStates : Prop :=
  ∀ (s : State) (n : PortId),
    (live s .always = true → live s .motion = true → cfgApplied s = true → portState s n.val = 0 →
      ∃ t, exec (.presNLow n) s = .next t ∧ rd t (portBase n.val) HDA_STATUS_PRESENT = 1 ∧ portState t n.val = 1 ∧
        rd t (portBase n.val) HDA_STATUS_INSERTED = 1) ∧
    (live s .motion = true → portState s n.val = 1 → flag s (portBase n.val) HDA_STATUS_PRESENT = true →
      flag s (portBase n.val) HDA_CTL_POWER_ENABLE = true → service s ≠ 3 →
      ∃ t, exec (.settleWindowEnd n) s = .next t ∧ portState t n.val = 2 ∧ (portOf s n.val).settleEnd ≤ now t) ∧
    (∀ bs x, live s .core = true → portState s n.val = 2 → underReset s 2 n.val = false → recordCause bs = 0 →
      portModel (idCopy n.val bs (reach (portOf s n.val).settleEnd s)) n.val = some x →
      windowEmpty (portPowering n.val x (idCopy n.val bs (reach (portOf s n.val).settleEnd s))) n.val = false →
      ∀ second, ∃ t, exec (.identityRead n (some bs) second) s = .next t ∧ portState t n.val = 3) ∧
    (∀ bs, live s .core = true → portState s n.val = 2 → underReset s 2 n.val = false → recordCause bs ≠ 0 →
      ∀ second, ∃ t, exec (.identityRead n (some bs) second) s = .next t ∧ portState t n.val = 7 ∧
        rd t (portBase n.val) HDA_STATUS_REJECT_CAUSE = recordCause bs) ∧
    (live s .core = true → portState s n.val = 2 → underReset s 2 n.val = false →
      ∃ t, exec (.identityRead n none none) s = .next t ∧ portState t n.val = 7 ∧ rd t (portBase n.val) HDA_STATUS_REJECT_CAUSE = 1) ∧
    (∀ (u l us ls : BitVec 16) i j k m, live s .core = true → portState s n.val = 3 → l ≠ 0 → l ≠ 0xFFFF →
      (u ≠ 0 → u ≠ 0xFFFF →
        ∃ t, exec (.preampIdentCheck n ⟨⟨some u, i⟩, ⟨some us, j⟩⟩ ⟨⟨some l, k⟩, ⟨some ls, m⟩⟩) s = .next t ∧ portState t n.val = 4) ∧
      (u = 0 → ∃ t, exec (.preampIdentCheck n ⟨⟨some u, i⟩, ⟨some us, j⟩⟩ ⟨⟨some l, k⟩, ⟨some ls, m⟩⟩) s = .next t ∧
        portState t n.val = 7 ∧ rd t (portBase n.val) HDA_STATUS_REJECT_CAUSE = 6)) ∧
    (live s .motion = true → portState s n.val = 3 →
      ∃ t, exec (.supplyTrip n) s = .next t ∧ portState t n.val = 7 ∧ rd t (portBase n.val) HDA_STATUS_REJECT_CAUSE = 7) ∧
    (∀ p, forbidden p (portBase n.val + 4) = false → accessLive s p (portBase n.val + 4) = true → portState s n.val = 4 →
      ∃ t, exec (.hdaCtlRelease p n) s = .next t ∧ portState t n.val = 5 ∧ rd t (actBase (actU n.val)) AS_CTL_RUN = 0 ∧
        rd t (actBase (actL n.val)) AS_CTL_RUN = 0) ∧
    (live s .always = true → live s .motion = true → portState s n.val ≠ 0 →
      ∃ t, exec (.presNHigh n) s = .next t ∧ rd t (portBase n.val) HDA_STATUS_PRESENT = 0 ∧ portState t n.val = 0) ∧
    (∀ emf, live s .motion = true → s.pwr.failing = false → spState s n.val = 3 → (portOf s n.val).brakeFor = .release →
      (portOf s n.val).brake = .short → atRest s n.val emf = true →
      ∃ t, exec (.restCheck n emf) s = .next t ∧ portState t n.val = 6 ∧ spState t n.val = 0) ∧
    (live s .motion = true → portState s n.val = 5 →
      ∃ t, exec (.slowStop n) s = .next t ∧ rd t (portBase n.val) HDA_STATUS_SLOW_STOP = 1 ∧
        (portOf s n.val).releaseAt + secs 30 ≤ now t)

/-- Nine commands of the HDA link keep the listed parts of the state, and three of them every register outside their port's block
(R73, R84, R86, R87). -/
def Obligations.LinkFrame : Prop :=
  ∀ (s t : State) (n : PortId) (c : Instr),
    ((c = .shockNFall n ∨ c = .shockNRelease n ∨ c = .presNLow n ∨ c = .presNHigh n ∨ c = .settleWindowEnd n ∨
      (∃ u l, c = .preampIdentCheck n u l) ∨ (∃ p, c = .hdaCtlRelease p n) ∨ c = .slowStop n ∨ (∃ p, c = .hdaPaGo p n)) →
      exec c s = .next t → kept [.copies, .pwr, .fab, .stores, .dec, .pool, .mov, .rsv, .asy, .cfg, .flt, .free] s t) ∧
    ((c = .presNLow n ∨ c = .settleWindowEnd n) → exec c s = .next t →
      kept (butFor svcParts [.ports]) s t ∧
      keptRegs (fun x l => inRange (portBase n.val) 0x1000 x l || decide (x = 0x30034)) s t) ∧
    (c = .slowStop n → exec c s = .next t → kept svcParts s t ∧
      keptRegs (fun x _ => decide (x = portBase n.val) || decide (x = 0x30034)) s t)

/-- SERVO_WEDGE, the servo's time-outs, targets, loads, unloads, park conditions, retracts and the flying threshold complete,
with the servo state they lead to (R124, R125, R128, R131, R133, R134, R135, R136, R137). Where a clause rests on a choice of
the model and not on a rule, the choice is that of notes/assumptions/23.md. -/
def Obligations.WedgesAndSeeks : Prop :=
  ∀ (s : State) (a : ActId),
    (∀ w, live s .motion = true → svState s a.val ≠ 0 → svState s a.val ≠ 6 → (actOf s a.val).retractWait = false →
      flag s (actBase a.val) SV_CTL_ENABLE = true →
      ∃ t, exec (.servoWedge a w) s = .next t ∧ flag t (actBase a.val) SV_STATE_LOCKED = (readWedge s a.val w).y.isSome ∧
        (actOf t a.val).wedgeCount = (actOf s a.val).wedgeCount + 1 ∧
        (∀ y, svState s a.val = 4 → (readWedge s a.val w).y = some y → (actOf t a.val).y = y) ∧
        (svState s a.val = 4 → (readWedge s a.val w).y = none → (actOf s a.val).invalidRun = 4 →
          svState t a.val = 7 ∧ rd t (actBase a.val) SV_EVENTS_LOCK_LOST = 1)) ∧
    (∀ w, live s .motion = true → svState s a.val ≠ 0 → svState s a.val ≠ 6 → (actOf s a.val).retractWait = true →
      ∃ t, exec (.servoWedge a w) s = .next t ∧ svState t a.val = 6) ∧
    (live s .motion = true → svState s a.val = 7 → (actOf s a.val).lostAt + 480 ≤ (actOf s a.val).wedgeCount →
      rd s (fbAct a.val) FLT_REACT_ACTION = 0 → (unitOf s (fbAct a.val) 0).inFault = false →
      ∃ t, exec (.lostTimeout a) s = .next t ∧ svState t a.val = 6 ∧ (unitOf t (fbAct a.val) 0).inFault = true) ∧
    (live s .motion = true → svState s a.val = 3 → (actOf s a.val).settleTries = 0 →
      (actOf s a.val).settleAt + 16 * rd s (actBase a.val) SV_SEEK_SETTLE_TMO ≤ (actOf s a.val).wedgeCount →
      ∃ t, exec (.settleTimeout a) s = .next t ∧ svState t a.val = 2 ∧ rd t (actBase a.val) SV_EVENTS_SETTLE_TIMEOUT = 1) ∧
    (∀ p (v : Word), forbidden p (actBase a.val + 0x104) = false → accessLive s p (actBase a.val + 0x104) = true →
      (svState s a.val = 3 ∨ svState s a.val = 4) →
      ∃ t, exec (.svTargetWrite p a v) s = .next t ∧ svState t a.val = 2 ∧
        rd t (actBase a.val) SV_TARGET_TRACK = v.toNat % 2 ^ 20) ∧
    (live s .motion = true → loadAllowed s a.val = true →
      ∃ t, exec (.load a) s = .next t ∧ svState t a.val = 1 ∧ (actOf t a.val).loadAt = now s) ∧
    (live s .motion = true → svState s a.val = 1 →
      ∃ t, exec (.loadLockTimeout a) s = .next t ∧ svState t a.val = 5 ∧ (actOf t a.val).loadTries = (actOf s a.val).loadTries + 1) ∧
    (live s .motion = true → svState s a.val = 0 → (actOf s a.val).loadTries = 1 → (actOf s a.val).unloadFor = .loadRetry →
      loadAllowed (reach ((actOf s a.val).loadAt + msecs 100) s) a.val = true →
      ∃ t, exec (.loadRetry a) s = .next t ∧ svState t a.val = 1) ∧
    (live s .motion = true → svState s a.val ≠ 0 → svState s a.val ≠ 6 →
      ∃ t, exec (.unload a) s = .next t ∧ (actOf t a.val).unloadFor = .sequencer ∧
        ((svState s a.val = 1 ∨ svState s a.val = 5 ∨ svState s a.val = 7) → svState t a.val = 5) ∧
        ((svState s a.val = 2 ∨ svState s a.val = 3 ∨ svState s a.val = 4) → (actOf s a.val).unloadSeek = false →
          svState t a.val = 2 ∧ (actOf t a.val).unloadSeek = true)) ∧
    (∀ emf us, live s .motion = true → svState s a.val = 5 → (actOf s a.val).unloadFor = .sequencer → parkedAt s a.val emf = some us →
      ∃ t, exec (.unloadParked a emf) s = .next t ∧ svState t a.val = 0) ∧
    (∀ emf, live s .always = true → svState s a.val = 6 →
      ∃ t, exec (.retractParked a emf) s = .next t ∧ svState t a.val = 0 ∧ rd t (actBase a.val) SV_EVENTS_RETRACTED = 1 ∧
        (retractConfirmed s a.val emf = none → rd t (actBase a.val) SV_EVENTS_PARK_UNCONFIRMED = 1)) ∧
    (∀ p, forbidden p (actBase a.val + 0x100) = false → accessLive s p (actBase a.val + 0x100) = true →
      svState s a.val ≠ 0 → svState s a.val ≠ 6 →
      ∃ t, exec (.svCtlRetract p a) s = .next t ∧ (actOf t a.val).retractWait = true) ∧
    (live s .always = true → (actOf s a.val).retractWait = true → (actOf s a.val).resetHold = true → svState s a.val ≠ 0 →
      svState s a.val ≠ 6 → ∃ t, exec .resetRetractStart s = .next t ∧ svState t a.val = 6) ∧
    (∀ (n : PortId) at_, live s .motion = true → n.val = portOfAct a.val →
      flyBelow (reach at_ s) n.val a.val (max (portOf s n.val).zcIval (now (reach at_ s) - (portOf s n.val).zcAt)) = true →
      ∃ t, exec (.flyingThresholdCrossed n at_) s = .next t ∧ rd t (actBase a.val) SV_EVENTS_FLY_LOW = 1 ∧
        (actOf t a.val).gates.fly = true)

/-- An SV_SETTLE write stores its fields at the nearer limits, and none of them where WR_LIMIT is not above SETTLE_WR (R132)
(R132). -/
def Obligations.SettleLimits : Prop :=
  ∀ (s : State) (p : Path) (a : ActId) (v : Word), forbidden p (actBase a.val + 0x124) = false →
    accessLive s p (actBase a.val + 0x124) = true →
    (v.toNat / 2 ^ 8 % 256 < v.toNat / 2 ^ 24 % 256 →
      ∃ t, exec (.svSettleWrite p a v) s = .next t ∧ rd t (actBase a.val) SV_SETTLE_SETTLE_RD = v.toNat % 256 ∧
        rd t (actBase a.val) SV_SETTLE_SETTLE_WR = v.toNat / 2 ^ 8 % 256 ∧
        rd t (actBase a.val) SV_SETTLE_RD_WEDGES = clampTo 1 15 (v.toNat / 2 ^ 16 % 16) ∧
        rd t (actBase a.val) SV_SETTLE_WR_WEDGES = clampTo 1 15 (v.toNat / 2 ^ 20 % 16) ∧
        rd t (actBase a.val) SV_SETTLE_WR_LIMIT = v.toNat / 2 ^ 24 % 256) ∧
    (v.toNat / 2 ^ 24 % 256 ≤ v.toNat / 2 ^ 8 % 256 →
      ∃ t, exec (.svSettleWrite p a v) s = .next t ∧
        ∀ f ∈ [SV_SETTLE_SETTLE_RD, SV_SETTLE_SETTLE_WR, SV_SETTLE_RD_WEDGES, SV_SETTLE_WR_WEDGES, SV_SETTLE_WR_LIMIT],
          rd t (actBase a.val) f = rd s (actBase a.val) f)

/-- The LE_CTL commands, TUNE_TIMEOUT, LOOP_SAMPLE and ZONE_TABLE_WRITE complete, with the fields and loop state that they leave
(R126, R133, R142, R150, R151, R152, R153, R155, R157, R170, R174). Where a clause rests on a choice of the model and not on
a rule, the choice is that of notes/assumptions/7.md, notes/assumptions/24.md. -/
def Obligations.LoopEngineCommands : Prop :=
  ∀ (s : State) (p : Path) (i : LeId),
    (forbidden p (leCtl (leIx i)) = false → accessLive s p (leCtl (leIx i)) = true → (∀ n : PortId, i = .spin n → (portOf s n.val).catching = false) →
      (setInvalid (storedSet s (leIx i) (mapEntry s (leIx i) (rd s (leBase (leIx i)) LE_STATUS_REGION))) = false →
        ∃ t, exec (.leEnable p i) s = .next t ∧ flag t (leBase (leIx i)) LE_CTL_ENABLE = true) ∧
      (setInvalid (storedSet s (leIx i) (mapEntry s (leIx i) (rd s (leBase (leIx i)) LE_STATUS_REGION))) = true →
        flag s (leBase (leIx i)) LE_CTL_ENABLE = false →
        ∃ t, exec (.leEnable p i) s = .next t ∧ flag t (leBase (leIx i)) LE_CTL_ENABLE = false ∧
          rd t (leBase (leIx i)) LE_STATUS_SET_INVALID = 1) ∧
      (∃ t, exec (.leDisable p i) s = .next t ∧ flag t (leBase (leIx i)) LE_CTL_ENABLE = false) ∧
      (∀ on, (on = false ∨ 48 ≤ leIx i ∨ svState s (leIx i) = 0 ∨ svState s (leIx i) = 4) →
        ∃ t, exec (.leManual p i on) s = .next t ∧ flag t (leBase (leIx i)) LE_CTL_MANUAL = on) ∧
      (∀ on, ∃ t, exec (.leHoldSet p i on) s = .next t ∧ flag t (leBase (leIx i)) LE_CTL_HOLD_SET = on) ∧
      (∃ t, exec (.leReload p i) s = .next t ∧ (loopOf t (leIx i)).reload = true) ∧
      (tuneAllowed s (leIx i) = true →
        ∃ t, exec (.tuneStart p i) s = .next t ∧ flag t (leBase (leIx i)) LE_STATUS_TUNING = true ∧
          (loopOf t (leIx i)).tune.isSome = true) ∧
      ((loopOf s (leIx i)).tune.isSome = true →
        ∃ t, exec (.tuneStop p i) s = .next t ∧ (loopOf t (leIx i)).tune = none ∧
          rd t (leBase (leIx i)) LE_STATUS_TUNE_ABORTED = 1 ∧ rd t (leBase (leIx i)) LE_STATUS_ABORT_CAUSE = 4)) ∧
    (forbidden p (leCtl (leIx i)) = false → accessLive s p (leCtl (leIx i)) = true → (∃ n : PortId, i = .spin n ∧ (portOf s n.val).catching = true) →
      ∀ on c, (c = .leEnable p i ∨ c = .leDisable p i ∨ c = .leManual p i on ∨ c = .leHoldSet p i on ∨ c = .leReload p i ∨ c = .tuneStart p i ∨
        c = .tuneStop p i) → ∃ t, exec c s = .next t ∧ t.loops = s.loops) ∧
    (∀ u, live s .motion = true → (loopOf s (leIx i)).tune = some u →
      ∃ t, exec (.tuneTimeout i) s = .next t ∧ (loopOf t (leIx i)).tune = none ∧
        rd t (leBase (leIx i)) LE_STATUS_TUNE_ABORTED = 1 ∧ rd t (leBase (leIx i)) LE_STATUS_ABORT_CAUSE = 2 ∧
        u.since + msecs (100 * rd s (leBase (leIx i)) LE_TUNE_CFG_TMO) ≤ now t) ∧
    (∀ (a : ActId) x skipped, live s .motion = true → (svState s a.val = 1 ∨ svState s a.val = 5) → (loopOf s a.val).rampStart = true →
      ∃ t, exec (.loopSample (.act a) x skipped) s = .next t ∧ (loopOf t a.val).working = vcmEmf s a.val x ∧
        rd t (leBase a.val) LE_SETPOINT_WORKING = fitNat 16 (showRat (vcmEmf s a.val x)) % 2 ^ 16 ∧
        (skipped ≠ 0 → rd s fabB FAB_PACE_INDEX < 256 → flag s (leBase a.val) LE_CTL_ENABLE = true →
          rd t (leBase a.val) LE_STATUS_OVERRUN = 1)) ∧
    (∀ (n : PortId) x skipped, live s .motion = true → spRunning s n.val = true → s.pwr.failing = false →
      ∃ t, exec (.loopSample (.spin n) x skipped) s = .next t ∧
        spState t n.val = if rd t (portBase n.val) SP_STATUS_REGION = 1 then 7 else 6) ∧
    (∀ (a : ActId) (z : Fin 32) (v : Word), (portState s (portOfAct a.val) < 3 ∨ 5 < portState s (portOfAct a.val)) →
      (forbidden p (zoneAddr a.val z.val false) = false → accessLive s p (zoneAddr a.val z.val false) = true →
        ∃ t, exec (.zoneTableWrite p a z false v) s = .next t ∧
          rd t (actBase a.val) (SV_ZONE_START_TRACK.ix z.val) = v.toNat % 2 ^ 20) ∧
      (forbidden p (zoneAddr a.val z.val true) = false → accessLive s p (zoneAddr a.val z.val true) = true →
        ∃ t, exec (.zoneTableWrite p a z true v) s = .next t ∧
          rd t (actBase a.val) (SV_ZONE_RATE_BITS_PER_WEDGE.ix z.val) = v.toNat % 2 ^ 18))

/-- SECTOR_SAMPLED, LANE_FREE, the three decode job ends and the two decode registers' writes complete, with the queues, lanes
and result codes that they leave (R99, R105, R106, R107, R111, R112, R114). Where a clause rests on a choice of the model and
not on a rule, the choice is that of notes/assumptions/22.md. -/
def Obligations.DecodePool : Prop :=
  ∀ (s : State),
    (∀ (a : ActId) x chk r l sl, live s .core = true → flag s (actBase a.val) CH_CTL_PRI_ON = true →
      flag s (actBase a.val) CH_CTL_DUAL_READ = false →
      (actOf s a.val).run = some r → nextRead r = some (l, sl) → r.op = 1 → r.combine = false → softUsed s a.val < 8 →
      ∃ t, exec (.sectorSampled a .primary x chk) s = .next t ∧
        ((samplePath s a.val .primary markAt x (slotWindows r sl)).word ≠ [] →
          ∃ j, t.dec.first = s.dec.first ++ [j] ∧ j.act = a.val ∧ j.sector = l ∧ j.slot = sl ∧ j.cls = .first) ∧
        ((samplePath s a.val .primary markAt x (slotWindows r sl)).word = [] → fetchOf s ((actOf s a.val).cur.getD noItem).tag = none →
          rd t (actBase a.val) CH_LAST_SECTOR_RESULT = 8)) ∧
    (∀ (l : LaneId) j, live s .core = true → bitOf (rd s dpB DP_LANE_UP_IN_SERVICE) l.val = true → underReset s 3 l.val = false →
      tfind s.dec.lanes l.val = none → s.dec.deep = [] → earliest s.dec.first = some j →
      ∃ t, exec (.laneFree l) s = .next t ∧ t.dec.first = s.dec.first.erase j ∧
        (tfind t.dec.lanes l.val).map (fun k => (k.act, k.tag, k.sector, k.slot)) = some (j.act, j.tag, j.sector, j.slot)) ∧
    (∀ (l : LaneId) j, live s .core = true → tfind s.dec.lanes l.val = some j → j.cls = .first → j.act < 48 → fetchOf s j.tag = none →
      ∃ t, exec (.firstPassJobEnd l none) s = .next t ∧ tfind t.dec.lanes l.val = none ∧
        ((jobDecode j).converged = true → payloadCode s j (jobDecode j).payload = 0 →
          rd t (actBase j.act) CH_LAST_SECTOR_RESULT = okCode j)) ∧
    (∀ (l : LaneId) j, live s .core = true → tfind s.dec.lanes l.val = some j → j.cls = .deep → j.act < 48 → fetchOf s j.tag = none →
      ∃ t, exec (.deepSliceEnd l none) s = .next t ∧ tfind t.dec.lanes l.val = none ∧
        ((jobDecode j).converged = true → payloadCode s j (jobDecode j).payload = 0 →
          rd t (actBase j.act) CH_LAST_SECTOR_RESULT = okCode j)) ∧
    (∀ (l : LaneId) j, live s .core = true → tfind s.dec.lanes l.val = some j → j.cls = .verify → j.act < 48 → j.slot = j.sector →
      ∃ t, exec (.verifyJobEnd l none) s = .next t ∧ tfind t.dec.lanes l.val = none ∧
        (verifyCode s j (jobDecode j) = 0 → rd t (actBase j.act) CH_LAST_SECTOR_RESULT = 0)) ∧
    (∀ p (v : Word), forbidden p 0x140004 = false → accessLive s p 0x140004 = true →
      ∃ t, exec (.dpLaneEnWrite p v) s = .next t ∧ rd t dpB DP_LANE_EN_ENABLE = v.toNat % 2 ^ 24) ∧
    (∀ p (v : Word), forbidden p 0x140000 = false → accessLive s p 0x140000 = true →
      ∃ t, exec (.dpCtlWrite p v) s = .next t ∧ rd t dpB DP_CTL_FIRST_ITER = clampTo 4 64 (v.toNat % 256) ∧
        rd t dpB DP_CTL_DEEP_ITER = max (clampTo 4 64 (v.toNat % 256)) (clampTo 4 200 (v.toNat / 2 ^ 8 % 256)) ∧
        rd t dpB DP_CTL_COMBINE_MAX = clampTo 1 8 (v.toNat / 2 ^ 28 % 16))

/-- Sixteen servo, loop and decode commands keep the listed parts of the state (R128, R133, R136, R107, R112). -/
def Obligations.MotionFrame : Prop :=
  ∀ (s t : State) (a : ActId) (c : Instr),
    (((∃ p v, c = .svTargetWrite p a v) ∨ (∃ p v, c = .svSettleWrite p a v) ∨ c = .load a ∨ c = .loadLockTimeout a ∨ c = .loadRetry a ∨
      c = .unload a ∨ (∃ p, c = .svCtlRetract p a) ∨ c = .resetRetractStart ∨ (∃ p i, c = .leEnable p i) ∨ (∃ p i, c = .leDisable p i) ∨
      (∃ p i, c = .tuneStart p i) ∨ (∃ p i, c = .tuneStop p i)) → exec c s = .next t →
      kept (butFor svcParts [.acts, .loops, .led]) s t) ∧
    ((∃ w, c = .servoWedge a w) → exec c s = .next t →
      kept [.copies, .pwr, .fab, .ports, .stores, .sluice, .dec, .str, .pool, .mov, .rsv, .cfg, .flt] s t) ∧
    ((∃ l, c = .laneFree l) → exec c s = .next t → kept (butFor svcParts [.dec]) s t ∧
      keptRegs (fun x _ => decide (0x100000 ≤ x ∧ x < 0x150000)) s t) ∧
    (((∃ p v, c = .dpLaneEnWrite p v) ∨ (∃ p v, c = .dpCtlWrite p v)) → exec c s = .next t → kept svcParts s t)

/-- Twelve events of a spindle complete, with the step, the state and the counts that they leave (R163, R164, R168, R171, R172,
R173, R174, R175, R177, R181). Where a clause rests on a choice of the model and not on a rule, the choice is that of
notes/assumptions/25.md. -/
def Obligations.SpindleEvents : Prop :=
  ∀ (s : State) (n : PortId), live s .motion = true →
    (s.pwr.failing = false →
      (∀ x, (spState s n.val = 6 ∨ spState s n.val = 7) → crossOk s n.val x = true →
        ∃ t, exec (.zeroCrossing n x) s = .next t ∧ (portOf t n.val).lastCross = x ∧ (portOf t n.val).misses = 0 ∧ x ≤ now t) ∧
      ((spState s n.val = 6 ∨ spState s n.val = 7) → crossed (portOf s n.val) = true → (portOf s n.val).times ≠ [] →
        ∃ t, exec (.commutation n) s = .next t ∧
          rd t (portBase n.val) SP_MEAS_STEP = (rd s (portBase n.val) SP_MEAS_STEP + 1) % 6) ∧
      ((spState s n.val = 6 ∨ spState s n.val = 7) → crossed (portOf s n.val) = false → (portOf s n.val).times ≠ [] →
        (portOf s n.val).misses + 1 < rd s (portBase n.val) SP_COMM_MISS_MAX →
        ∃ t, exec (.missedCrossing n) s = .next t ∧ (portOf t n.val).misses = (portOf s n.val).misses + 1 ∧
          rd t (portBase n.val) SP_COUNTS_C_MISSED_ZC = satInc 0xFFFF (rd s (portBase n.val) SP_COUNTS_C_MISSED_ZC) % 2 ^ 16) ∧
      ((spState s n.val = 6 ∨ spState s n.val = 7) → crossed (portOf s n.val) = false → (portOf s n.val).times ≠ [] →
        rd s (portBase n.val) SP_COMM_MISS_MAX ≤ (portOf s n.val).misses + 1 → (portOf s n.val).lostPend = false →
        ∃ t, exec (.missedCrossing n) s = .next t ∧ spState t n.val = 8 ∧ rd t (portBase n.val) SP_STATUS_LOST_SEEN = 1) ∧
      (((3 ≤ spState s n.val ∧ spState s n.val ≤ 7) ∨ spState s n.val = 9) → (portOf s n.val).ocRun < 1000 →
        ∃ t, exec (.overcurrent n) s = .next t ∧ rd t (portBase n.val) SP_STATUS_OVERCURRENT = 1 ∧
          rd t (portBase n.val) SP_COUNTS_C_OVERCURRENTS = satInc 0xFFFF (rd s (portBase n.val) SP_COUNTS_C_OVERCURRENTS) % 2 ^ 16) ∧
      (∀ r : Rotor, spState s n.val = 2 →
        (atRest s n.val r.emfMv = true →
          ∃ t, exec (.startMeasurementEnd n r) s = .next t ∧ spState t n.val = 4 ∧ rd t (portBase n.val) SP_MEAS_STEP = 5) ∧
        (atRest s n.val r.emfMv = false → turning r = some true → catchMin s n.val ≤ r.rpm → r.rpm * 100 ≤ 105 * idRpmMax s n.val →
          ∃ t, exec (.startMeasurementEnd n r) s = .next t ∧ spState t n.val = 6 ∧
            rd t (portBase n.val) SP_MEAS_STEP = stepOf r.phase.val r.rising) ∧
        (atRest s n.val r.emfMv = false → turning r = some false → catchMin s n.val ≤ r.rpm →
          ∃ t, exec (.startMeasurementEnd n r) s = .next t ∧ spState t n.val = 3 ∧ (portOf t n.val).brake = .plug)) ∧
      (spState s n.val = 4 → rd s (portBase n.val) SP_MEAS_STEP = 5 →
        ∃ t, exec (.alignStep n) s = .next t ∧ spState t n.val = 4 ∧ rd t (portBase n.val) SP_MEAS_STEP = 0) ∧
      (spState s n.val = 4 → rd s (portBase n.val) SP_MEAS_STEP ≠ 5 →
        ∃ t, exec (.alignStep n) s = .next t ∧ spState t n.val = 5 ∧ rd t (portBase n.val) SP_MEAS_STEP = 1) ∧
      (spState s n.val = 5 → (portOf s n.val).lostPend = false → (portOf s n.val).fails + 1 < rd s (portBase n.val) SP_RETRY_START_TRIES →
        ∃ t, exec (.openTmo n) s = .next t ∧ spState t n.val = 10 ∧ rd t (portBase n.val) SP_STATUS_START_FAIL = 1 ∧
          (portOf t n.val).grant = 0 ∧ (portOf t n.val).reserved = (portOf s n.val).reserved) ∧
      (spState s n.val = 10 → ∃ t, exec (.retryWaitEnd n) s = .next t ∧ spState t n.val = 1 ∧
        t.sluice.fresh = s.sluice.fresh.filter (fun m => decide (m ≠ n.val)) ++ [n.val]) ∧
      (spState s n.val = 8 → ∃ t, exec (.lostWatchEnd n) s = .next t ∧ spState t n.val = 9 ∧
        (actOf t (actU n.val)).gates.fly = true ∧ (actOf t (actL n.val)).gates.fly = true) ∧
      (spState s n.val = 9 → (portOf s n.val).brake = .coast →
        ∃ t, exec (.spinDownBrake n) s = .next t ∧ spState t n.val = 9 ∧ (portOf t n.val).brake = .short)) ∧
    (s.pwr.failing = true →
      ∀ r c, (c = .commutation n ∨ c = .missedCrossing n ∨ c = .overcurrent n ∨ c = .startMeasurementEnd n r ∨ c = .alignStep n ∨
        c = .openTmo n ∨ c = .retryWaitEnd n ∨ c = .lostWatchEnd n ∨ c = .spinDownBrake n) → ∃ t, exec c s = .next t ∧ t.ports = s.ports) ∧
    (spState s n.val = 7 → ∃ t, exec (.runOver n) s = .next t ∧ rd t (portBase n.val) SP_STATUS_RUN_OVER = 1)

/-- SP_SPEED, SP_COMM, SP_CTL and SLUICE_PLAN writes and SLUICE_EVALUATION complete, with the fields and the queue that they
leave (R161, R163, R176, R177, R178, R179). Where a clause rests on a choice of the model and not on a rule, the choice is
that of notes/assumptions/25.md. -/
def Obligations.SpindleAndSluiceRegisters : Prop :=
  ∀ (s : State),
    (∀ (n : PortId) p (v : Word), forbidden p (portBase n.val + 0x604) = false → accessLive s p (portBase n.val + 0x604) = true →
      ((portOf s n.val).window = none →
        ∃ t, exec (.spSpeedSet p n v) s = .next t ∧ rd t (portBase n.val) SP_SPEED_SET = v.toNat % 2 ^ 13) ∧
      (∀ lo hi, (portOf s n.val).window = some (lo, hi) → lo ≤ v.toNat % 2 ^ 13 → v.toNat % 2 ^ 13 ≤ hi →
        ∃ t, exec (.spSpeedSet p n v) s = .next t ∧ rd t (portBase n.val) SP_SPEED_SET = v.toNat % 2 ^ 13) ∧
      (∀ lo hi, (portOf s n.val).window = some (lo, hi) → (v.toNat % 2 ^ 13 < lo ∨ hi < v.toNat % 2 ^ 13) →
        ∃ t, exec (.spSpeedSet p n v) s = .next t ∧ rd t (portBase n.val) SP_SPEED_SET = rd s (portBase n.val) SP_SPEED_SET ∧
          rd t (portBase n.val) SP_STATUS_SET_REFUSED = 1)) ∧
    (∀ (n : PortId) p (v : Word), forbidden p (portBase n.val + 0x620) = false → accessLive s p (portBase n.val + 0x620) = true →
      32 + clampTo 0 16 (v.toNat % 32) ≤ clampTo 2 24 (v.toNat / 2 ^ 16 % 32) + clampTo 4 24 (v.toNat / 2 ^ 8 % 32) →
      ∃ t, exec (.spCommWrite p n v) s = .next t ∧
        rd t (portBase n.val) SP_COMM_ADVANCE = rd s (portBase n.val) SP_COMM_ADVANCE ∧
        rd t (portBase n.val) SP_COMM_BLANK = rd s (portBase n.val) SP_COMM_BLANK) ∧
    (∀ (n : PortId) p (v : Word), forbidden p (portBase n.val + 0x620) = false → accessLive s p (portBase n.val + 0x620) = true →
      commBad v.toNat = false →
      ∃ t, exec (.spCommWrite p n v) s = .next t ∧ rd t (portBase n.val) SP_COMM_ADVANCE = clampTo 0 16 (v.toNat % 32) ∧
        rd t (portBase n.val) SP_COMM_ZC_WIN = clampTo 4 24 (v.toNat / 2 ^ 8 % 32) ∧
        rd t (portBase n.val) SP_COMM_BLANK = clampTo 2 24 (v.toNat / 2 ^ 16 % 32)) ∧
    (∀ (n : PortId) p (v : Word), forbidden p (portBase n.val + 0x600) = false → accessLive s p (portBase n.val + 0x600) = true →
      flag s (portBase n.val) SP_CTL_RUN = false → bitOf v.toNat 0 = true → spState s n.val = 0 → (portOf s n.val).deferStop = false →
      bitOf (rd s slB SLUICE_PLAN_HOLD) n.val = false → portState s n.val = 4 → n.val ∉ s.sluice.queue ++ s.sluice.fresh →
      (unitOf s (fbPort n.val) 0).inFault = false → windowEmpty s n.val = false →
      ∃ t, exec (.spCtlRun p n v) s = .next t ∧ spState t n.val = 1 ∧ t.sluice.fresh = s.sluice.fresh ++ [n.val]) ∧
    (∀ (n : PortId) p (v : Word), forbidden p (portBase n.val + 0x600) = false → accessLive s p (portBase n.val + 0x600) = true →
      flag s (portBase n.val) SP_CTL_RUN = true → bitOf v.toNat 0 = false → spState s n.val = 1 →
      ∃ t, exec (.spCtlRun p n v) s = .next t ∧ spState t n.val = 0 ∧ n.val ∉ t.sluice.queue ++ t.sluice.fresh) ∧
    (∀ p (v : Word), forbidden p 0x4000C = false → accessLive s p 0x4000C = true →
      ∃ t, exec (.sluicePlanWrite p v) s = .next t ∧ rd t slB SLUICE_PLAN_HOLD = v.toNat % 2 ^ 24) ∧
    (∀ m, live s .motion = true → s.pwr.gap = false →
      ∃ t, exec (.sluiceEvaluation m) s = .next t ∧ t.sluice.evals = s.sluice.evals + 1 ∧ t.sluice.fresh = [] ∧
        ((s.pwr.charged = false ∨ s.pwr.failing = true ∨ s.cfg.running = []) →
          t.sluice.queue = s.sluice.queue ++ sortPorts s.sluice.fresh ∧ t.sluice.active = s.sluice.active) ∧
        (s.pwr.charged = true → s.pwr.failing = false → s.cfg.running ≠ [] → s.sluice.active = [] →
          rd t slB SLUICE_POWER_OTHER = min 4095 (inputPower m / 100)))

/-- ZERO_CROSSING, ALIGN_STEP, SPIN_DOWN_BRAKE, RUN_OVER and SP_COMM_WRITE keep the listed parts and every register outside their
port's block (R163, R173, R175, R181). -/
def Obligations.SpindleFrame : Prop :=
  ∀ (s t : State) (n : PortId) (c : Instr),
    ((∃ x, c = .zeroCrossing n x) ∨ c = .alignStep n ∨ c = .spinDownBrake n ∨ c = .runOver n ∨ (∃ p v, c = .spCommWrite p n v)) →
    exec c s = .next t →
    kept (butFor svcParts [.ports, .loops]) s t ∧
    keptRegs (fun x l => inRange (portBase n.val) 0x1000 x l || inRange 0x3FC00 0x400 x l || decide (x = 0x30034)) s t

/-- The ten microword commands complete at a ready sequencer whose present word is legal and of their kind, with the microword,
the mode and the item they lead to (R185, R186, R187, R188, R192, R201). Where a clause rests on a choice of the model and
not on a rule, the choice is that of notes/assumptions/26.md. -/
def Obligations.MicrowordFlow : Prop :=
  ∀ (s : State) (a : ActId),
    (live s .core = true → seqReady s a.val = true → microLegal s a.val (pcOf s a.val) (microWord s a.val (pcOf s a.val)) = true → wordRow (microWord s a.val (pcOf s a.val)) = 0 →
      moverFull s a.val (nanoWord s a.val (bitsOf (microWord s a.val (pcOf s a.val)) 13 9)) = false → inRegion (pcOf s a.val) = false →
      (bitsOf (nanoWord s a.val (bitsOf (microWord s a.val (pcOf s a.val)) 13 9)) 13 4 = 2 → modeWritten s a.val % 4 ≠ 3) →
      ∃ t, exec (.nano a none) s = .next t ∧
        (bitOf (nanoWord s a.val (bitsOf (microWord s a.val (pcOf s a.val)) 13 9)) 46 = true → pcOf t a.val = 0) ∧
        (bitOf (nanoWord s a.val (bitsOf (microWord s a.val (pcOf s a.val)) 13 9)) 46 = false → pcOf t a.val = nextPc (pcOf s a.val) ∧
          (bitOf (nanoWord s a.val (bitsOf (microWord s a.val (pcOf s a.val)) 13 9)) 56 = true →
            rd t (actBase a.val) AS_LOOP_COUNTER = bitsOf (nanoWord s a.val (bitsOf (microWord s a.val (pcOf s a.val)) 13 9)) 64 16))) ∧
    (live s .core = true → seqReady s a.val = true → microLegal s a.val (pcOf s a.val) (microWord s a.val (pcOf s a.val)) = true → wordRow (microWord s a.val (pcOf s a.val)) = 1 →
      ∃ t, exec (.jump a) s = .next t ∧ pcOf t a.val = (if branchTaken s a.val (microWord s a.val (pcOf s a.val))
        then wTarget (microWord s a.val (pcOf s a.val)) else nextPc (pcOf s a.val))) ∧
    (live s .core = true → seqReady s a.val = true → microLegal s a.val (pcOf s a.val) (microWord s a.val (pcOf s a.val)) = true → wordRow (microWord s a.val (pcOf s a.val)) = 2 →
      branchTaken s a.val (microWord s a.val (pcOf s a.val)) = true → (actOf s a.val).stack.length < 8 →
      wTarget (microWord s a.val (pcOf s a.val)) ≠ 0 →
      ∃ t, exec (.call a) s = .next t ∧ pcOf t a.val = wTarget (microWord s a.val (pcOf s a.val)) ∧
        (actOf t a.val).stack = nextPc (pcOf s a.val) :: (actOf s a.val).stack) ∧
    (∀ r rest, live s .core = true → seqReady s a.val = true → microLegal s a.val (pcOf s a.val) (microWord s a.val (pcOf s a.val)) = true → wordRow (microWord s a.val (pcOf s a.val)) = 3 →
      branchTaken s a.val (microWord s a.val (pcOf s a.val)) = true → (actOf s a.val).stack = r :: rest → r ≠ 0 → r < 8192 →
      ∃ t, exec (.return_ a) s = .next t ∧ pcOf t a.val = r ∧ (actOf t a.val).stack = rest) ∧
    (live s .core = true → seqReady s a.val = true → microLegal s a.val (pcOf s a.val) (microWord s a.val (pcOf s a.val)) = true → wordRow (microWord s a.val (pcOf s a.val)) = 4 →
      ∃ t, exec (.loop a) s = .next t ∧ rd t (actBase a.val) AS_LOOP_COUNTER = (rd s (actBase a.val) AS_LOOP_COUNTER + 65535) % 65536 ∧
        pcOf t a.val = (if (rd s (actBase a.val) AS_LOOP_COUNTER + 65535) % 65536 ≠ 0
          then wTarget (microWord s a.val (pcOf s a.val)) else nextPc (pcOf s a.val))) ∧
    (live s .core = true → seqReady s a.val = true → microLegal s a.val (pcOf s a.val) (microWord s a.val (pcOf s a.val)) = true → wordRow (microWord s a.val (pcOf s a.val)) = 5 →
      cond s a.val none (wCond (microWord s a.val (pcOf s a.val))) = wSense (microWord s a.val (pcOf s a.val)) →
      wCond (microWord s a.val (pcOf s a.val)) ≠ 4 → wCond (microWord s a.val (pcOf s a.val)) ≠ 5 →
      ∃ t, exec (.wait a) s = .next t ∧ pcOf t a.val = nextPc (pcOf s a.val)) ∧
    (live s .core = true → seqReady s a.val = true → microLegal s a.val (pcOf s a.val) (microWord s a.val (pcOf s a.val)) = true → wordRow (microWord s a.val (pcOf s a.val)) = 5 →
      cond s a.val none (wCond (microWord s a.val (pcOf s a.val))) ≠ wSense (microWord s a.val (pcOf s a.val)) →
      ∃ t, exec (.wait a) s = .next t ∧ (actOf t a.val).wait.isSome = true ∧ flag t (actBase a.val) AS_STATUS_WAITING = true ∧
        pcOf t a.val = pcOf s a.val) ∧
    (live s .core = true → seqReady s a.val = true → microLegal s a.val (pcOf s a.val) (microWord s a.val (pcOf s a.val)) = true → wordRow (microWord s a.val (pcOf s a.val)) = 6 →
      ∃ t, exec (.noOperation a) s = .next t ∧ pcOf t a.val = nextPc (pcOf s a.val)) ∧
    (live s .core = true → seqReady s a.val = true → microLegal s a.val (pcOf s a.val) (microWord s a.val (pcOf s a.val)) = true → wordRow (microWord s a.val (pcOf s a.val)) = 7 →
      ∃ t, exec (.halt a) s = .next t ∧ rd t (actBase a.val) AS_STATUS_MODE = 0 ∧ pcOf t a.val = pcOf s a.val) ∧
    (live s .core = true → seqReady s a.val = true → microLegal s a.val (pcOf s a.val) (microWord s a.val (pcOf s a.val)) = true → wordRow (microWord s a.val (pcOf s a.val)) = 8 →
      ∃ t, exec (.enterHorizontalMode a) s = .next t ∧ rd t (actBase a.val) AS_STATUS_MODE = 2 ∧
        rd t (actBase a.val) AS_PC_HORIZ_PC = bitsOf (microWord s a.val (pcOf s a.val)) 0 10) ∧
    (∀ i rest, live s .core = true → seqReady s a.val = true → microLegal s a.val (pcOf s a.val) (microWord s a.val (pcOf s a.val)) = true → wordRow (microWord s a.val (pcOf s a.val)) = 9 →
      (actOf s a.val).work = i :: rest → (actOf s a.val).cur = none → i.entry ≤ 63 → 1 ≤ i.count → i.count ≤ 256 →
      ∃ t, exec (.fetch a) s = .next t ∧ (actOf t a.val).cur = some i ∧ pcOf t a.val = i.entry ∧
        ((actOf s a.val).backlog = [] → (actOf t a.val).work = rest))

/-- Waits, horizontal words, the gate's return, the end of a run and WRITE_SLOT complete, with the word, the gate and the write
pointer they leave (R189, R192, R195, R202, R207). Where a clause rests on a choice of the model and not on a rule, the
choice is that of notes/assumptions/26.md. -/
def Obligations.SequencerWaitsAndRuns : Prop :=
  ∀ (s : State) (a : ActId),
    (∀ w, live s .core = true → (actOf s a.val).wait = some w → w.horiz = none → waitMet s a.val w = true → now s < w.until_ →
      flag s (actBase a.val) AS_CTL_RUN = true →
      ∃ t, exec (.waitConditionMet a) s = .next t ∧ (actOf t a.val).wait = none ∧ pcOf t a.val = nextPc (pcOf s a.val)) ∧
    (∀ w k l, live s .core = true → (actOf s a.val).wait = some w → w.horiz = some (k, l) → waitMet s a.val w = true → now s < w.until_ →
      ∃ t, exec (.waitConditionMet a) s = .next t ∧ (actOf t a.val).wait = none ∧ rd t (actBase a.val) AS_PC_HORIZ_PC = k % 2 ^ 10) ∧
    (∀ w k l, live s .core = true → (actOf s a.val).wait = some w → w.horiz = some (k, l) → waitMet s a.val w = false →
      ∃ t, exec (.waitTimeout a) s = .next t ∧ (actOf t a.val).wait = none ∧ rd t (actBase a.val) AS_PC_HORIZ_PC = l % 2 ^ 10 ∧ w.until_ ≤ now t) ∧
    (∀ w, live s .core = true → (actOf s a.val).wait = some w → w.horiz = none → waitMet s a.val w = false →
      flag s (actBase a.val) AS_CTL_RUN = true → (actOf s a.val).stack.length < 8 → w.handler ≠ 0 → w.handler < 8192 →
      ∃ t, exec (.waitTimeout a) s = .next t ∧ (actOf t a.val).wait = none ∧ pcOf t a.val = w.handler ∧
        rd t (actBase a.val) AS_STATUS_TIMEOUT = 1 ∧ w.until_ ≤ now t) ∧
    (live s .core = true → rd s (actBase a.val) AS_STATUS_MODE = 2 → (actOf s a.val).wait = none → stoppedByReset s a.val = false →
      horizLegal (horizWord s a.val (rd s (actBase a.val) AS_PC_HORIZ_PC)) = true →
      bitOf (horizWord s a.val (rd s (actBase a.val) AS_PC_HORIZ_PC)) 29 = false →
      bitsOf (horizWord s a.val (rd s (actBase a.val) AS_PC_HORIZ_PC)) 17 2 = 0 →
      ∃ t, exec (.horizontalWord a none) s = .next t ∧ rd t (actBase a.val) AS_STATUS_MODE = 2 ∧
        rd t (actBase a.val) AS_PC_HORIZ_PC = bitsOf (horizWord s a.val (rd s (actBase a.val) AS_PC_HORIZ_PC)) 0 10) ∧
    (live s .motion = true → (actOf s a.val).wgReq = true → gateOk s a.val = true →
      ∃ t, exec (.writeGateReturn a) s = .next t ∧ flag t (actBase a.val) AS_STATUS_GRANTED = true) ∧
    (∀ r, live s .core = true → (actOf s a.val).run = some r → runComplete r = true → r.op = 2 →
      ∃ t, exec (.sectorRunComplete a) s = .next t ∧ (actOf t a.val).writing = false) ∧
    (∀ i r, live s .core = true → (actOf s a.val).cur = some i → (actOf s a.val).run = some r → r.op = 2 → r.issued < r.count →
      r.test = false → r.advance = true → flag s (actBase a.val) AS_STATUS_GRANTED = true → (ledEntry s a.val i.reach).state = 1 →
      0 < (ledEntry s a.val i.reach).wp → (ledEntry s a.val i.reach).wp + 1 < lastSlot →
      (codewordReady s a.val = true →
        ∃ t, exec (.writeSlot a) s = .next t ∧ (actOf t a.val).writing = true ∧
          (ledEntry t a.val i.reach).wp = (ledEntry s a.val i.reach).wp + 1) ∧
      (codewordReady s a.val = false →
        ∃ t, exec (.writeSlot a) s = .next t ∧ (actOf t a.val).writing = false ∧
          (ledEntry t a.val i.reach).wp = (ledEntry s a.val i.reach).wp))

/-- AS_WORK_GO, AS_WITHDRAW, AS_CTL.RUN, TEST and RECOVER, a read of AS_DONE, ARM and DISARM complete, with the queue, the mode
and the bits they leave (R183, R184, R190, R199, R202, R203). Where a clause rests on a choice of the model and not on a
rule, the choice is that of notes/assumptions/26.md. -/
def Obligations.SequencerRegisters : Prop :=
  ∀ (s : State) (p : Path) (a : ActId),
    (forbidden p (actBase a.val + 0x660) = false → accessLive s p (actBase a.val + 0x660) = true → ownsWork p = true →
      (actOf s a.val).work.length < 16 →
      ∃ t, exec (.asWorkGo p a) s = .next t ∧ (actOf t a.val).work = (actOf s a.val).work ++ [workItem s p a.val]) ∧
    (∀ (v : Word) i, forbidden p (actBase a.val + 0x668) = false → accessLive s p (actBase a.val + 0x668) = true →
      (actOf s a.val).work.find? (fun i => decide (i.tag = v.toNat % 65536)) = some i →
      (actOf s a.val).backlog = [] →
      ∃ t, exec (.asWithdraw p a v) s = .next t ∧ (actOf t a.val).work = (actOf s a.val).work.erase i) ∧
    (forbidden p (actBase a.val + 0x600) = false → accessLive s p (actBase a.val + 0x600) = true →
      (∀ on, ∃ t, exec (.asCtlRun p a on) s = .next t ∧ flag t (actBase a.val) AS_CTL_RUN = on) ∧
      (rd s (actBase a.val) AS_STATUS_MODE = 1 → pcOf s a.val = 0 → (actOf s a.val).work = [] →
        ∃ t, exec (.asCtlTest p a) s = .next t ∧ rd t (actBase a.val) AS_STATUS_MODE = 2 ∧ rd t (actBase a.val) AS_PC_HORIZ_PC = 4) ∧
      ((unitOf s (fbAct a.val) 0).inFault = false → underReset s 1 a.val = false →
        ∃ t, exec (.asCtlRecover p a) s = .next t ∧ rd t (actBase a.val) AS_STATUS_MODE = 2 ∧
          rd t (actBase a.val) AS_PC_HORIZ_PC = 2 ∧ (actOf t a.val).work = [])) ∧
    (∀ tag st rest, readLive s p = true → (actOf s a.val).doneQ = (tag, st) :: rest → (actOf s a.val).postQ = [] →
      ∃ t, exec (.asDoneRead p a) s = .next t ∧ (actOf t a.val).doneQ = rest ∧
        sent (.value p (actBase a.val + 0x664) (BitVec.ofNat 32 (tag + st * 2 ^ 16 + 2 ^ 24))) s t) ∧
    (forbidden p (actBase a.val + 0x670) = false → accessLive s p (actBase a.val + 0x670) = true →
      (∃ t, exec (.asCustArm p a) s = .next t ∧
        ((crc32c (regionBytes s a.val) = rd s (actBase a.val) AS_CUST_CRC_EXPECT ∧
            (List.range 2048).all (fun i => regionLegal s a.val (6144 + i) (microWord s a.val (6144 + i))) = true →
          rd t (actBase a.val) AS_CUST_ARMED = 1) ∧
         ((crc32c (regionBytes s a.val) ≠ rd s (actBase a.val) AS_CUST_CRC_EXPECT ∨
            (List.range 2048).all (fun i => regionLegal s a.val (6144 + i) (microWord s a.val (6144 + i))) = false) →
          rd t (actBase a.val) AS_CUST_ARM_FAILED = 1 ∧ rd t (actBase a.val) AS_CUST_ARMED = rd s (actBase a.val) AS_CUST_ARMED))) ∧
      ((actOf s a.val).cur = none →
        ∃ t, exec (.asCustDisarm p a) s = .next t ∧ rd t (actBase a.val) AS_CUST_ARMED = 0))

/-- Nine sequencer commands keep every part of svcParts but the actuators and the ledger, and three of them every register
outside their actuator's block (R183, R190, R192, R195, R199). -/
def Obligations.SequencerFrame : Prop :=
  ∀ (s t : State) (a : ActId) (p : Path) (c : Instr),
    ((c = .writeGateReturn a ∨ c = .waitConditionMet a ∨ c = .asWorkGo p a ∨ c = .asCtlTest p a ∨ c = .asCtlRecover p a ∨
      (∃ on, c = .asCtlRun p a on) ∨ c = .asDoneRead p a ∨ c = .asCustArm p a ∨ c = .asCustDisarm p a) → exec c s = .next t →
      kept (butFor svcParts [.acts, .led]) s t) ∧
    ((c = .asWorkGo p a ∨ c = .asCustArm p a ∨ c = .asCustDisarm p a) → exec c s = .next t →
      kept (butFor svcParts [.acts]) s t ∧ keptRegs (fun x l => inRange (actBase a.val) 0x1000 x l || inRange 0x3FC00 0x400 x l) s t)

/-- LEDGER_OPEN, LEDGER_CLOSE, LEDGER_REOPEN and LEDGER_RETIRE complete with their RESULT, and with the reach's new entry where
they are judged done (R215, R217, R225). Where a clause rests on a choice of the model and not on a rule, the choice is that
of notes/assumptions/27.md. -/
def Obligations.LedgerCommands : Prop :=
  ∀ (s : State) (p : Path) (r : ReachId) src, forbidden p 0x160010 = false → accessLive s p 0x160010 = true → ledgerSource p = some src →
    (ledgerJudge s 1 r.act.val r.reach = 0 →
      ∃ t, exec (.ledgerOpen p r) s = .next t ∧ (ledEntry t r.act.val r.reach).state = 1 ∧ (ledEntry t r.act.val r.reach).wp = 0 ∧
        (ledEntry t r.act.val r.reach).gen = ((ledEntry s r.act.val r.reach).gen + 1) % 256 ∧
        (ledEntry t r.act.val r.reach).flags = 0 ∧ journalOf t r.act.val r.reach = [] ∧ copyGet t p 0x160014 = 4) ∧
    (ledgerJudge s 2 r.act.val r.reach = 0 → journalOf s r.act.val r.reach = [] → (ledEntry s r.act.val r.reach).wp < lastSlot →
      ∃ t, exec (.ledgerClose p r) s = .next t ∧
        (ledEntry t r.act.val r.reach).state = (if bitOf (ledEntry s r.act.val r.reach).flags fRetiring then 4 else 2) ∧
        (ledEntry t r.act.val r.reach).wp = (if (ledEntry s r.act.val r.reach).wp = 0 then 2 else (ledEntry s r.act.val r.reach).wp + 1) ∧
        copyGet t p 0x160014 = 4) ∧
    (ledgerJudge s 3 r.act.val r.reach = 0 →
      ∃ t, exec (.ledgerReopen p r) s = .next t ∧ (ledEntry t r.act.val r.reach).state = 1 ∧ (ledEntry t r.act.val r.reach).wp = 0 ∧
        (ledEntry t r.act.val r.reach).gen = ((ledEntry s r.act.val r.reach).gen + 1) % 256 ∧
        (ledEntry t r.act.val r.reach).flags = 0 ∧ journalOf t r.act.val r.reach = [] ∧ copyGet t p 0x160014 = 4) ∧
    (ledgerJudge s 4 r.act.val r.reach = 0 →
      ∃ t, exec (.ledgerRetire p r) s = .next t ∧ (ledEntry t r.act.val r.reach).state = 1 ∧ (ledEntry t r.act.val r.reach).wp = 0 ∧
        (ledEntry t r.act.val r.reach).gen = ((ledEntry s r.act.val r.reach).gen + 1) % 256 ∧ journalOf t r.act.val r.reach = [] ∧
        bitOf (ledEntry t r.act.val r.reach).flags fRetiring = true ∧ copyGet t p 0x160014 = 4) ∧
    (∀ op c, ((op = 1 ∧ c = .ledgerOpen p r) ∨ (op = 2 ∧ c = .ledgerClose p r) ∨ (op = 3 ∧ c = .ledgerReopen p r) ∨ (op = 4 ∧ c = .ledgerRetire p r)) →
      ledgerJudge s op r.act.val r.reach ≠ 0 →
      ∃ t, exec c s = .next t ∧ t.led = s.led ∧ copyGet t p 0x160014 = ledgerJudge s op r.act.val r.reach + 4)

/-- The day tick, journal age, mirror, inventory, entry writes and defect windows complete, with the entries, the journal and the
counts they leave (R212, R218, R221, R222, R223, R225). Where a clause rests on a choice of the model and not on a rule, the
choice is that of notes/assumptions/27.md. -/
def Obligations.LedgerUpkeep : Prop :=
  ∀ (s : State),
    (live s .core = true → flag s ledB LEDGER_CTL_AGE_EN = true → tsorted s.led.entries = true →
      ∃ t, exec .dayTick s = .next t ∧
        (∀ a r, r < 10240 → ages (ledEntry s a r) = true →
          (ledEntry t a r).days = min 0xFFFF ((ledEntry s a r).days + 1) ∨ (ledEntry t a r).days = 0) ∧
        ((∀ b, b < 48 → (actOf s b).cur.isSome = true) →
          ∀ a r, r < 10240 → ages (ledEntry s a r) = true → (ledEntry t a r).days = min 0xFFFF ((ledEntry s a r).days + 1))) ∧
    (∀ (r : ReachId) j rest, live s .core = true → journalOf s r.act.val r.reach = j :: rest → (ledEntry s r.act.val r.reach).state = 1 →
      (ledEntry s r.act.val r.reach).wp < lastSlot →
      ∃ t, exec (.journalAge r) s = .next t ∧ journalOf t r.act.val r.reach = (j :: rest).drop 63 ∧
        (ledEntry t r.act.val r.reach).wp = (if (ledEntry s r.act.val r.reach).wp = 0 then 2 else (ledEntry s r.act.val r.reach).wp + 1)) ∧
    (live s .core = true → flag s rsvB RSV_STATUS_OUT_OF_SERVICE = false →
      ∃ t, exec .ledgerMirror s = .next t ∧ t.led.mirror.led = s.led.entries ∧ t.led.mirror.defects = s.led.defects ∧
        rd t ledB LEDGER_STATUS_MIRROR_BEHIND = 0) ∧
    (∀ p (v : Word), forbidden p 0x160000 = false → accessLive s p 0x160000 = true → bitOf v.toNat 1 = true →
      bitsOf v.toNat 8 5 < 24 → portState s (bitsOf v.toNat 8 5) = 4 →
      ∃ t, exec (.ledgerInventory p v) s = .next t ∧ bitOf (rd t ledB LEDGER_STATUS_INV_BUSY) (bitsOf v.toNat 8 5) = true) ∧
    (∀ (n : PortId) found foreign, live s .core = true → bitOf (rd s ledB LEDGER_STATUS_INV_BUSY) n.val = true →
      rd s ledB LEDGER_STATUS_INV_BUSY < 2 ^ 24 →
      ∃ t, exec (.inventoryEnd n found foreign) s = .next t ∧ bitOf (rd t ledB LEDGER_STATUS_INV_BUSY) n.val = false ∧
        tfind t.led.invSerial n.val = some (idSerial s n.val)) ∧
    (∀ p (a : ActId) r (v : Word), r < 10240 → forbidden p (0x40000008 + 16 * (a.val * 10240 + r)) = false →
      accessLive s p (0x40000008 + 16 * (a.val * 10240 + r)) = true →
      ∃ t, exec (.ledgerEntryWrite p (0x40000008 + 16 * (a.val * 10240 + r)) v none) s = .next t ∧
        (ledEntry t a.val r).profile = v.toNat / 2 ^ 8 % 256 ∧ (ledEntry t a.val r).days = v.toNat / 2 ^ 16 % 65536 ∧
        (ledEntry t a.val r).wp = (ledEntry s a.val r).wp ∧ (ledEntry t a.val r).state = (ledEntry s a.val r).state ∧
        (ledEntry t a.val r).gen = (ledEntry s a.val r).gen) ∧
    (∀ p, forbidden p 0x16008C = false → accessLive s p 0x16008C = true → defectNow s ∉ s.led.defects → s.led.defects.length < 16383 →
      ∃ t, exec (.defectWindowAdd p) s = .next t ∧ defectNow s ∈ t.led.defects ∧ t.led.defects.length = s.led.defects.length + 1 ∧
        rd t ledB LEDGER_DEF_STATUS_WINDOWS = s.led.defects.length + 1) ∧
    (∀ p, forbidden p 0x16008C = false → accessLive s p 0x16008C = true → defectNow s ∈ s.led.defects →
      ∃ t, exec (.defectWindowRemove p) s = .next t ∧ t.led.defects = s.led.defects.erase (defectNow s))

/-- The four LEDGER_CMD commands, LEDGER_MIRROR, LEDGER_INVENTORY and the two defect window commands keep the listed parts,
registers and reaches (R215, R221, R223, R225). -/
def Obligations.LedgerFrame : Prop :=
  ∀ (s t : State) (p : Path) (r : ReachId) (c : Instr),
    ((c = .ledgerOpen p r ∨ c = .ledgerClose p r ∨ c = .ledgerReopen p r ∨ c = .ledgerRetire p r) → r.reach < 10240 → exec c s = .next t →
      kept (butFor svcParts [.copies, .acts, .led]) s t ∧
      (∀ a r', r' < 10240 → (a, r') ≠ (r.act.val, r.reach) → ledEntry t a r' = ledEntry s a r' ∧ journalOf t a r' = journalOf s a r') ∧
      keptRegs (fun x l => inRange 0x160000 0x10000 x l || inRange 0x3FC00 0x400 x l || inRange (actBase r.act.val) 0x1000 x l) s t) ∧
    ((c = .ledgerMirror ∨ (∃ v, c = .ledgerInventory p v)) → exec c s = .next t →
      kept (butFor svcParts [.led]) s t ∧ keptRegs (fun x l => inRange 0x160000 0x10000 x l || inRange 0x3FC00 0x400 x l) s t) ∧
    ((c = .defectWindowAdd p ∨ c = .defectWindowRemove p) → exec c s = .next t →
      kept (butFor svcParts [.acts, .led]) s t ∧
      keptRegs (fun x l => inRange 0x160000 0x10000 x l || inRange 0x3FC00 0x400 x l || inRange 0x100000 0x30000 x l) s t)

/-- SR_CLASS_WRITE, READ_AROUND_DEADLINE, START_LIMIT, STRIPE_ENGINE_JOB_END, REBUILD_MEMBER_DONE and STRIPE_AUDIT complete, with
the fields and lists they leave (R226, R232, R234, R235, R241, R243). Where a clause rests on a choice of the model and not
on a rule, the choice is that of notes/assumptions/29.md. -/
def Obligations.StripesAndRepair : Prop :=
  ∀ (s : State),
    (∀ p (q : Fin 4) (v : Word), forbidden p (classAddr q.val true) = false → accessLive s p (classAddr q.val true) = true →
      ∃ t, exec (.srClassWrite p q true v) s = .next t ∧ rd t srB (SR_CLASS_4_HDAS.ix q.val) = v.toNat % 2 ^ 24) ∧
    (∀ p (q : Fin 4) (v : Word), forbidden p (classAddr q.val false) = false → accessLive s p (classAddr q.val false) = true →
      classBad s q.val v.toNat = false →
      ∃ t, exec (.srClassWrite p q false v) s = .next t ∧ rd t srB (SR_CLASS_0_K.ix q.val) = v.toNat % 32 ∧
        rd t srB (SR_CLASS_0_M.ix q.val) = v.toNat / 2 ^ 8 % 8 ∧ rd t srB (SR_CLASS_0_WMIN.ix q.val) = v.toNat / 2 ^ 12 % 8 ∧
        flag t srB (SR_CLASS_0_VALID.ix q.val) = bitOf v.toNat 31) ∧
    (∀ p (q : Fin 4) (v : Word), forbidden p (classAddr q.val false) = false → accessLive s p (classAddr q.val false) = true →
      classBad s q.val v.toNat = true →
      ∃ t, exec (.srClassWrite p q false v) s = .next t ∧
        ∀ f ∈ [SR_CLASS_0_K, SR_CLASS_0_M, SR_CLASS_0_WMIN, SR_CLASS_0_VALID], rd t srB (f.ix q.val) = rd s srB (f.ix q.val)) ∧
    (∀ tag stripe m i f, live s .core = true → fetchOf s tag = some f → isAsked f (f.obj * 2 ^ 24 + stripe) m i = true →
      isBad f (f.obj * 2 ^ 24 + stripe) m i = false → isGood s f (f.obj * 2 ^ 24 + stripe) m i = false →
      flag s srB SR_RA_ENABLE = true →
      ∀ c d, memberPlace s (f.obj * 2 ^ 24 + stripe) m = some c → sectorDeadline s tag c i = some d →
      ∃ t, exec (.readAroundDeadline tag stripe m i) s = .next t ∧ d ≤ now t ∧
        ∀ g, fetchOf t tag = some g → g.bad = f.bad ++ [(f.obj * 2 ^ 24 + stripe, m, i)]) ∧
    (∀ tag stripe m f x, live s .core = true → fetchOf s tag = some f → flag s srB SR_RA_ENABLE = true →
      f.asked.find? (fun y => decide (y.sid = f.obj * 2 ^ 24 + stripe ∧ y.member = m)) = some x →
      sampledAny s f (f.obj * 2 ^ 24 + stripe) m = false →
      ∃ t, exec (.startLimit tag stripe m) s = .next t ∧ x.since + msecs (rd s srB SR_RA_START_MS) ≤ now t ∧ ∀ g, fetchOf t tag = some g →
        ∀ i, i < 256 → x.first ≤ i → isGood s f (f.obj * 2 ^ 24 + stripe) m i = false →
          isBad g (f.obj * 2 ^ 24 + stripe) m i = true) ∧
    (∀ (e : Fin 2) j, live s .core = true → tfind s.str.running e.val = some j → s.str.jobs = [] →
      ∃ t, exec (.stripeEngineJobEnd e) s = .next t ∧ tfind t.str.running e.val = none) ∧
    (∀ sid m x, live s .core = true → s.str.missing.find? (fun x => decide (x.1 = sid ∧ x.2.1 = m)) = some x → stillHeld s x = true →
      rebuildable s x = true → enginesOut s = false → portState s x.2.2 = 4 →
      ((writeMember sid m x.2.2 s).isSome = true →
        ∃ t, exec (.rebuildMemberDone sid m) s = .next t ∧ (∀ y ∈ t.str.missing, ¬ (y.1 = sid ∧ y.2.1 = m)) ∧
          rd t srB SR_COUNTS_B_STRIPES_REBUILT = satInc 0xFFFF (rd s srB SR_COUNTS_B_STRIPES_REBUILT) % 2 ^ 16) ∧
      (writeMember sid m x.2.2 s = none →
        ∃ t, exec (.rebuildMemberDone sid m) s = .next t ∧ x ∈ t.str.debt)) ∧
    (∀ read n first, live s .core = true → flag s srB SR_AUDIT_ENABLE = true → rd s srB SR_REBUILD_STATUS_PORTS = 0 → enginesOut s = false →
      lanesOut s = false → auditNext s = some (n, first) → ∃ t, exec (.stripeAudit read) s = .next t ∧ t.str.auditPos = n)

/-- SR_CLASS_WRITE, READ_AROUND_DEADLINE and START_LIMIT keep the listed parts, and SR_CLASS_WRITE the registers outside the
stripe block (R226, R234, R235). -/
def Obligations.StripeFrame : Prop :=
  ∀ (s t : State) (c : Instr),
    (((∃ p q h v, c = .srClassWrite p q h v) ∨ (∃ x y z w, c = .readAroundDeadline x y z w) ∨ (∃ x y z, c = .startLimit x y z)) →
      exec c s = .next t → kept (butFor svcParts [.acts, .str, .free]) s t) ∧
    ((∃ p q h v, c = .srClassWrite p q h v) → exec c s = .next t →
      kept svcParts s t ∧ keptRegs (fun x l => inRange 0x150000 0x10000 x l || inRange 0x3FC00 0x400 x l) s t)

/-- Pool accesses, the patrol scrub, the error log and the directory's events complete, with the answer, the counts and the
segment states they leave (R246, R247, R248, R249, R251, R253, R255, R256). Where a clause rests on a choice of the model and
not on a rule, the choice is that of notes/assumptions/8.md, notes/assumptions/32.md. -/
def Obligations.PoolAndDirectory : Prop :=
  ∀ (s : State),
    (∀ acc : PoolAcc, live s .core = true → flag s poolB POOL_STATUS_READY = true → acc.write = true → acc.enable % 65536 = 65535 →
      acc.reached = acc.addr → acc.data.length = 16 →
      ∃ t, exec (.poolAccess acc) s = .next t ∧ sent (.pool acc.addr (poolLane acc.addr) (some [])) s t ∧
        poolBytes t (acc.addr / 16 * 16) 16 = acc.data ∧ tget 0 t.pool.poison (acc.addr / 16) = 0) ∧
    (∀ acc : PoolAcc, live s .core = true → flag s poolB POOL_STATUS_READY = true → acc.write = false → acc.flips = [] →
      acc.reached = acc.addr → tget 0 s.pool.poison (acc.addr / 16) = 0 →
      ∃ t, exec (.poolAccess acc) s = .next t ∧
        sent (.pool acc.addr (poolLane acc.addr) (some (poolBytes s (acc.addr / 16 * 16) 16))) s t ∧ kept svcParts s t) ∧
    (∀ (acc : PoolAcc) i, live s .core = true → flag s poolB POOL_STATUS_READY = true → acc.write = false → acc.flips = [i] → i < 144 →
      acc.reached = acc.addr → tget 0 s.pool.poison (acc.addr / 16) = 0 →
      ∃ t, exec (.poolAccess acc) s = .next t ∧
        sent (.pool acc.addr (poolLane acc.addr) (some (poolBytes s (acc.addr / 16 * 16) 16))) s t ∧
        flag t poolB POOL_STATUS_CE_SEEN = true ∧
        rd t poolB POOL_ERR_COUNTS_CE = satInc 0xFFFF (rd s poolB POOL_ERR_COUNTS_CE) % 2 ^ 16) ∧
    (∀ acc : PoolAcc, live s .core = true → flag s poolB POOL_STATUS_READY = true → acc.write = false → acc.flips = [] →
      acc.reached = acc.addr → tget 0 s.pool.poison (acc.addr / 16) ≠ 0 → acc.addr < segAddr 0 →
      ∃ t, exec (.poolAccess acc) s = .next t ∧ sent (.pool acc.addr (poolLane acc.addr) none) s t ∧
        flag t poolB POOL_STATUS_UE_SEEN = true ∧
        rd t poolB POOL_ERR_COUNTS_UE = satInc 0xFFFF (rd s poolB POOL_ERR_COUNTS_UE) % 2 ^ 16) ∧
    (∀ upTo k syn, live s .core = true → flag s poolB POOL_STATUS_READY = true → flag s poolB POOL_CTL_SCRUB_EN = true →
      s.pool.poison = [(k, syn)] → syn ≠ 0 → k * 16 < segAddr 0 → s.pool.scrubPos ≤ k * 16 → k * 16 < upTo →
      ∃ t, exec (.patrolScrub upTo []) s = .next t ∧ flag t poolB POOL_STATUS_UE_SEEN = true ∧
        rd t poolB POOL_ERR_COUNTS_UE = satInc 0xFFFF (rd s poolB POOL_ERR_COUNTS_UE) % 2 ^ 16 ∧
        t.pool.scrubPos = if 2 ^ 36 ≤ upTo then 0 else upTo) ∧
    (∀ upTo addr i, live s .core = true → flag s poolB POOL_STATUS_READY = true → flag s poolB POOL_CTL_SCRUB_EN = true →
      s.pool.poison = [] → i < 144 → s.pool.scrubPos ≤ addr → addr < upTo → addr < 2 ^ 36 →
      ∃ t, exec (.patrolScrub upTo [(addr, [i])]) s = .next t ∧ flag t poolB POOL_STATUS_CE_SEEN = true ∧
        (∀ x, poolByte t x = poolByte s x) ∧ t.pool.poison = [] ∧
        rd t poolB POOL_ERR_COUNTS_CE = satInc 0xFFFF (rd s poolB POOL_ERR_COUNTS_CE) % 2 ^ 16 ∧
        t.pool.scrubPos = if 2 ^ 36 ≤ upTo then 0 else upTo) ∧
    (∀ p, forbidden p 0x170004 = false → accessLive s p 0x170004 = true → rd s poolB POOL_CTL_SCRUB_EN < 2 →
      rd s poolB POOL_CTL_SCRUB_HOURS < 256 →
      ∃ t, exec (.poolLogClear p) s = .next t ∧ rd t poolB POOL_STATUS_LOG_USED = 0 ∧
        ∀ i, i < 32 → flag t poolB (POOL_LOG_4_VALID.ix i) = false) ∧
    (∀ (k : SegId) g, live s .core = true → tfind s.pool.segs k = some g → g.state = .draining → g.wasDirty = true → s.pool.waiting = [] →
      (rsvUp s = true → rd s 0x19FC00 FLT_REACT_ACTION = 0 →
        ∃ t, exec (.drainEnd k) s = .next t ∧ tfind t.pool.segs k = some { g with state := .staged }) ∧
      (rsvUp s = false →
        ∃ t, exec (.drainEnd k) s = .next t ∧ tfind t.pool.segs k = some { g with state := .dirty, wasDirty := false })) ∧
    (∀ (k : SegId) g, live s .core = true → tfind s.pool.segs k = some g → g.state = .draining → g.wasDirty = false → s.pool.waiting = [] →
      rd s 0x19FC00 FLT_REACT_ACTION = 0 →
      ∃ t, exec (.drainEnd k) s = .next t ∧ tfind t.pool.segs k = none) ∧
    (∀ (k : SegId) g, live s .core = true → tfind s.pool.segs k = some g → g.state = .filling → s.pool.waiting = [] →
      (∀ b, servedCell s (cellKey (segPlace g)) = some b →
        ∃ t, exec (.fillEnd k) s = .next t ∧ tfind t.pool.segs k = some { g with state := .clean } ∧
          poolBytes t (segAddr k) b.length = b) ∧
      (∀ f sid m, servedCell s (cellKey (segPlace g)) = none → f ∈ s.str.fetches → (sid, m) ∈ f.need →
        memberPlace s sid m = some (segPlace g) → memberDone s f sid m = true →
        ∃ t, exec (.fillEnd k) s = .next t ∧ tfind t.pool.segs k = some { g with state := .clean }) ∧
      (servedCell s (cellKey (segPlace g)) = none → s.str.fetches = [] →
        ∃ t, exec (.fillEnd k) s = .next t ∧ tfind t.pool.segs k = none)) ∧
    (∀ (k : SegId) g, live s .core = true → tfind s.pool.segs k = some g → newCell g = true → s.pool.waiting = [] → s.obj.unadmitted = [] →
      ∃ t, exec (.destageVerified k) s = .next t ∧
        tfind t.pool.segs k = if seqOn s g.act then none else some { g with state := .clean, wasDirty := false }) ∧
    (∀ a : ActId, live s .core = true → seqOn s a.val = true →
      ∃ t, exec (.sequentialDetectorOff a) s = .next t ∧ seqOn t a.val = false ∧ (tget seqDet0 s.pool.dets a.val).at_ + secs 1 ≤ now t)

/-- The mover rows (MV_GO to MOVER_REQUEST_END, MV_RATE_WRITE, POOL_DIR_RATE_WRITE) complete, with the queues, the bytes and the
fields they leave (R261, R262, R263, R265). Where a clause rests on a choice of the model and not on a rule, the choice is
that of notes/assumptions/32.md, notes/assumptions/33.md. -/
def Obligations.MoverRequests : Prop :=
  ∀ (s : State),
    (∀ p (c : ChanId), forbidden p (moverBase c.val + 0x18) = false → accessLive s p (moverBase c.val + 0x18) = true →
      (chanOf s c.val).reqs.length < 5 → mvRefused (mvRequest s c.val) = false → (unitOf s 0x18FC00 c.val).inFault = false →
      underReset s 6 c.val = false →
      ∃ t, exec (.mvGo p c) s = .next t ∧ (chanOf t c.val).reqs = (chanOf s c.val).reqs ++ [mvRequest s c.val] ∧
        flag t (moverBase c.val) MV_STATUS_RUNNING = true) ∧
    (∀ p (c : ChanId), forbidden p (moverBase c.val + 0x18) = false → accessLive s p (moverBase c.val + 0x18) = true →
      (5 ≤ (chanOf s c.val).reqs.length ∨ mvRefused (mvRequest s c.val) = true) →
      ∃ t, exec (.mvGo p c) s = .next t ∧ t.mov = s.mov ∧ rd t (moverBase c.val) MV_STATUS_LAST = 3 ∧
        flag t (moverBase c.val) MV_STATUS_REFUSED_SEEN = true) ∧
    (∀ p (c : ChanId), forbidden p (moverBase c.val + 0x18) = false → accessLive s p (moverBase c.val + 0x18) = true →
      (chanOf s c.val).reqs.length < 5 → mvRefused (mvRequest s c.val) = false → (unitOf s 0x18FC00 c.val).inFault = true →
      ∃ t, exec (.mvGo p c) s = .next t ∧ t.mov = s.mov ∧ rd t (moverBase c.val) MV_STATUS_LAST = 1 ∧
        flag t (moverBase c.val) MV_STATUS_ERROR = true) ∧
    (∀ p (c : ChanId) r rest, forbidden p (moverBase c.val + 0x18) = false → accessLive s p (moverBase c.val + 0x18) = true →
      (chanOf s c.val).reqs = r :: rest →
      ∃ t, exec (.mvWithdraw p c) s = .next t ∧ (chanOf t c.val).reqs = rest ∧
        rd t (moverBase c.val) MV_STATUS_LAST = (if r.err.isSome then 1 else if r.left = 0 then 0 else 2) ∧
        flag t (moverBase c.val) MV_STATUS_DONE = true) ∧
    (∀ ready bytes c r rest, live s .core = true → grantChoice s (ready.map Fin.val) = some c → (chanOf s c).reqs = r :: rest →
      r.srcSpace = 0 → r.dstSpace = 0 → poisonedIn s (r.src + (r.count - r.left)) (burstLen r) = none →
      poisonedMerge s (r.dst + (r.count - r.left)) (burstLen r) = none →
      ∃ t, exec (.moverGrant ready bytes) s = .next t ∧ (chanOf t c).reqs = { r with left := r.left - burstLen r } :: rest ∧
        tget 31 t.mov.turns (headPrio s c) = c ∧
        poolBytes t (r.dst + (r.count - r.left)) (burstLen r) = poolBytes s (r.src + (r.count - r.left)) (burstLen r)) ∧
    (∀ ready bytes, live s .core = true → grantChoice s (ready.map Fin.val) = none →
      ∃ t, exec (.moverGrant ready bytes) s = .next t ∧ t.mov = s.mov ∧ t.pool = s.pool) ∧
    (∀ (c : ChanId) beat r rest first, live s .core = true → (chanOf s c.val).reqs = r :: rest → r.err = none →
      first = (if r.dstSpace = 0 then r.dst / 64 * 64 else r.dst) → first + 64 * beat < r.dst + (r.count - r.left) →
      ∃ t, exec (.beatError c beat) s = .next t ∧ (chanOf t c.val).reqs = { r with err := some (first + 64 * beat) } :: rest ∧
        rd t (moverBase c.val) MV_ERR_LO_ADDR_LO = (first + 64 * beat) % 2 ^ 32 ∧
        (r.dstSpace ≠ 0 → t.pool = s.pool) ∧
        ∀ x, (x < r.dst ∨ r.dst + r.count ≤ x ∨ x < first + 64 * beat ∨ first + 64 * beat + 64 ≤ x) → poolByte t x = poolByte s x) ∧
    (∀ (c : ChanId) r rest, live s .core = true → (chanOf s c.val).reqs = r :: rest → r.err = none → r.left = 0 →
      ∃ t, exec (.moverRequestEnd c) s = .next t ∧ (chanOf t c.val).reqs = rest ∧ rd t (moverBase c.val) MV_STATUS_LAST = 0 ∧
        flag t (moverBase c.val) MV_STATUS_DONE = true) ∧
    (∀ (c : ChanId) r rest, live s .core = true → (chanOf s c.val).reqs = r :: rest → r.err.isSome = true →
      ∃ t, exec (.moverRequestEnd c) s = .next t ∧ (chanOf t c.val).reqs = rest ∧ rd t (moverBase c.val) MV_STATUS_LAST = 1 ∧
        flag t (moverBase c.val) MV_STATUS_ERROR = true) ∧
    (∀ p (c : ChanId) (v : Word), forbidden p (moverBase c.val + 0x28) = false → accessLive s p (moverBase c.val + 0x28) = true →
      ∃ t, exec (.mvRateWrite p c v) s = .next t ∧ rd t (moverBase c.val) MV_RATE_SHARE =
        if dirHeld s c.val || rebuildHeld s c.val then rd s (moverBase c.val) MV_RATE_SHARE else v.toNat % 256) ∧
    (∀ p (v : Word), forbidden p 0x170040 = false → accessLive s p 0x170040 = true → rd s poolB POOL_DIR_CTL_MOVER < 32 →
      ∃ t, exec (.poolDirRateWrite p v) s = .next t ∧ rd t poolB POOL_DIR_RATE_SHARE = max 1 (v.toNat % 256) ∧
        rd t poolB POOL_DIR_RATE_DEPTH = max 1 (v.toNat / 256 % 16) ∧
        rd t (moverBase (rd s poolB POOL_DIR_CTL_MOVER)) MV_RATE_SHARE = max 1 (v.toNat % 256))

/-- The Reservoir's rows, from BAND_CLOSE to STAGING_LOW with THROTTLE_END and RESERVOIR_READY, complete, with the bands, maps
and status bits they leave (R270, R274, R275, R277, R279, R280, R282, R285). Where a clause rests on a choice of the model
and not on a rule, the choice is that of notes/assumptions/34.md, notes/assumptions/45.md. -/
def Obligations.ReservoirCommands : Prop :=
  ∀ (s : State),
    (∀ k b, live s .core = true → tfind s.rsv.bands k = some b → b.isOpen = true → b.next = bandCap b → rsvTakes s = true → s.rsv.gc = none →
      ∃ t, exec (.bandClose k []) s = .next t ∧
        tfind t.rsv.bands k = some { b with isOpen := false, verified := true, parity := false } ∧ t.rsv.unprogrammed = [] ∧
        ∀ e ∈ t.rsv.parity, e.1 / 4096 ≠ k) ∧
    (∀ u e x rest, live s .core = true → rsvServes s = true → tfind s.rsv.map u = some e → 1 ≤ rd s rsvB RSV_READ_RETRY_STEPS →
      ∃ t, exec (.tuRead u (none :: some x :: rest)) s = .next t ∧
        rd t rsvB RSV_COUNTS_A_RETRIES_OK = satInc 0xFFFF (rd s rsvB RSV_COUNTS_A_RETRIES_OK) % 2 ^ 16 ∧
        (tget blkEntry0 t.rsv.blocks (entryBlock e)).hint = threshold s (tget blkEntry0 s.rsv.blocks (entryBlock e)) 1) ∧
    (∀ k b bits lost, live s .core = true → rsvTakes s = true → s.rsv.gc = none → s.rsv.freeBands < rd s rsvB RSV_CTL_GC_LOW →
      gcVictim s = some (k, b) → rd s 0x19FC00 FLT_REACT_ACTION = 0 →
      ∃ t, exec (.garbageCollection bits lost) s = .next t ∧ flag t rsvB RSV_STATUS_GC_ACTIVE = true ∧
        t.rsv.gc.map (fun g => g.victim) = some k) ∧
    (∀ g b, live s .core = true → rsvUp s = true → s.rsv.gc = some g → tfind s.rsv.bands g.victim = some b →
      ∃ t, exec (.gcErase []) s = .next t ∧ t.rsv.gc = none ∧ t.rsv.freeBands = s.rsv.freeBands + 1 ∧ tfind t.rsv.bands g.victim = none) ∧
    (∀ x e, live s .core = true → s.rsv.bands.find? (fun e => e.2.isOpen && e.2.blocks.contains x) = some e →
      ∃ t, exec (.programFail x) s = .next t ∧ flag t rsvB RSV_EVENTS_PROGRAM_FAIL = true ∧ (tget blkEntry0 t.rsv.blocks x).retired = true) ∧
    (∀ p u k, (p = .bursar ∨ ∃ n, p = .teller n) → accessLive s p 0x19006C = true →
      u = copyGet s p 0x190060 + bitsOf (copyGet s p 0x190064) 0 4 * 2 ^ 32 → tuPartition u = some k →
      ∃ t, exec (.rsvDiscardGo p) s = .next t ∧ ∀ x, x ∈ t.rsv.discards ↔ x ∈ s.rsv.discards ∨
        (u ≤ x ∧ x < min (u + copyGet s p 0x190068) (partitionEnd k) ∧ ∃ e, (x, e) ∈ s.rsv.map)) ∧
    (∀ readable unreadable, live s .core = true → flag s rsvB RSV_STATUS_READY = true → flag s rsvB RSV_STATUS_OUT_OF_SERVICE = false →
      rd s 0x19FC00 FLT_REACT_ACTION = 0 →
      ∃ t, exec (.reservoirLeavesService .journal readable unreadable) s = .next t ∧ flag t rsvB RSV_STATUS_OUT_OF_SERVICE = true ∧
        flag t rsvB RSV_STATUS_READY = false ∧ flag t rsvB RSV_STATUS_READ_ONLY = readable) ∧
    (∀ d readable unreadable, live s .core = true → dieFailed s d.val = false → rd s 0x19FC00 FLT_REACT_ACTION = 0 →
      ∃ t, exec (.reservoirLeavesService (.die d) readable unreadable) s = .next t ∧ d.val ∈ t.rsv.deadDies ∧
        flag t rsvB RSV_EVENTS_DIE_LOST = true) ∧
    (∀ (die : Fin 64) (c : Int), live s .core = true → (rd s rsvB RSV_READ_THROTTLE_C : Int) ≤ c →
      ∃ t, exec (.throttle die c) s = .next t ∧ tfind t.rsv.dieTemps die.val = some c ∧ flag t rsvB RSV_STATUS_THROTTLED = true) ∧
    (live s .core = true → flag s rsvB RSV_STATUS_THROTTLED = true →
      ∃ t, exec .throttleEnd s = .next t ∧ flag t rsvB RSV_STATUS_THROTTLED = false ∧
        ∀ e ∈ t.rsv.dieTemps, e.2 ≤ (rd s rsvB RSV_READ_THROTTLE_C : Int) - 5) ∧
    (live s .core = true → s.obj.unadmitted = [] → ∃ t, exec .stagingLow s = .next t ∧ t.rsv.stageFree = s.rsv.stageFree ∧
      rd t rsvB RSV_SPACE_STAGE_FREE_GIB = min 65535 (s.rsv.stageFree / 1024) ∧
      (s.rsv.stageFree / 1024 < rd s rsvB RSV_PACE_STAGE_PACE_GIB → flag t rsvB RSV_STATUS_STAGING_LOW = true) ∧
      (rd s rsvB RSV_PACE_STAGE_PACE_GIB ≤ s.rsv.stageFree / 1024 → rd s rsvB RSV_PACE_STAGE_RESUME_GIB ≤ s.rsv.stageFree / 1024 →
        flag t rsvB RSV_STATUS_STAGING_LOW = false)) ∧
    (live s .core = true → flag s rsvB RSV_STATUS_READY = false → underReset s 8 0 = false → s.obj.unadmitted = [] →
      ∃ t, exec (.reservoirReady true) s = .next t ∧ flag t rsvB RSV_STATUS_READY = true ∧ flag t rsvB RSV_STATUS_OUT_OF_SERVICE = false) ∧
    (live s .core = true → flag s rsvB RSV_STATUS_READY = false → underReset s 8 0 = false → service s = 0 →
      rd s 0x19FC00 FLT_REACT_ACTION = 0 →
      ∃ t, exec (.reservoirReady false) s = .next t ∧ flag t rsvB RSV_STATUS_OUT_OF_SERVICE = true ∧
        flag t rsvB RSV_STATUS_READ_ONLY = false ∧ flag t ledB LEDGER_STATUS_REBUILDING = true)

/-- The directory's, movers' and Reservoir's commands named here keep the listed parts and registers (R253, R256, R261, R265,
R277, R279). -/
def Obligations.PoolMoverReservoirFrame : Prop :=
  ∀ (s t : State) (c : Instr), exec c s = .next t →
    (((∃ p, c = .poolLogClear p) ∨ (∃ a, c = .sequentialDetectorOff a) ∨ (∃ p x v, c = .mvRateWrite p x v) ∨ (∃ p v, c = .poolDirRateWrite p v)) →
      kept (butFor svcParts [.pool, .mov]) s t ∧ t.pool.mem = s.pool.mem ∧ t.pool.segs = s.pool.segs ∧
      keptRegs (fun x l => inRange 0x170000 0x20000 x l || inRange 0x3FC00 0x400 x l || atAddr 0x30034 x l) s t) ∧
    (((∃ p x, c = .mvGo p x) ∨ (∃ p x, c = .mvWithdraw p x) ∨ (∃ x, c = .moverRequestEnd x)) →
      kept (butFor svcParts [.mov, .acts]) s t ∧ keptRegs (fun x l => inRange 0x180000 0x10000 x l || inRange 0x3FC00 0x400 x l) s t) ∧
    ((∃ x b, c = .beatError x b) →
      kept (butFor svcParts [.mov, .pool, .free]) s t ∧ t.pool.segs = s.pool.segs ∧ keptRegs (inRange 0x180000 0x10000) s t) ∧
    ((∃ k, c = .destageVerified k) → s.obj.unadmitted = [] →
      kept (butFor svcParts [.pool, .rsv, .free]) s t ∧ keptRegs (fun x l => inRange 0x170000 0x30000 x l || atAddr 0x30034 x l) s t) ∧
    ((∃ k, c = .drainEnd k) → rd s 0x19FC00 FLT_REACT_ACTION = 0 → flag s 0x19FC00 FLT_REACT_ALIVE_STOP = false →
      kept (butFor svcParts [.pool, .rsv, .free, .flt]) s t ∧ keptRegs (fun x l => inRange 0x170000 0x30000 x l || atAddr 0x30034 x l) s t) ∧
    (((∃ l, c = .gcErase l) ∨ (∃ b, c = .programFail b) ∨ (∃ d x, c = .throttle d x) ∨ c = .throttleEnd) →
      kept (butFor svcParts [.rsv, .free]) s t ∧ keptRegs (inRange 0x190000 0x10000) s t) ∧
    (c = .stagingLow → s.obj.unadmitted = [] →
      kept (butFor svcParts [.rsv, .free]) s t ∧ keptRegs (inRange 0x190000 0x10000) s t)

/-- CONNECT, DISCONNECT, the ends of queues and associations, enabling, NSSR, the activation's end and a discovery page complete,
with the state they leave (R287, R288, R289, R290, R313, R314, R315, R316, R320). Where a clause rests on a choice of the
model and not on a rule, the choice is that of notes/assumptions/35.md. -/
def Obligations.ConnectionsAndControllers : Prop :=
  ∀ (s : State), live s .core = true →
    (∀ c nqn q depth kato, flag s (hostBase c.port.val) HP_LINK_UP = true → s.pwr.failing = false → s.obj.activating = none →
      connections s c.port.val < 130 → q ≠ discQid →
      (connectStatus s c.port.val nqn q depth ≠ 0 → ∃ t, exec (.connect c nqn q depth kato) s = .next t ∧
        (ctrlOf t c.port.val).errCount = (ctrlOf s c.port.val).errCount + 1 ∧ (ctrlOf t c.port.val).queues = (ctrlOf s c.port.val).queues) ∧
      (connectStatus s c.port.val nqn q depth = 0 → ∃ t, exec (.connect c nqn q depth kato) s = .next t ∧
        sent (.cqe c 0 false (c.port.val + 1) 0) s t ∧
        (q = 0 → (ctrlOf t c.port.val).hostNqn = some nqn ∧ (ctrlOf t c.port.val).kato = katoOf kato ∧
          flag t (hostBase c.port.val) HP_CONN_ADMIN = true) ∧
        (q ≠ 0 → (ctrlOf t c.port.val).queues = (ctrlOf s c.port.val).queues ++ [(q, depth)]))) ∧
    (∀ c nqn depth kato, flag s (hostBase c.port.val) HP_LINK_UP = true → s.pwr.failing = false → s.obj.activating = none →
      connections s c.port.val < 130 → service s ≠ 0 → service s ≠ 4 →
      ∃ t, exec (.connect c nqn discQid depth kato) s = .next t ∧ (ctrlOf t c.port.val).discovery = (ctrlOf s c.port.val).discovery + 1) ∧
    (∀ c lsp rae offset len, fetched s c = true → c.qid = discQid →
      ∃ t, exec (.getLogPage c 0x70 lsp rae offset len) s = .next t ∧ sent (.cqe c 0 false 0 0) s t ∧
        ∃ bytes, bytes.length = len ∧ sent (.data c bytes) s t) ∧
    (∀ c, fetched s c = true → c.qid ≠ 0 → c.qid ≠ discQid → ∃ t, exec (.disconnect c) s = .next t ∧ sent (.cqe c 0 false 0 0) s t ∧
      (ctrlOf t c.port.val).queues = (ctrlOf s c.port.val).queues.filter (fun e => decide (e.1 ≠ c.qid))) ∧
    (∀ (h : HostId) q, q ≠ 0 → q ≠ discQid → (∃ d, (q, d) ∈ (ctrlOf s h.val).queues) → ∃ t, exec (.queueReset h q) s = .next t ∧
      (ctrlOf t h.val).queues = (ctrlOf s h.val).queues.filter (fun e => decide (e.1 ≠ q)) ∧
      (ctrlOf t h.val).quiescing = (q, now s + msecs 10) :: (ctrlOf s h.val).quiescing) ∧
    (∀ (h : HostId) q, ∃ t, exec (.headerDigestFailure h q) s = .next t ∧
      rd t (hostBase h.val) HP_ERRS_DIGEST_ERRS = satInc 0xFFFF (rd s (hostBase h.val) HP_ERRS_DIGEST_ERRS) % 2 ^ 16 ∧
      (q = 0 → flag s (hostBase h.val) HP_CONN_ADMIN = true → (ctrlOf t h.val).hostNqn = none)) ∧
    (∀ c, fetched s c = true → ∃ t, exec (.dataDigestFailure c) s = .next t ∧ sent (.cqe c 4 false 0 0) s t ∧
      rd t (hostBase c.port.val) HP_ERRS_DIGEST_ERRS = satInc 0xFFFF (rd s (hostBase c.port.val) HP_ERRS_DIGEST_ERRS) % 2 ^ 16) ∧
    (∀ h : HostId, flag s (hostBase h.val) HP_CONN_ADMIN = true → (ctrlOf s h.val).kato ≠ 0 →
      ∃ t, exec (.keepAliveExpiry h) s = .next t ∧ (ctrlOf t h.val).queues = [] ∧ flag t (hostBase h.val) HP_CONN_ENABLED = false ∧
        (ctrlOf s h.val).lastAlive + msecs (ctrlOf s h.val).kato ≤ now t) ∧
    (∀ c, fetched s c = true → c.qid = 0 →
      (flag s (hostBase c.port.val) HP_CONN_ENABLED = false → ∃ t, exec (.controllerEnable c) s = .next t ∧ sent (.cqe c 0 false 0 0) s t ∧
        flag t (hostBase c.port.val) HP_CONN_ENABLED = true ∧ (ctrlOf t c.port.val).ioqMax = rd s qeB QE_CTL_IOQ_MAX) ∧
      (flag s (hostBase c.port.val) HP_CONN_ENABLED = true → ∃ t, exec (.controllerDisable c) s = .next t ∧ sent (.cqe c 0 false 0 0) s t ∧
        flag t (hostBase c.port.val) HP_CONN_ENABLED = false ∧ (ctrlOf t c.port.val).queues = []) ∧
      (∃ t, exec (.nvmSubsystemReset c 0x4E564D65) s = .next t ∧ t.rst.asserted = some .warm ∧ rd t rstB RST_STATUS_LAST_CAUSE = 4) ∧
      (∀ v : Word, v ≠ 0x4E564D65 → ∃ t, exec (.nvmSubsystemReset c v) s = .next t ∧ sent (.cqe c 0 false 0 0) s t ∧ t.rst.asserted = none)) ∧
    (∀ x till, s.obj.activating = some (x, till) → s.pwr.failing = false → rd s 0x19FC00 FLT_REACT_ACTION = 0 →
      (let s1 := copyAll (if draining s then reach till s else s)
       s1.obj.undo.all (fun u => commitDurable s1 u) = true) → ∃ t, exec .activationDrainEnd s = .next t ∧
      t.rst.asserted = some .warm ∧ rd t rstB RST_STATUS_LAST_CAUSE = 8 ∧ t.obj.durable = max s.obj.durable s.obj.commit)

/-- Properties, log pages, IDENTIFY, ABORT, GET_FEATURES, event requests and firmware download and commit complete, with the data
and the status they give (R286, R292, R294, R295, R315, R317, R417, R422). Where a clause rests on a choice of the model and
not on a rule, the choice is that of notes/assumptions/35.md, notes/assumptions/36.md, notes/assumptions/41.md. -/
def Obligations.AdminCommands : Prop :=
  ∀ (s : State) (c : Sqe), live s .core = true → fetched s c = true → c.qid = 0 →
    (∃ t, exec (.propertyGet c 8) s = .next t ∧ sent (.cqe c 0 false 0x20000 0) s t) ∧
    (∀ lsp rae offset len, ∃ t, exec (.getLogPage c 1 lsp rae offset len) s = .next t ∧ sent (.cqe c 0 false 0 0) s t ∧
      ∃ bytes, bytes.length = len ∧ sent (.data c bytes) s t) ∧
    (∀ lsp rae offset len, ∃ t, exec (.getLogPage c 4 lsp rae offset len) s = .next t ∧
      (ctrlOf t c.port.val).errCount = (ctrlOf s c.port.val).errCount + 1) ∧
    (∀ csi nsid, ∃ t, exec (.identify c 1 csi nsid) s = .next t ∧ sent (.cqe c 0 false 0 0) s t ∧
      ∃ bytes, bytes.length = 4096 ∧ sent (.data c bytes) s t) ∧
    (∀ csi nsid, ∃ t, exec (.identify c 4 csi nsid) s = .next t ∧ (ctrlOf t c.port.val).errCount = (ctrlOf s c.port.val).errCount + 1) ∧
    (∀ q i, ∃ t, exec (.abort c q i) s = .next t ∧ sent (.cqe c 0 false 1 0) s t) ∧
    (∃ t, exec (.getFeatures c 0xF) s = .next t ∧ sent (.cqe c 0 false (ctrlOf s c.port.val).kato 0) s t) ∧
    ((ctrlOf s c.port.val).events = [] → (ctrlOf s c.port.val).aers.length < 4 → serviceTrue s = true →
      ∃ t, exec (.asynchronousEventRequest c) s = .next t ∧ (ctrlOf t c.port.val).aers = (ctrlOf s c.port.val).aers ++ [c] ∧ t.out = s.out) ∧
    (∀ ty info page rest, (ctrlOf s c.port.val).events = (ty, info, page) :: rest →
      ∃ t, exec (.asynchronousEventRequest c) s = .next t ∧ sent (.event c ty info page) s t) ∧
    (∀ ofst data, ofst % 4096 = 0 → (ofst = 0 ∨ ofst = s.obj.fwBuf.length) → ofst + data.length ≤ 2 ^ 24 →
      ∃ t, exec (.firmwareImageDownload c ofst data) s = .next t ∧ sent (.cqe c 0 false 0 0) s t ∧
        t.obj.fwBuf = (if ofst = 0 then [] else s.obj.fwBuf) ++ data) ∧
    (∀ f i, (i = 1 ∨ i = 2) → s.cfg.flash = some f → (fwSlot f i).pass = true → slotValue f.fw1 < 2 ^ 20 → slotValue f.fw2 < 2 ^ 20 →
      service s ≠ 0 → service s ≠ 4 → ∃ t, exec (.firmwareCommit c 2 i) s = .next t ∧ sent (.cqe c 0 false 0 0) s t ∧ rd t burB BUR_FW_NEXT_SLOT = i)

/-- The SET_ commands of the features, but the Timestamp, and KEEP_ALIVE complete, with what they set (R289, R292, R294). Where a
clause rests on a choice of the model and not on a rule, the choice is that of notes/assumptions/35.md. -/
def Obligations.FeatureCommands : Prop :=
  ∀ (s : State) (c : Sqe), live s .core = true → fetched s c = true → c.qid = 0 →
    (∃ t, exec (.setPowerManagement c false 0) s = .next t ∧ sent (.cqe c 0 false 0 0) s t) ∧
    (∀ ps, ps ≠ 0 → ∃ t, exec (.setPowerManagement c false ps) s = .next t ∧
      (ctrlOf t c.port.val).errCount = (ctrlOf s c.port.val).errCount + 1) ∧
    (∀ k, ∃ t, exec (.setTemperatureThreshold c false k false) s = .next t ∧ sent (.cqe c 0 false 0 0) s t ∧
      (ctrlOf t c.port.val).tempOver = k % 65536) ∧
    (∃ t, exec (.setVolatileWriteCache c false true) s = .next t ∧ sent (.cqe c 0 false 0 0) s t) ∧
    (∀ a b, ∃ t, exec (.setNumberOfQueues c false a b) s = .next t ∧
      sent (.cqe c 0 false (((ctrlOf s c.port.val).ioqMax - 1) * 65537) 0) s t) ∧
    (∀ v : Word, ∃ t, exec (.setAsyncEventConfiguration c false v) s = .next t ∧ sent (.cqe c 0 false 0 0) s t ∧
      (ctrlOf t c.port.val).asyncCfg = v.toNat) ∧
    (∀ k, ∃ t, exec (.setKeepAliveTimer c false k) s = .next t ∧ sent (.cqe c 0 false 0 0) s t ∧
      (ctrlOf t c.port.val).kato = katoOf k ∧ (ctrlOf t c.port.val).lastAlive = now s) ∧
    (∃ t, exec (.keepAlive c) s = .next t ∧ sent (.cqe c 0 false 0 0) s t ∧ (ctrlOf t c.port.val).lastAlive = now s) ∧
    (∀ k, ∃ t, exec (.setKeepAliveTimer c true k) s = .next t ∧ (ctrlOf t c.port.val).kato = (ctrlOf s c.port.val).kato ∧
      (ctrlOf t c.port.val).errCount = (ctrlOf s c.port.val).errCount + 1)

/-- The admin commands named here, QUEUE_RESET, CONTROLLER_ENABLE and CONTROLLER_DISABLE keep the listed parts and registers, the
index, the objects and the commits (R292, R294, R313, R314, R317). -/
def Obligations.AdminFrame : Prop :=
  ∀ (s t : State) (c : Instr), exec c s = .next t →
    (((∃ x o, c = .propertyGet x o) ∨ (∃ x y z w, c = .identify x y z w) ∨ (∃ x y z, c = .abort x y z) ∨ (∃ x y, c = .getFeatures x y) ∨
      (∃ x y z, c = .setPowerManagement x y z) ∨ (∃ x y z w, c = .setTemperatureThreshold x y z w) ∨ (∃ x y z, c = .setVolatileWriteCache x y z) ∨
      (∃ x y z w, c = .setNumberOfQueues x y z w) ∨ (∃ x y z, c = .setAsyncEventConfiguration x y z) ∨ (∃ x y z, c = .setKeepAliveTimer x y z) ∨
      (∃ x, c = .keepAlive x) ∨ (∃ x, c = .asynchronousEventRequest x) ∨ (∃ x y z, c = .firmwareImageDownload x y z)) →
      kept (butFor svcParts [.free]) s t ∧ keptRegs noReg s t ∧ t.obj.index = s.obj.index ∧ t.obj.objs = s.obj.objs ∧
      t.obj.commit = s.obj.commit ∧ t.obj.durable = s.obj.durable) ∧
    (((∃ h q, c = .queueReset h q) ∨ (∃ x, c = .controllerDisable x) ∨ (∃ x, c = .controllerEnable x)) →
      kept (butFor svcParts [.str]) s t ∧ t.obj.index = s.obj.index ∧ t.obj.objs = s.obj.objs ∧ t.obj.commit = s.obj.commit ∧
      keptRegs (fun x l => inRange 0x1A0000 0x20000 x l) s t)

/-- STORE, APPEND_VALUE, DELETE, EXIST, LIST and AUDIT_OBJECT complete, with the commit, the index entry and the status they
leave (R296, R298, R299, R300, R306, R307, R308, R229). Where a clause rests on a choice of the model and not on a rule, the
choice is that of notes/assumptions/37.md, notes/assumptions/42.md. -/
def Obligations.KeyCommands : Prop :=
  ∀ (s : State) (c : Sqe) (k : KvKey), live s .core = true → fetched s c = true → s.obj.locks = [] → s.obj.waiting = [] → s.obj.unadmitted = [] →
    lanesOut s = false → flag s rsvB RSV_STATUS_STAGING_LOW = false → keyCheck s k = none →
    (∀ value, value.length ≤ 2 ^ 24 → classOpen s k.nsid = true → enginesOut s = false →
      ∃ t, exec (.store c k value ⟨false, false, false⟩) s = .next t ∧
        ((t.obj.commit = s.obj.commit + 1 ∧ idxFind t k.nsid (keyOf k) = some s.obj.nextObj ∧ sent (.cqe c 0 false 0 0) s t) ∨
          (value ≠ [] ∧ t.obj.commit = s.obj.commit ∧ t.obj.index = s.obj.index ∧ sent (.cqe c 0xC2 true 0 0) s t))) ∧
    (∀ value, value.length ≤ 2 ^ 24 → (present s k.nsid (keyOf k)).isSome = true →
      ∃ t, exec (.store c k value ⟨false, true, false⟩) s = .next t ∧ t.obj.commit = s.obj.commit ∧ t.obj.index = s.obj.index ∧
        sent (.cqe c 0x89 true 0 0) s t) ∧
    (∀ data, data ≠ [] → data.length ≤ 2 ^ 24 → present s k.nsid (keyOf k) = none → classOpen s k.nsid = true → enginesOut s = false →
      ∃ t, exec (.appendValue c k true 0 data) s = .next t ∧
        ((t.obj.commit = s.obj.commit + 1 ∧ idxFind t k.nsid (keyOf k) = some s.obj.nextObj ∧ sent (.cqe c 0 false 0 0) s t) ∨
          (t.obj.commit = s.obj.commit ∧ t.obj.index = s.obj.index ∧ sent (.cqe c 0xC2 true 0 0) s t))) ∧
    (∀ data n o offset, data ≠ [] → data.length ≤ 2 ^ 24 → present s k.nsid (keyOf k) = some (n, o) → offset ≠ o.value.length →
      ∃ t, exec (.appendValue c k true offset data) s = .next t ∧ t.obj.commit = s.obj.commit ∧ t.obj.index = s.obj.index ∧
        sent (.cqe c 0xC6 true (o.value.length % 2 ^ 32) (o.value.length / 2 ^ 32)) s t) ∧
    ((present s k.nsid (keyOf k)).isSome = true → ∃ t, exec (.delete c k) s = .next t ∧ t.obj.commit = s.obj.commit + 1 ∧
      idxFind t k.nsid (keyOf k) = none ∧ sent (.cqe c 0 false 0 0) s t) ∧
    (present s k.nsid (keyOf k) = none → ∃ t, exec (.delete c k) s = .next t ∧ t.obj.commit = s.obj.commit ∧ t.obj.index = s.obj.index ∧
      sent (.cqe c 0x87 true 0 0) s t) ∧
    (∃ t, exec (.exist c k) s = .next t ∧
      sent (if (idxFind s k.nsid (keyOf k)).isSome then .cqe c 0 false 0 0 else .cqe c 0x87 true 0 0) s t) ∧
    (∀ buf, ∃ t, exec (.list c k buf) s = .next t ∧ sent (.data c (listData (keysFrom s k.nsid (keyOf k)) buf)) s t ∧
      sent (.cqe c 0 false 0 0) s t) ∧
    (∀ n o x repair, present s k.nsid (keyOf k) = some (n, o) → someHeld s o = false → enginesOut s = false →
      ∃ t, exec (.auditObject c k repair 0 x) s = .next t ∧ sent (.cqe c 0 false (auditResult (auditOf o x) repair) 0) s t)

/-- RETRIEVE completes: bytes of a resident object whose spans match, 0xC0 where one does not, 0x87, 0x02 or 0xC4 for an absent
key, offset past end, damage (R297, R20, R306). Where a clause rests on a choice of the model and not on a rule, the choice
is that of notes/assumptions/37.md. -/
def Obligations.RetrieveSendsVerifiedBytes : Prop :=
  ∀ (s : State) (c : Sqe) (k : KvKey) (offset buf : Nat), live s .core = true → fetched s c = true → s.obj.locks = [] → s.obj.waiting = [] → s.obj.unadmitted = [] →
    lanesOut s = false → flag s rsvB RSV_STATUS_STAGING_LOW = false → keyCheck s k = none →
    (present s k.nsid (keyOf k) = none → ∃ t, exec (.retrieve c k offset buf) s = .next t ∧ sent (.cqe c 0x87 true 0 0) s t ∧ t.obj.locks = []) ∧
    (∀ n o, present s k.nsid (keyOf k) = some (n, o) →
      (o.value.length < offset → ∃ t, exec (.retrieve c k offset buf) s = .next t ∧ t.obj.locks = [] ∧ sent (.cqe c 2 true 0 0) s t) ∧
      (offset ≤ o.value.length → o.damaged = true → ∃ t, exec (.retrieve c k offset buf) s = .next t ∧ t.obj.locks = [] ∧
        sent (.cqe c 0xC4 true 0 0) s t) ∧
      (∀ len, len = min buf (o.value.length - offset) → offset ≤ o.value.length → o.damaged = false → tsorted s.pool.segs = true →
        (cellsOf o (widen o.spans offset (offset + len)).1 (widen o.spans offset (offset + len)).2).all (fun x => cellReady s x.1 x.2) = true →
        ∃ t, exec (.retrieve c k offset buf) s = .next t ∧ t.obj.locks = [] ∧
          (spansMatch s o offset len = true → sent (.data c (objectBytes s o offset len)) s t ∧
            sent (.cqe c 0 false (o.value.length % 2 ^ 32) (o.value.length / 2 ^ 32)) s t) ∧
          (spansMatch s o offset len = false → sent (.cqe c 0xC0 false 0 0) s t)))

/-- FLUSH, FLUSH_COMPLETE, DURABLE_MARK_ADVANCE and LOCK_GRANT complete, with the waiting commands and the mark they leave (R307,
R310, R312). Where a clause rests on a choice of the model and not on a rule, the choice is that of notes/assumptions/37.md. -/
def Obligations.FlushLocksAndDurability : Prop :=
  ∀ (s : State), live s .core = true →
    (∀ c, fetched s c = true → s.obj.rebuilding = false → ∃ t, exec (.flush c 0xFFFFFFFF) s = .next t ∧
      t.obj.flushes = s.obj.flushes ++ [⟨c, 0xFFFFFFFF, s.obj.commit⟩]) ∧
    (∀ c f, s.obj.flushes.find? (fun f => decide (f.cmd = c)) = some f → notDurable s f.ns f.upTo = false →
      ∃ t, exec (.flushComplete c) s = .next t ∧ sent (.cqe c 0 false 0 0) s t ∧ ∀ g ∈ t.obj.flushes, g.cmd ≠ c) ∧
    (∀ c f, s.obj.flushes.find? (fun f => decide (f.cmd = c)) = some f → notDurable s f.ns f.upTo = true →
      ∃ t, exec (.flushComplete c) s = .next t ∧ t.obj.flushes = s.obj.flushes) ∧
    (∀ mark, s.obj.durable < min mark s.obj.commit → s.obj.undo.all (fun u => decide (min mark s.obj.commit < u.num) || commitDurable s u) = true →
      ∃ t, exec (.durableMarkAdvance mark) s = .next t ∧ t.obj.durable = min mark s.obj.commit ∧ t.obj.commit = s.obj.commit ∧
        ∀ u ∈ t.obj.undo, min mark s.obj.commit < u.num) ∧
    (∀ w c k, s.obj.waiting = [w] → w.cmd = .exist c k → s.obj.locks = [] → s.obj.unadmitted = [] →
      ∃ t, exec (.lockGrant w.ticket) s = .next t ∧ t.obj.waiting = [] ∧ t.obj.locks = [] ∧
        sent (if (idxFind s k.nsid (keyOf k)).isSome then .cqe c 0 false 0 0 else .cqe c 0x87 true 0 0) s t)

/-- IMPORT_STREAM_WRITE, EXPORT_STREAM_READ and STREAM_IDLE_TIMEOUT complete, with the stream and the status they leave (R301,
R328, R329, R330). Where a clause rests on a choice of the model and not on a rule, the choice is that of
notes/assumptions/38.md. -/
def Obligations.ImportAndExportStreams : Prop :=
  ∀ (s : State) (c : Sqe) (h : Fin 8), live s .core = true → fetched s c = true → s.obj.rebuilding = false → lanesOut s = false →
    (∀ chunk, chunk.length = 4096 → leAt chunk 0 4 = 0x53584D4C → (leAt chunk 4 2 = 1 ∨ leAt chunk 4 2 = 2) → partCrcOk chunk = true →
      ∃ t, exec (.importStreamWrite c h true false 0 chunk) s = .next t ∧ sent (.cqe c 0 false 0 0) s t ∧
        ∃ y, tfind t.obj.imports (streamKey c.port.val h.val) = some y ∧ y.bytes = chunk ∧ y.parsed = 4096) ∧
    (∀ chunk, chunk.length = 4096 → leAt chunk 0 4 ≠ 0x53584D4C →
      ∃ t, exec (.importStreamWrite c h true false 0 chunk) s = .next t ∧ sent (.cqe c 0xC8 true 0 0) s t ∧
        tfind t.obj.imports (streamKey c.port.val h.val) = none ∧ t.obj.index = s.obj.index) ∧
    (∀ chunk offset last x, chunkOk last chunk.length = true → tfind s.obj.imports (streamKey c.port.val h.val) = some x → offset ≠ x.bytes.length →
      (now s < x.lastUse + secs 600 →
        ∃ t, exec (.importStreamWrite c h false last offset chunk) s = .next t ∧ sent (.cqe c 0xC6 true 0 0) s t ∧
          ∃ y, tfind t.obj.imports (streamKey c.port.val h.val) = some y ∧ y.bytes = x.bytes) ∧
      (x.lastUse + secs 600 ≤ now s →
        ∃ t, exec (.importStreamWrite c h false last offset chunk) s = .next t ∧ sent (.cqe c 2 true 0 0) s t ∧
          tfind t.obj.imports (streamKey c.port.val h.val) = none)) ∧
    (∀ object len, len ≤ 4096 → ∃ t, exec (.exportStreamRead c h true false object 0 len) s = .next t ∧ sent (.cqe c 0 false len 0) s t ∧
      (∃ bytes, bytes.length = len ∧ sent (.data c bytes) s t) ∧
      ∃ y, tfind t.obj.exports (streamKey c.port.val h.val) = some y ∧ y.offset = len ∧ y.nextObj = object) ∧
    (∀ x, tfind s.obj.imports (streamKey c.port.val h.val) = some x →
      ∃ t, exec (.streamIdleTimeout c.port false h) s = .next t ∧ tfind t.obj.imports (streamKey c.port.val h.val) = none ∧
        x.lastUse + secs 600 ≤ now t) ∧
    (∀ x, tfind s.obj.exports (streamKey c.port.val h.val) = some x →
      ∃ t, exec (.streamIdleTimeout c.port true h) s = .next t ∧ tfind t.obj.exports (streamKey c.port.val h.val) = none ∧
        x.lastUse + secs 600 ≤ now t)

/-- EXIST, LIST, FLUSH_COMPLETE and STREAM_IDLE_TIMEOUT keep svcParts and objects; STORE, APPEND_VALUE and DELETE keep what every
other key names (R296, R298, R299, R301, R310). -/
def Obligations.ObjectFrame : Prop :=
  ∀ (s t : State) (i : Instr), s.obj.unadmitted = [] → exec i s = .next t →
    (((∃ c k, i = .exist c k) ∨ (∃ c k b, i = .list c k b) ∨ (∃ c, i = .flushComplete c) ∨ (∃ h e x, i = .streamIdleTimeout h e x)) →
      kept svcParts s t ∧ keptRegs (fun x l => inRange 0x1B0000 0x10000 x l || atAddr 0x30034 x l) s t ∧ t.obj.index = s.obj.index ∧
      t.obj.objs = s.obj.objs ∧ t.obj.commit = s.obj.commit ∧ t.obj.durable = s.obj.durable) ∧
    (∀ c k, (∃ v o, i = .store c k v o) ∨ (∃ b x d, i = .appendValue c k b x d) ∨ i = .delete c k →
      ∀ ns key, (ns ≠ k.nsid ∨ key ≠ keyOf k) → idxFind t ns key = idxFind s ns key)

/-- PTP_OFFER, PPS_IN_EDGE, METER_INTERVAL_END, CELL_LOW, SEAL_BREACH and SET_TIMESTAMP complete, with the time, the records and
the bits they leave (R294, R337, R338, R339, R343, R348, R349, R389). Where a clause rests on a choice of the model and not
on a rule, the choice is that of notes/assumptions/39.md. -/
def Obligations.AssayTimeMeterAndSeal : Prop :=
  ∀ (s : State),
    (∀ (h : HostId) x, live s .mgmt = true → bitOf (timeSources s) h.val = true → ptpValid x = false →
      ∃ t, exec (.ptpOffer h x) s = .next t ∧ tfind t.asy.lastOffer (h.val + 1) = none ∧ t.time.assay = s.time.assay) ∧
    (∀ x g, live s .mgmt = true → bitOf (timeSources s) 0 = true → ptpValid x = true → g = tget [] s.asy.groups 1 → g.length = 15 →
      consistent (g ++ [median x.offsets]) = true → 0 < median x.offsets → timeValid s = false → s.asy.sealed = true →
      ∃ t, exec (.ptpOffer 0 x) s = .next t ∧ (t.time.assay : Int) = s.time.assay + median x.offsets ∧ timeValid t = true) ∧
    (∀ x g, live s .mgmt = true → bitOf (timeSources s) 0 = true → ptpValid x = true → g = tget [] s.asy.groups 1 → g.length = 15 →
      consistent (g ++ [median x.offsets]) = true → timeValid s = true → s.asy.slew = none → atLeastUs (median x.offsets) 1000 = true →
      atLeastUs (median x.offsets) 100000 = false →
      ∃ t, exec (.ptpOffer 0 x) s = .next t ∧ t.asy.slew = some (if 0 < median x.offsets then 20 else -20, 1) ∧
        flag t asyB ASY_STATUS_SLEWING = true ∧ t.time.assay = s.time.assay) ∧
    (∀ at_, live s .always = true → bitOf (timeSources s) 4 = true →
      (s.asy.lastPps = none → ∃ t, exec (.ppsInEdge at_) s = .next t ∧ tfind t.asy.lastOffer 5 = none) ∧
      (∀ last, s.asy.lastPps = some last → (tfind s.asy.lastOffer 1).isSome = true →
        (((max s.time.assay at_ : Nat) : Int) - last - 2 ^ 24).natAbs * 1000 ≤ 2 ^ 24 →
        ∃ t, exec (.ppsInEdge at_) s = .next t ∧ (tfind t.asy.lastOffer 5).isSome = true ∧ t.time.assay = max s.time.assay at_)) ∧
    (∀ chans, live s .always = true → ∃ t, exec (.meterIntervalEnd chans) s = .next t ∧
      rd t asyB ASY_METER_SEQ_SEQ = (rd s asyB ASY_METER_SEQ_SEQ + 1) % 2 ^ 32 ∧
      (∃ m, tfind t.asy.meters (rd t asyB ASY_METER_SEQ_SEQ % 2097152) = some m ∧ m.stamp = s.asy.intStamp ∧ m.seq = rd t asyB ASY_METER_SEQ_SEQ ∧
        m.energy = (chansOf chans).map (fun x => x.mJ % 2 ^ 32)) ∧
      t.asy.intStart = intervalEnd s s.asy.intStart ∧ t.time.assay = max s.time.assay (intervalEnd s s.asy.intStart)) ∧
    (∀ mv, live s .always = true → mv < 2700 → ∃ t, exec (.cellLow mv) s = .next t ∧ flag t asyB ASY_STATUS_CELL_LOW = true ∧
      rd t asyB ASY_CELL_CELL_MV = mv) ∧
    (flag s asyB ASY_STATUS_SEAL_BROKEN = false → ∃ t, exec .sealBreach s = .next t ∧ flag t asyB ASY_STATUS_SEAL_BROKEN = true ∧
      t.asy.sealed = false ∧ timeValid t = false ∧ (s.pwr.powered = true → s.pwr.failing = false → s.rst.asserted ≠ some .halt → service t = 4)) ∧
    (∀ c ms, live s .core = true → fetched s c = true → c.qid = 0 → bitOf (timeSources s) 5 = false →
      ∃ t, exec (.setTimestamp c false ms) s = .next t ∧ sent (.cqe c 0 false 0 0) s t ∧ t.asy = s.asy ∧ t.time.assay = s.time.assay) ∧
    (∀ c (ms : Nat) (d : Int), live s .core = true → fetched s c = true → c.qid = 0 → bitOf (timeSources s) 5 = true →
      d = ((ms : Int) + rd s asyB ASY_UTC_TAI_UTC * 1000 - utcBase) * 2 ^ 24 / 1000 - s.time.assay → 0 < d →
      timeValid s = false → s.asy.sealed = true → (∀ p, s.asy.lastPtp = some p → p + secs 600 ≤ s.time.assay) →
      ∃ t, exec (.setTimestamp c false ms) s = .next t ∧ sent (.cqe c 0 false 0 0) s t ∧ (t.time.assay : Int) = s.time.assay + d ∧
        timeValid t = true)

/-- POWER_ON, START_COMPLETE, the RESET_N rows, RST_CTL, the module resets and their ends complete, with the reset, the cause and
the phase they leave (R28, R363, R365, R367, R370, R373, R436). Where a clause rests on a choice of the model and not on a
rule, the choice is that of notes/assumptions/3.md, notes/assumptions/44.md. -/
def Obligations.StartAndModuleResets : Prop :=
  ∀ (s : State),
    (∀ f flash tile carried ok, notBegun s = true → s.rst.asserted = none →
      ∃ t, exec (.powerOn f flash tile carried ok) s = .next t ∧ t.pwr.powered = true ∧ t.obj.powerCycles = s.obj.powerCycles + 1 ∧
        (s.rst.pinLow = none → flash.meets = false → rd t rstB RST_STATUS_PHASE = 1 ∧ rd t cfgB CFG_STATUS_STATE = 5) ∧
        (s.rst.pinLow.isSome = true → t.rst.asserted = some .cold ∧ rd t rstB RST_STATUS_LAST_CAUSE = 1)) ∧
    (live s .core = true → startDone s = true → ∀ unreadable, ∃ t, exec (.startComplete unreadable) s = .next t ∧ (service t = 1 ∨ service t = 2) ∧
      rd t rstB RST_STATUS_PHASE = 4 ∧ t.obj.rebuilding = false ∧ flag t ledB LEDGER_STATUS_REBUILDING = false) ∧
    (s.rst.pinLow = none → s.pwr.powered = true → s.pwr.failing = false → service s ≠ 4 → s.rst.asserted = none →
      ∃ t, exec .resetNLow s = .next t ∧ t.rst.pinLow = some (now s) ∧ t.rst.asserted = some .warm ∧ t.rst.pinTaken.isSome = true ∧
        rd t asyB (ASY_BANK_WORD.ix 0) = rd s asyB (ASY_BANK_WORD.ix 0)) ∧
    (s.rst.pinLow = none → s.pwr.powered = false → ∃ t, exec .resetNLow s = .next t ∧ t.rst.pinLow = some (now s) ∧
      t.rst.asserted = s.rst.asserted) ∧
    (∀ x, s.rst.pinLow = some x → s.pwr.powered = true → s.pwr.failing = false → service s ≠ 4 → s.rst.asserted = some .warm →
      ∃ t, exec .resetNCold s = .next t ∧ t.rst.asserted = some .cold ∧ rd t rstB RST_STATUS_LAST_CAUSE = 3 ∧ x + msecs 500 ≤ now t ∧
        t.rst.pinTaken = none ∧ rd t asyB (ASY_BANK_WORD.ix 0) = satInc 0xFFFFFFFF (rd s asyB (ASY_BANK_WORD.ix 0))) ∧
    (∃ t, exec .resetNRise s = .next t ∧ t.rst.pinLow = none ∧ t.rst.pinTaken = none ∧
      (s.rst.pinTaken.isSome = true → rd t rstB RST_STATUS_LAST_CAUSE = 2)) ∧
    (∀ p, forbidden p 0x10004 = false → accessLive s p 0x10004 = true →
      (∃ t, exec (.rstCtlWarm p) s = .next t ∧ t.rst.ctlPending = s.rst.ctlPending ++ [(.warm, now s + msecs 1)]) ∧
      (∃ t, exec (.rstCtlCold p) s = .next t ∧ t.rst.ctlPending = s.rst.ctlPending ++ [(.cold, now s + msecs 1)])) ∧
    (∀ cause, s.pwr.powered = true → s.pwr.failing = false → service s ≠ 4 →
      (cause ∈ [2, 4, 5, 7, 8] → s.rst.asserted = none → ∃ t, exec (.warmReset cause) s = .next t ∧ t.rst.asserted = some .warm ∧
        rd t rstB RST_STATUS_LAST_CAUSE = cause) ∧
      (cause ∈ [3, 6, 7] → s.rst.asserted ≠ some .cold → s.rst.asserted ≠ some .halt →
        ∃ t, exec (.coldReset cause) s = .next t ∧ t.rst.asserted = some .cold ∧ rd t rstB RST_STATUS_LAST_CAUSE = cause)) ∧
    (s.pwr.powered = true → s.rst.asserted = some .warm → resetMayEnd s = true →
      ∃ t, exec .warmResetEnd s = .next t ∧ t.rst.asserted = none) ∧
    (s.pwr.powered = true → s.rst.asserted = some .cold → resetMayEnd s = true →
      ∃ t, exec .coldResetEnd s = .next t ∧ t.rst.asserted = none)

/-- The watchdog, block resets, FUNCTION_REINIT and its queues, RST_RELEASE and the PLL rows complete, with what they leave
(R304, R366, R375, R376, R377, R378). Where a clause rests on a choice of the model and not on a rule, the choice is that of
notes/assumptions/44.md. -/
def Obligations.WatchdogBlockResetsAndClocks : Prop :=
  ∀ (s : State),
    (∀ p (v : Word), forbidden p 0x10018 = false → accessLive s p 0x10018 = true → flag s rstB RST_WDOG_ENABLE = true →
      ∃ t, exec (.watchdogKick p v) s = .next t ∧ (v.toNat % 256 = 0xA5 → t.rst.wdogArmed = true ∧ t.rst.lastKick = now s) ∧
        (v.toNat % 256 ≠ 0xA5 → t.rst.wdogArmed = s.rst.wdogArmed ∧ t.rst.lastKick = s.rst.lastKick)) ∧
    (s.pwr.powered = true → s.rst.wdogArmed = true → flag s rstB RST_WDOG_ENABLE = true →
      (s.rst.wdogRuns = 0 → flag s rstB RST_WDOG_ACTION = false → s.pwr.failing = false → service s ≠ 4 → s.rst.asserted = none →
        ∃ t, exec .watchdogExpiry s = .next t ∧ t.rst.asserted = some .warm ∧ rd t rstB RST_STATUS_LAST_CAUSE = 7 ∧
          flag t rstB RST_STATUS_WDOG_FIRED = true) ∧
      (2 ≤ s.rst.wdogRuns → ∃ t, exec .watchdogExpiry s = .next t ∧ t.rst.asserted = s.rst.asserted ∧ t.rst.wdogArmed = false ∧
        flag t rstB RST_STATUS_WDOG_STOPPED = true)) ∧
    (∀ p (v : Word), (p = .bursar ∨ ∃ n, p = .teller n) → accessLive s p 0x10020 = true → s.rst.asserted = none → service s ≠ 4 →
      (blockNamed (v.toNat % 256) (v.toNat / 256 % 256) = true → ∃ t, exec (.rstBlockReq p v) s = .next t ∧
        flag t rstB RST_BLOCK_RESULT_BUSY = true ∧ ∃ b, t.rst.blocks = s.rst.blocks ++ [b] ∧ b.kind = v.toNat % 256 ∧
          b.inst = v.toNat / 256 % 256 ∧ b.hold = bitOf v.toNat 16 ∧ b.by_ = some p) ∧
      (blockNamed (v.toNat % 256) (v.toNat / 256 % 256) = false → ∃ t, exec (.rstBlockReq p v) s = .next t ∧
        flag t rstB RST_BLOCK_RESULT_REFUSED = true ∧ t.rst.blocks = s.rst.blocks)) ∧
    (∀ c kind inst, live s .core = true → fetched s c = true → c.qid = 0 → blockNamed kind inst = true → (kind ≠ 7 ∨ inst ≠ c.port.val) →
      ∃ t, exec (.functionReinit c kind inst) s = .next t ∧ ∃ b, t.rst.blocks = s.rst.blocks ++ [b] ∧ b.kind = kind ∧ b.inst = inst ∧
        b.cmd = some c) ∧
    (∀ c, live s .core = true → fetched s c = true → c.qid = 0 → ∃ t, exec (.functionReinitQueues c 0) s = .next t ∧
      sent (.cqe c 0 false 0 0) s t ∧ (ctrlOf t c.port.val).queues = []) ∧
    (∀ b timedOut still, live s .core = true → s.rst.blocks = [b] → s.rst.held = [] → b.kind = 6 → still = false →
      (timedOut = true ∨ blockIdle s 6 b.inst = true) →
      ∃ t, exec (.blockResetIdle 6 b.inst timedOut still) s = .next t ∧ (chanOf t b.inst).reqs = [] ∧
        rd t rstB RST_BLOCK_COUNTS_BLOCK_RESETS = satInc 0xFFFF (rd s rstB RST_BLOCK_COUNTS_BLOCK_RESETS) % 2 ^ 16 ∧
        (b.hold = false → t.rst.blocks = [] ∧ t.rst.held = [] ∧ flag t rstB RST_BLOCK_RESULT_BUSY = false) ∧
        (b.hold = true → t.rst.blocks = [{ b with timedOut := timedOut }] ∧ t.rst.held = [(6, b.inst)])) ∧
    (∀ p (v : Word), forbidden p 0x10028 = false → accessLive s p 0x10028 = true →
      (blockLocked s (v.toNat % 256) (v.toNat / 256 % 256) = true →
        ∃ t, exec (.rstRelease p v) s = .next t ∧ (v.toNat % 256, v.toNat / 256 % 256) ∉ t.rst.held) ∧
      (blockLocked s (v.toNat % 256) (v.toNat / 256 % 256) = false →
        ∃ t, exec (.rstRelease p v) s = .next t ∧ flag t rstB RST_STATUS_EARLY_RELEASE = true ∧ t.rst.held = s.rst.held)) ∧
    (∀ d, live s .always = true → lockBit s d = false → s.rst.pllLost.contains (domainIx d) = false →
      ∃ t, exec (.pllLock d) s = .next t ∧ lockBit t d = true) ∧
    (∀ d, live s .always = true → lockBit s d = true → s.rst.asserted = none → service s ≠ 4 →
      ∃ t, exec (.pllLockLoss d) s = .next t ∧ lockBit t d = false ∧ domainIx d ∈ t.rst.pllLost ∧
        (d = .ddr → flag t poolB POOL_STATUS_READY = false)) ∧
    (live s .always = true → lockBit s .nand = false → s.rst.asserted = none → service s ≠ 4 →
      flag s rsvB RSV_STATUS_OUT_OF_SERVICE = false → rd s 0x19FC00 FLT_REACT_ACTION = 0 →
      ∃ t, exec (.pllLockTimeout .nand) s = .next t ∧ flag t rsvB RSV_STATUS_OUT_OF_SERVICE = true ∧ flag t rsvB RSV_STATUS_READY = false)

/-- Rail reports, fault events, quiet periods, back-off, the fault registers, core errors and configuration commits complete,
with what they leave (R305, R360, R361, R385, R386, R389, R390, R391, R392, R394, R397). Where a clause rests on a choice of
the model and not on a rule, the choice is that of notes/assumptions/46.md, notes/assumptions/47.md. -/
def Obligations.FaultsAndCommits : Prop :=
  ∀ (s : State),
    (∀ src wire cause, live s .always = true → ∃ t, exec (.dualRailReport src wire cause) s = .next t ∧
      flag t rstB (railField src) = true ∧ (s.pwr.failing = false → s.rst.asserted ≠ some .halt → service t = 4) ∧
      (s.pwr.failing = true → t.rst.asserted = s.rst.asserted)) ∧
    (∀ b u status stillLow, live s .motion = true → (unitOf s (fbAt b) u).inFault = true → status.first.isSome = true →
      (dataPath (fbAt b) = true → now s < (unitOf s (fbAt b) u).quietEnd) → ∃ t, exec (.persistingFaultEvent b u status stillLow) s = .next t ∧
      (unitOf t (fbAt b) u).inFault = true ∧ (unitOf t (fbAt b) u).quietEnd = now s + quietTime s (fbAt b) u ∧
      ∀ a : ActId, fbAt b = fbAct a.val → stillLow = false → flag s (portBase (portOfAct a.val)) (fltField a.val) = true →
        flag t (portBase (portOfAct a.val)) (fltField a.val) = false) ∧
    (∀ b u, live s .motion = true → (unitOf s (fbAt b) u).inFault = true → dataPath (fbAt b) = true →
      ∃ t, exec (.quietPeriodEnd b u) s = .next t ∧ (unitOf t (fbAt b) u).inFault = false ∧ (unitOf t (fbAt b) u).lastExit.isSome = true ∧
        (unitOf s (fbAt b) u).quietEnd ≤ now t) ∧
    (∀ b u x, live s .motion = true → (unitOf s (fbAt b) u).inFault = false → (unitOf s (fbAt b) u).lastExit = some x →
      ∃ t, exec (.backoffReset b u) s = .next t ∧ (unitOf t (fbAt b) u).r = 0 ∧ (unitOf t (fbAt b) u).lastExit = none) ∧
    (∀ p b (v : Word), forbidden p (fbAt b + 0xC) = false → accessLive s p (fbAt b + 0xC) = true → dualRail (fbAt b) = false →
      (wholeIgnored s (fbAt b + 0xC) v.toNat = false → ∃ t, exec (.fltReactWrite p b v) s = .next t ∧
        rd t (fbAt b) FLT_REACT_ACTION = v.toNat / 4 % 8) ∧
      (wholeIgnored s (fbAt b + 0xC) v.toNat = true → ∃ t, exec (.fltReactWrite p b v) s = .next t ∧
        rd t (fbAt b) FLT_REACT_ACTION = rd s (fbAt b) FLT_REACT_ACTION ∧ flag t (fbAt b) FLT_STATUS_REACT_REFUSED = true)) ∧
    (∀ p b, forbidden p (fbAt b + 0x18) = false → accessLive s p (fbAt b + 0x18) = true →
      ∃ t, exec (.fltHistClear p b) s = .next t ∧ rd t (fbAt b) FLT_HIST_CTL_NEXT = 0 ∧
        ∀ i, i < 16 → flag t (fbAt b) (FLT_HIST_C_VALID.ix i) = false) ∧
    (∀ p b, forbidden p (fbAt b + 0x1C) = false → accessLive s p (fbAt b + 0x1C) = true → rd s (fbAt b) FLT_MEM_SEL_MEM < 16 →
      ∃ t, exec (.fltMemLogClear p b) s = .next t ∧ (tget memLog0 t.flt.mems (fbAt b * 16 + rd s (fbAt b) FLT_MEM_SEL_MEM)).log = []) ∧
    (∀ u : Fin 17, live s .mgmt = true → rd s 0x1DFC00 FLT_REACT_ACTION = 0 →
      ∃ t, exec (.coreUncorrectableError u) s = .next t ∧ (unitOf t 0x1DFC00 u.val).inFault = true) ∧
    (∀ c data, live s .core = true → fetched s c = true → c.qid = 0 → s.obj.image = none → s.cfg.committing = none →
      data.length % 4 = 0 → data.length ≤ 1048576 →
      (∃ t, exec (.configurationCommit c true false 0 data) s = .next t ∧ sent (.cqe c 0 false 0 0) s t ∧ t.obj.image = some (c.port.val, data)) ∧
      (sentOk data = true → rd s cfgB CFG_RUNNING_SEQ ≠ 0xFFFFFFFE → ∃ t, exec (.configurationCommit c true true 0 data) s = .next t ∧
        rd t cfgB CFG_STATUS_STATE = 6 ∧ t.obj.commitCmd = some c ∧
        t.cfg.committing = some (renumber ((rd s cfgB CFG_RUNNING_SEQ + 1) % 2 ^ 32) data)) ∧
      (sentOk data = false → ∃ t, exec (.configurationCommit c true true 0 data) s = .next t ∧ t.cfg.committing = none ∧
        sent (.cqe c 0xC9 true 0 0) s t)) ∧
    (∀ x back, live s .core = true → s.cfg.committing = some x → ∃ t, exec (.configCommitWriteEnd back) s = .next t ∧ t.cfg.committing = none ∧
      (imgCheck (magicBytes ++ back.drop 4) = (0, 0) → flag t cfgB CFG_STATUS_COMMIT_DONE = true) ∧
      (imgCheck (magicBytes ++ back.drop 4) ≠ (0, 0) → flag t cfgB CFG_STATUS_COMMIT_FAILED = true))

/-- Time offers, METER_INTERVAL_END, CELL_LOW, RST_CTL, RESET_N_RISE, WATCHDOG_KICK and three fault register commands keep the
listed parts and registers (R338, R343, R348, R365, R366, R386, R394, R397). -/
def Obligations.AssayResetFaultFrame : Prop :=
  ∀ (s t : State) (c : Instr), exec c s = .next t →
    (((∃ h x, c = .ptpOffer h x) ∨ (∃ x, c = .ppsInEdge x) ∨ (∃ x, c = .meterIntervalEnd x) ∨ (∃ mv, c = .cellLow mv)) →
      kept (butFor svcParts [.asy, .free]) s t ∧
      keptRegs (fun x l => inRange 0x1E0000 0x10000 x l || atAddr 0x30034 x l) s t) ∧
    (((∃ p, c = .rstCtlWarm p) ∨ (∃ p, c = .rstCtlCold p) ∨ (∃ p v, c = .watchdogKick p v)) →
      kept svcParts s t ∧ keptRegs (fun x l => inRange 0x3FC00 0x400 x l || inRange 0x1FC00 0x400 x l) s t) ∧
    (c = .resetNRise → kept svcParts s t ∧ keptRegs (fun x l => inRange 0x10000 0x10000 x l || inRange 0x1E0000 0x10000 x l) s t) ∧
    (∀ b u p, (c = .backoffReset b u ∨ c = .fltHistClear p b ∨ c = .fltMemLogClear p b) →
      kept (butFor svcParts [.flt]) s t ∧
      keptRegs (fun x l => inRange (fbAt b) 0x400 x l || inRange 0x3FC00 0x400 x l || atAddr 0x30034 x l) s t)

/-- A write that R25 forbids has no effect but its record (R26). Where a clause rests on a choice of the model and not on a rule,
the choice is that of notes/assumptions/13.md, notes/assumptions/43.md. -/
def Obligations.ForbiddenWritesAreRecorded : Prop :=
  ∀ (s : State),
    (∀ p addr (v : Word), live s .mgmt = true → addrOk addr = true → forbidden p addr = true → blockRecords addr = false → rd s 0x3FC00 FLT_HIST_CTL_NEXT < 16 →
      ∃ t, exec (.blockRegisterWrite p addr v) s = .next t ∧ kept svcParts s t ∧ keptRegs (inRange 0x3FC00 0x400) s t ∧
        rd t 0x3FC00 (FLT_HIST_10_DETAIL.ix (rd s 0x3FC00 FLT_HIST_CTL_NEXT)) = addr % 2 ^ 32 ∧
        rd t 0x3FC00 (FLT_HIST_C_PATH.ix (rd s 0x3FC00 FLT_HIST_CTL_NEXT)) = pathCode p % 2 ^ FLT_HIST_C_PATH.len ∧
        flag t 0x3FC00 (FLT_HIST_C_VALID.ix (rd s 0x3FC00 FLT_HIST_CTL_NEXT)) = true) ∧
    (∀ c addr (v : Word), live s .core = true → fetched s c = true → c.qid = 0 → addrOk addr = true → forbidden (.window c.port) addr = true →
      blockRecords addr = false → rd s 0x3FC00 FLT_HIST_CTL_NEXT < 16 →
      ∃ t, exec (.registerWindowWrite c addr [v]) s = .next t ∧ kept svcParts s t ∧ keptRegs (inRange 0x3FC00 0x400) s t ∧
        sent (.cqe c 0 false 0 0) s t ∧
        rd t 0x3FC00 (FLT_HIST_10_DETAIL.ix (rd s 0x3FC00 FLT_HIST_CTL_NEXT)) = addr % 2 ^ 32) ∧
    (∀ addr (v : Word), live s .mgmt = true → flag s burB BUR_STATUS_RUNNING = true → blockRecords addr = false → rd s 0x3FC00 FLT_HIST_CTL_NEXT < 16 →
      ∃ t, exec (.registerWrite addr v) s = .next t ∧ kept (butFor svcParts [.free]) s t ∧ keptRegs (inRange 0x3FC00 0x400) s t ∧
        (∃ code, code ≠ 0 ∧ sent (.mi code []) s t) ∧
        rd t 0x3FC00 (FLT_HIST_10_DETAIL.ix (rd s 0x3FC00 FLT_HIST_CTL_NEXT)) = addr % 2 ^ 32) ∧
    (∀ p addr (v : Word), live s .mgmt = true → addrOk addr = true → forbidden p addr = true → blockRecords addr = true →
      rd s (recordFb addr) FLT_HIST_CTL_NEXT < 16 →
      ∃ t, exec (.blockRegisterWrite p addr v) s = .next t ∧ kept (butFor svcParts [.free]) s t ∧ keptRegs (inRange (recordFb addr) 0x400) s t ∧
        rd t (recordFb addr) (FLT_HIST_10_DETAIL.ix (rd s (recordFb addr) FLT_HIST_CTL_NEXT)) = addr % 2 ^ 32 ∧
        flag t (recordFb addr) (FLT_HIST_C_VALID.ix (rd s (recordFb addr) FLT_HIST_CTL_NEXT)) = true)

/-- Register reads and writes complete on their paths: RSV_WARN takes and shows its value, a bad address gives an error, an
unoccupied one is recorded (R5, R24, R27, R302, R405). Where a clause rests on a choice of the model and not on a rule, the
choice is that of notes/assumptions/13.md, notes/assumptions/43.md. -/
def Obligations.RegisterAccess : Prop :=
  ∀ (s : State),
    (∀ p addr (v : Word), live s .mgmt = true → addrOk addr = false → ∃ t, exec (.blockRegisterWrite p addr v) s = .next t ∧
      sent (.busError p addr) s t ∧ kept svcParts s t ∧ keptRegs noReg s t) ∧
    (∀ p (v : Word), forbidden p 0x19001C = false → accessLive s p 0x19001C = true →
      ∃ t, exec (.blockRegisterWrite p 0x19001C v) s = .next t ∧ rd t rsvB RSV_WARN_SPARE_WARN = v.toNat % 256 ∧
        rd t rsvB RSV_WARN_WEAR_WARN = v.toNat / 256 % 256 ∧ kept svcParts s t ∧ keptRegs (atAddr 0x19001C) s t) ∧
    (∀ p addr (v : Word), forbidden p addr = false → accessLive s p addr = true → addrOk addr = true → addr < 0x200000 → findReg addr = none →
      ∃ t, exec (.blockRegisterWrite p addr v) s = .next t ∧ kept svcParts s t ∧ keptRegs (inRange (recordFb addr) 0x400) s t) ∧
    (∀ p, readLive s p = true →
      (∃ t, exec (.latchingLowHalfRead p 0x19001C) s = .next t ∧ sent (.value p 0x19001C (BitVec.ofNat 32 (regValue s 0x19001C))) s t) ∧
      (∀ addr, addrOk addr = false → ∃ t, exec (.latchingLowHalfRead p addr) s = .next t ∧ sent (.busError p addr) s t)) ∧
    (∀ c, live s .core = true → fetched s c = true → c.qid = 0 →
      (∀ v : Word, ∃ t, exec (.registerWindowWrite c 0x19001C [v]) s = .next t ∧ sent (.cqe c 0 false 0 0) s t ∧
        rd t rsvB RSV_WARN_SPARE_WARN = v.toNat % 256) ∧
      (∀ addr vals, rangeOk addr vals.length = false → ∃ t, exec (.registerWindowWrite c addr vals) s = .next t ∧
        sent (.cqe c 2 true 0 0) s t ∧ kept svcParts s t ∧ keptRegs noReg s t) ∧
      (∃ t, exec (.registerWindowRead c 0x19001C 1) s = .next t ∧ sent (.cqe c 0 false 0 0) s t ∧
        sent (.data c (wordsBytes [regValue s 0x19001C % 2 ^ 32])) s t) ∧
      (∀ addr n, rangeOk addr n = false → ∃ t, exec (.registerWindowRead c addr n) s = .next t ∧ sent (.cqe c 2 true 0 0) s t ∧
        kept svcParts s t ∧ keptRegs noReg s t)) ∧
    (live s .mgmt = true → flag s burB BUR_STATUS_RUNNING = true →
      (∃ t, exec (.registerRead 0x19001C 1) s = .next t ∧ sent (.mi 0 (wordsBytes [regValue s 0x19001C % 2 ^ 32])) s t) ∧
      (∀ addr n, rangeOk addr n = false → ∃ t, exec (.registerRead addr n) s = .next t ∧ (∃ code, code ≠ 0 ∧ sent (.mi code []) s t)))

/-- The Daybook's rows, a sensor's threshold, the temperature hour, the host links' rows and ARP_NDP_ICMP_ECHO complete, with
what they leave (R286, R303, R391, R404, R406, R408, R409, R412, R413, R419). Where a clause rests on a choice of the model
and not on a rule, the choice is that of notes/assumptions/48.md, notes/assumptions/49.md. -/
def Obligations.DaybookSensorsAndLinks : Prop :=
  ∀ (s : State),
    (∀ c, live s .core = true → fetched s c = true → c.qid = 0 →
      (∃ t, exec (.daybookFreeze c) s = .next t ∧ flag t dbB DB_STATUS_FROZEN = true ∧ sent (.cqe c 0 false 0 0) s t ∧
        t.day.freezeEnd = now s + secs (rd s dbB DB_CTL_FREEZE_MAX_S)) ∧
      (flag s dbB DB_STATUS_FROZEN = true → ∃ t, exec (.daybookResume c) s = .next t ∧ flag t dbB DB_STATUS_FROZEN = false ∧
        t.day.hold = [] ∧ sent (.cqe c 0 false 0 0) s t)) ∧
    (live s .mgmt = true → flag s dbB DB_STATUS_FROZEN = true → ∃ t, exec .freezeWindowEnd s = .next t ∧
      flag t dbB DB_STATUS_FROZEN = false ∧ t.day.hold = [] ∧ s.day.freezeEnd ≤ now t) ∧
    (∀ p (v : Word), (p = .bursar ∨ ∃ n, p = .teller n) → accessLive s p 0x1C0050 = true → flag s dbB DB_STATUS_FROZEN = false →
      0x8000 ≤ v.toNat % 65536 → ∃ t, exec (.dbWriteGo p v) s = .next t ∧ ∃ r ∈ t.day.pending, r.trig = v.toNat % 65536 ∧
        r.sev = v.toNat / 2 ^ 16 % 8 ∧ r.dseq = s.day.nextSeq ∧ r.d0 = copyGet s p 0x1C0040 ∧ r.d1 = copyGet s p 0x1C0044 ∧
        r.d2 = copyGet s p 0x1C0048 ∧ r.d3 = copyGet s p 0x1C004C) ∧
    (∀ q r, live s .mgmt = true → serviceTrue s = true → flag s rsvB RSV_STATUS_OUT_OF_SERVICE = false → flag s dbB DB_STATUS_FROZEN = false →
      s.day.pending.find? (fun x => decide (x.dseq = q)) = some r →
      ∃ t, exec (.daybookMirror q) s = .next t ∧ mirrorDue s r ≤ now t ∧ ∀ x ∈ t.day.pending, x.dseq ≠ q) ∧
    (∀ i v, live s .mgmt = true → sensorLive s i = true → flag s burB BUR_STATUS_RUNNING = true →
      ∃ t, exec (.sensorThresholdCrossing i v) s = .next t ∧ tfind t.bur.zone i = some (if i = 1 ∨ i = 11 then v else sensorValue s i 0)) ∧
    (live s .mgmt = true → ∃ t, exec .temperatureHistoryHour s = .next t ∧
      t.bur.newest = (if s.bur.history.isEmpty then 0 else (s.bur.newest + 1) % 2 ^ 32) ∧
      (∃ x, tfind t.bur.history (t.bur.newest % 8760) = some (now s / secs 3600, x)) ∧ t.bur.hourWarn = t.bur.warnTicks) ∧
    (∀ h, live s .core = true →
      (linkAllowed s h = true → ∃ t, exec (.hostLinkUp h) s = .next t ∧ flag t (hostBase h.val) HP_LINK_UP = true) ∧
      (∃ t, exec (.hostLinkDown h) s = .next t ∧ flag t (hostBase h.val) HP_LINK_UP = false ∧
        (flag s (hostBase h.val) HP_LINK_UP = true → flag t (hostBase h.val) HP_LINK_CHANGED = true)) ∧
      (rd s (fbHost h.val) FLT_REACT_ACTION = 0 → ∃ t, exec (.rsFecLockLost h) s = .next t ∧
        flag t (hostBase h.val) HP_LINK_UP = false ∧ (unitOf t (fbHost h.val) 0).inFault = true)) ∧
    (∀ port frame b, live s .mgmt = true → addressBlock s port = some b → portListens s port = true →
      (answers (ipVersion b) frame = true → ∃ t, exec (.arpNdpIcmpEcho port frame true) s = .next t ∧ sent (.net port) s t) ∧
      (answers (ipVersion b) frame = false → serviceTrue s = true → ∃ t, exec (.arpNdpIcmpEcho port frame true) s = .next t ∧ t.out = s.out)) ∧
    (∀ frame, live s .mgmt = true →
      (∀ h : HostId, ∃ t, exec (.arpNdpIcmpEcho (some h) frame false) s = .next t ∧
        rd t (hostBase h.val) HP_ERRS_RX_DROPS = satInc 0xFFFF (rd s (hostBase h.val) HP_ERRS_RX_DROPS) % 2 ^ 16) ∧
      (∃ t, exec (.arpNdpIcmpEcho none frame false) s = .next t ∧ t.fab.mgmtDrops = s.fab.mgmtDrops + 1))

/-- The management link's MCTP, NVMe-MI and PLDM messages are answered, and keep svcParts and every register field but BUR_STATUS
(R400, R402, R403, R404, R407). Where a clause rests on a choice of the model and not on a rule, the choice is that of
notes/assumptions/43.md. -/
def Obligations.ManagementLink : Prop :=
  ∀ (s : State), live s .mgmt = true → flag s burB BUR_STATUS_RUNNING = true →
    (∀ eid : Byte, eid ≠ 0 → eid ≠ 0xFF → ∃ t, exec (.setEndpointId eid) s = .next t ∧ rd t burB BUR_STATUS_EID = eid.toNat ∧
      sent (.mi 0 [0, 0, eid, 0]) s t) ∧
    (∃ t l, exec .getEndpointId s = .next t ∧ l.length = 2 ∧ sent (.mi 0 ([0, byte (rd s burB BUR_STATUS_EID)] ++ l)) s t) ∧
    (∀ ty, msgTypeOk ty = true → ∃ t l, exec (.getMctpVersionSupport ty) s = .next t ∧ l.length = 4 ∧ sent (.mi 0 ([0, 1] ++ l)) s t) ∧
    (∃ t, exec .getMessageTypeSupport s = .next t ∧ sent (.mi 0 [0, 2, 1, 4]) s t) ∧
    (∃ t, exec (.readNvmeMiDataStructure 2) s = .next t ∧ sent (.mi 0 [4, 0, 1, 0, 2, 0, 3, 0, 4, 0]) s t) ∧
    (∃ t l, exec .nvmSubsystemHealthStatusPoll s = .next t ∧ l.length = 8 ∧ l[3]? = some (byte (rd s rsvB RSV_HEALTH_WEAR_PCT)) ∧
      sent (.mi 0 l) s t) ∧
    (∀ h : HostId, ∃ t l, exec (.controllerHealthStatusPoll h) s = .next t ∧ l.length = 16 ∧ l.take 2 = leBytes 2 (h.val + 1) ∧
      l[6]? = some (byte (rd s rsvB RSV_HEALTH_WEAR_PCT)) ∧ l[7]? = some (byte (rd s rsvB RSV_HEALTH_SPARE_PCT)) ∧ sent (.mi 0 l) s t) ∧
    (∀ id, 1 ≤ id → id ≤ 3 → ∃ t l, exec (.configurationGet id) s = .next t ∧ l.length = 3 ∧ sent (.mi 0 l) s t) ∧
    (∀ o n, ∃ t l, exec (.vpdRead o n) s = .next t ∧ l.length = n ∧ sent (.mi 0 l) s t) ∧
    (∃ t, exec (.tunnelledAdminCommand (.getFeatures 0xF)) s = .next t ∧
      sent (.mi 0 (leBytes 4 (ctrlOf s 0).kato ++ zeros 4 ++ leBytes 2 0 ++ leBytes 2 0)) s t) ∧
    (∀ op, ∃ t, exec (.tunnelledAdminCommand (.other op)) s = .next t ∧ (∃ code, code ≠ 0 ∧ sent (.mi code []) s t) ∧ kept svcParts s t) ∧
    (∃ t l, exec .getTid s = .next t ∧ l.length = 1 ∧ sent (.mi 0 ([0] ++ l)) s t) ∧
    (∀ ty, (ty = 0 ∨ ty = 2) → ∃ t l, exec (.getPldmVersion ty) s = .next t ∧ l.length = 13 ∧ sent (.mi 0 ([0] ++ l)) s t) ∧
    (∃ t, exec .getPldmTypes s = .next t ∧ sent (.mi 0 ([0, 5] ++ zeros 7)) s t) ∧
    (∀ ty, ∃ t, exec (.getPldmCommands ty) s = .next t ∧ sent (.mi 0 (pldmCommands ty)) s t) ∧
    (∀ i, sensorListed i = true → ∃ t, exec (.getPdr i) s = .next t ∧ sent (.mi 0 ([0] ++ pdrBytes s i)) s t) ∧
    (∃ t l, exec (.getSensorReading 3) s = .next t ∧ l.length = 4 ∧
      sent (.mi 0 ([0, 5, 0] ++ l ++ leBytes 4 (toBits 32 (rd s fabB FAB_VCORE_MEAS_MV)))) s t) ∧
    (∀ addr : Byte, ∃ t, exec (.setEventReceiver addr) s = .next t ∧ t.bur.receiver = some addr ∧ t.bur.eventsWaiting = [] ∧
      sent (.mi 0 [0]) s t ∧ ∀ e ∈ s.bur.eventsWaiting, sent (.pldm e.1 e.2) s t) ∧
    (∀ c t, exec c s = .next t → ((∃ e, c = .setEndpointId e) ∨ c = .getEndpointId ∨ (∃ x, c = .getMctpVersionSupport x) ∨
      c = .getMessageTypeSupport ∨ (∃ x, c = .readNvmeMiDataStructure x) ∨ c = .nvmSubsystemHealthStatusPoll ∨
      (∃ h, c = .controllerHealthStatusPoll h) ∨ (∃ x, c = .configurationGet x) ∨ (∃ x y, c = .vpdRead x y) ∨ c = .getTid ∨
      (∃ x, c = .getPldmVersion x) ∨ c = .getPldmTypes ∨ (∃ x, c = .getPldmCommands x) ∨ (∃ x, c = .getPdr x) ∨
      (∃ x, c = .getSensorReading x) ∨ (∃ x, c = .setEventReceiver x)) →
      kept (butFor svcParts [.free]) s t ∧ keptRegs (atAddr 0x1D0000) s t)

/-- A step runs the command at the front of the queue (17_start_and_reset.md, 00_scope.md). -/
def Obligations.StepRunsTheFrontCommand : Prop :=
  ∀ (c : Instr) (s : State), step (withFront c s) = exec c s

/-- On an empty queue one cycle of the main oscillator passes (03_fabric_and_stamps.md). Where a clause rests on a choice of the
model and not on a rule, the choice is that of notes/assumptions/4.md. -/
def Obligations.EmptyQueueIsATick : Prop :=
  ∀ (s : State), s.pending = [] → serviceTrue s = true → s.asy.slew = none → s.asy.rateAcc.natAbs < 10 ^ 9 →
    ∃ t, step s = .next t ∧ t.time.assay = s.time.assay + 1 ∧ t.pending = [] ∧ kept svcParts s t ∧ keptRegs (atAddr 0x30034) s t

/-- Every command answers a next state and keeps the queue of waiting commands (00_scope.md). Where a clause rests on a choice of
the model and not on a rule, the choice is that of notes/assumptions/5.md. -/
def Obligations.EveryCommandCompletes : Prop :=
  ∀ (c : Instr) (s : State), ∃ t, exec c s = .next t ∧ t.pending = s.pending

/-- GLB_SERVICE agrees with the machine after every step (R28). Where a clause rests on a choice of the model and not on a rule,
the choice is that of notes/assumptions/1.md, notes/assumptions/51.md. -/
def Obligations.ServiceStateStaysTrue : Prop :=
  ∀ (s t : State), serviceTrue s = true → step s = .next t → serviceTrue t = true

/-- The state after reset is true to R28, waits for nothing and lists no byte (R2, R28, R42). Where a clause rests on a choice of
the model and not on a rule, the choice is that of notes/assumptions/1.md, notes/assumptions/2.md, notes/assumptions/3.md. -/
def Obligations.ResetStateIsTrue : Prop :=
  serviceTrue State.reset = true ∧ State.reset.pending = [] ∧ State.reset.pool.mem = [] ∧ twf 0 State.reset.pool.mem = true ∧
    service State.reset = 0 ∧ regValue State.reset 0 = 0x24484101 ∧ rd State.reset pwrB PWR_IB_SET_TARGET = 12

/-- Without power every command but POWER_ON, RESET_N_LOW, RESET_N_RISE, SEAL_BREACH and STAMP_TAKE_LO_READ leaves the state as
it is (R50, R362, R367). Where a clause rests on a choice of the model and not on a rule, the choice is that of
notes/assumptions/18.md. -/
def Obligations.UnpoweredModuleDoesNothing : Prop :=
  ∀ (c : Instr) (s : State), s.pwr.powered = false →
    (∀ f x y z w, c ≠ .powerOn f x y z w) → c ≠ .resetNLow → c ≠ .resetNRise → c ≠ .sealBreach →
    (∀ p, c ≠ .stampTakeLoRead p) → exec c s = .next s

/-- A write of the Pool is read back, and every other byte stays (R244). -/
def Obligations.PoolReadsWhatWasWritten : Prop :=
  ∀ (s : State) (a : Nat) (bs : List Byte),
    poolBytes (poolPut a bs s) a bs.length = bs ∧ (twf 0 s.pool.mem = true → twf 0 (poolPut a bs s).pool.mem = true) ∧
    (∀ x, (x < a ∨ a + bs.length ≤ x) → poolByte (poolPut a bs s) x = poolByte s x)

/-- A short stamp extends by the reference's upper half, or that minus 1 (R11). -/
def Obligations.ShortStampsExtend : Prop :=
  ∀ (short ref : Nat), short < 2 ^ 32 → ref < 2 ^ 64 →
    (short ≤ ref % 2 ^ 32 → extendShort short ref = ref / 2 ^ 32 * 2 ^ 32 + short) ∧
    (ref % 2 ^ 32 < short → extendShort short ref % 2 ^ 32 = short ∧
      (extendShort short ref / 2 ^ 32 : Int) % 2 ^ 32 = ((ref / 2 ^ 32 : Int) - 1) % 2 ^ 32) ∧
    (∀ time, time ≤ ref → (extendShort (time % 2 ^ 32) ref = time ↔ ref - time < 2 ^ 32))

/-- Stamps are ordered by time, then source, then sequence (R68). -/
def Obligations.StampsAreOrdered : Prop :=
  ∀ (a b : Stamp), a.seq < 65536 → b.seq < 65536 →
    (a.time ≠ b.time → (stampLt a b = true ↔ a.time < b.time)) ∧
    (a.time = b.time → a.src ≠ b.src → (stampLt a b = true ↔ a.src < b.src)) ∧
    (a.time = b.time → a.src = b.src → (stampLt a b = true ↔
      1 ≤ ((b.seq : Int) - a.seq) % 65536 ∧ ((b.seq : Int) - a.seq) % 65536 ≤ 32767)) ∧
    (a ≠ b → (a.time ≠ b.time ∨ a.src ≠ b.src ∨ ((b.seq : Int) - a.seq) % 65536 ≤ 15 ∨ ((a.seq : Int) - b.seq) % 65536 ≤ 15) →
      (stampLt a b = true ↔ stampLt b a = false))

/-- The CRC-32C and the field arithmetic give their known values (00_scope.md, 11_stripes_and_repair.md). -/
def Obligations.CheckCodesAreRight : Prop :=
  crc32c [0x31, 0x32, 0x33, 0x34, 0x35, 0x36, 0x37, 0x38, 0x39] = 0xE3069283 ∧ gfMul 1 0x53 = 0x53 ∧ gfMul 2 0x80 = 0x1D ∧
    msecs 1000 = secs 1 ∧ usecs 1 = 17
end

