-- ==== Sys2Proof/Laws/Bytes.lean ====
section
/-!
SUPPORT. Sys2Proof/Laws/Bytes.lean: little-endian numbers among bytes, the reach of a CRC-32C, and a record that ends in its own check.
-/
namespace Sys2Proof.Machine

@[simp] theorem length_leBytes (n v : Nat) : (leBytes n v).length = n := by
  induction n generalizing v with
  | zero => rfl
  | succ n ih => simp [leBytes, ih]

theorem leNat_leBytes (n v : Nat) : leNat (leBytes n v) = v % 256 ^ n := by
  induction n generalizing v with
  | zero => simp [leBytes, leNat, Nat.mod_one]
  | succ n ih =>
    simp only [leBytes, leNat, ih, BitVec.toNat_ofNat]
    exact (Nat.mod_mul (x := v) (a := 256) (b := 256 ^ n)).symm.trans (by rw [Nat.pow_succ'])

/-- A number written behind `bs` is read there. -/
theorem leAt_behind (bs rest : List (BitVec 8)) (n v : Nat) : leAt (bs ++ (leBytes n v ++ rest)) bs.length n = v % 256 ^ n := by
  simp [leAt, leNat_leBytes]

theorem crc32cBit_lt {r : Nat} (h : r < 2 ^ 32) : crc32cBit r < 2 ^ 32 := by
  unfold crc32cBit
  split
  · exact Nat.xor_lt_two_pow (by omega) (by decide)
  · omega

theorem crc32cBits_lt (n : Nat) {r : Nat} (h : r < 2 ^ 32) : crc32cBits n r < 2 ^ 32 := by
  induction n generalizing r with
  | zero => exact h
  | succ n ih => exact ih (crc32cBit_lt h)

theorem crc32cFrom_lt (bs : List (BitVec 8)) {r : Nat} (h : r < 2 ^ 32) : crc32cFrom bs r < 2 ^ 32 := by
  induction bs generalizing r with
  | nil => exact h
  | cons b bs ih => exact ih (crc32cBits_lt 8 (Nat.xor_lt_two_pow h (by have := b.isLt; omega)))

/-- A CRC-32C has 32 bits. -/
theorem crc32c_lt (bs : List (BitVec 8)) : crc32c bs < 2 ^ 32 :=
  Nat.xor_lt_two_pow (crc32cFrom_lt bs (by decide)) (by decide)

/-- A CRC-32C written behind `bs` is read there. -/
theorem leAt_crc (bs rest x : List (BitVec 8)) : leAt (bs ++ (leBytes 4 (crc32c x) ++ rest)) bs.length 4 = crc32c x := by
  exact (leAt_behind bs rest 4 _).trans (Nat.mod_eq_of_lt (Nat.lt_of_lt_of_le (crc32c_lt x) (by decide)))

/-- A record that ends in the CRC-32C of the bytes before it passes its check. -/
theorem crc32c_behind (bs rest : List (BitVec 8)) :
    crc32c ((bs ++ (leBytes 4 (crc32c bs) ++ rest)).take bs.length) = leAt (bs ++ (leBytes 4 (crc32c bs) ++ rest)) bs.length 4 := by
  rw [leAt_crc, List.take_left]

end Sys2Proof.Machine
end

