-- ==== Sys2Proof/Laws/State.lean ====
section
/-!
SUPPORT. Sys2Proof/Laws/State.lean: what each update of the state leaves as it was, one lemma per field per update.
-/
namespace Sys2Proof.Machine

variable (s : State)

/-! ### wr -/

@[simp] theorem wr_copies (b : Nat) (f : Field) (v : Nat) : (wr b f v s).copies = s.copies := rfl
@[simp] theorem wr_pairs (b : Nat) (f : Field) (v : Nat) : (wr b f v s).pairs = s.pairs := rfl
@[simp] theorem wr_time (b : Nat) (f : Field) (v : Nat) : (wr b f v s).time = s.time := rfl
@[simp] theorem wr_pwr (b : Nat) (f : Field) (v : Nat) : (wr b f v s).pwr = s.pwr := rfl
@[simp] theorem wr_fab (b : Nat) (f : Field) (v : Nat) : (wr b f v s).fab = s.fab := rfl
@[simp] theorem wr_ports (b : Nat) (f : Field) (v : Nat) : (wr b f v s).ports = s.ports := rfl
@[simp] theorem wr_acts (b : Nat) (f : Field) (v : Nat) : (wr b f v s).acts = s.acts := rfl
@[simp] theorem wr_stores (b : Nat) (f : Field) (v : Nat) : (wr b f v s).stores = s.stores := rfl
@[simp] theorem wr_sluice (b : Nat) (f : Field) (v : Nat) : (wr b f v s).sluice = s.sluice := rfl
@[simp] theorem wr_loops (b : Nat) (f : Field) (v : Nat) : (wr b f v s).loops = s.loops := rfl
@[simp] theorem wr_dec (b : Nat) (f : Field) (v : Nat) : (wr b f v s).dec = s.dec := rfl
@[simp] theorem wr_led (b : Nat) (f : Field) (v : Nat) : (wr b f v s).led = s.led := rfl
@[simp] theorem wr_str (b : Nat) (f : Field) (v : Nat) : (wr b f v s).str = s.str := rfl
@[simp] theorem wr_pool (b : Nat) (f : Field) (v : Nat) : (wr b f v s).pool = s.pool := rfl
@[simp] theorem wr_mov (b : Nat) (f : Field) (v : Nat) : (wr b f v s).mov = s.mov := rfl
@[simp] theorem wr_rsv (b : Nat) (f : Field) (v : Nat) : (wr b f v s).rsv = s.rsv := rfl
@[simp] theorem wr_obj (b : Nat) (f : Field) (v : Nat) : (wr b f v s).obj = s.obj := rfl
@[simp] theorem wr_asy (b : Nat) (f : Field) (v : Nat) : (wr b f v s).asy = s.asy := rfl
@[simp] theorem wr_rst (b : Nat) (f : Field) (v : Nat) : (wr b f v s).rst = s.rst := rfl
@[simp] theorem wr_cfg (b : Nat) (f : Field) (v : Nat) : (wr b f v s).cfg = s.cfg := rfl
@[simp] theorem wr_flt (b : Nat) (f : Field) (v : Nat) : (wr b f v s).flt = s.flt := rfl
@[simp] theorem wr_day (b : Nat) (f : Field) (v : Nat) : (wr b f v s).day = s.day := rfl
@[simp] theorem wr_bur (b : Nat) (f : Field) (v : Nat) : (wr b f v s).bur = s.bur := rfl
@[simp] theorem wr_out (b : Nat) (f : Field) (v : Nat) : (wr b f v s).out = s.out := rfl
@[simp] theorem wr_free (b : Nat) (f : Field) (v : Nat) : (wr b f v s).free = s.free := rfl
@[simp] theorem wr_pending (b : Nat) (f : Field) (v : Nat) : (wr b f v s).pending = s.pending := rfl

/-! ### setF -/

@[simp] theorem setF_copies (b : Nat) (f : Field) (v : Bool) : (setF b f v s).copies = s.copies := rfl
@[simp] theorem setF_pairs (b : Nat) (f : Field) (v : Bool) : (setF b f v s).pairs = s.pairs := rfl
@[simp] theorem setF_time (b : Nat) (f : Field) (v : Bool) : (setF b f v s).time = s.time := rfl
@[simp] theorem setF_pwr (b : Nat) (f : Field) (v : Bool) : (setF b f v s).pwr = s.pwr := rfl
@[simp] theorem setF_fab (b : Nat) (f : Field) (v : Bool) : (setF b f v s).fab = s.fab := rfl
@[simp] theorem setF_ports (b : Nat) (f : Field) (v : Bool) : (setF b f v s).ports = s.ports := rfl
@[simp] theorem setF_acts (b : Nat) (f : Field) (v : Bool) : (setF b f v s).acts = s.acts := rfl
@[simp] theorem setF_stores (b : Nat) (f : Field) (v : Bool) : (setF b f v s).stores = s.stores := rfl
@[simp] theorem setF_sluice (b : Nat) (f : Field) (v : Bool) : (setF b f v s).sluice = s.sluice := rfl
@[simp] theorem setF_loops (b : Nat) (f : Field) (v : Bool) : (setF b f v s).loops = s.loops := rfl
@[simp] theorem setF_dec (b : Nat) (f : Field) (v : Bool) : (setF b f v s).dec = s.dec := rfl
@[simp] theorem setF_led (b : Nat) (f : Field) (v : Bool) : (setF b f v s).led = s.led := rfl
@[simp] theorem setF_str (b : Nat) (f : Field) (v : Bool) : (setF b f v s).str = s.str := rfl
@[simp] theorem setF_pool (b : Nat) (f : Field) (v : Bool) : (setF b f v s).pool = s.pool := rfl
@[simp] theorem setF_mov (b : Nat) (f : Field) (v : Bool) : (setF b f v s).mov = s.mov := rfl
@[simp] theorem setF_rsv (b : Nat) (f : Field) (v : Bool) : (setF b f v s).rsv = s.rsv := rfl
@[simp] theorem setF_obj (b : Nat) (f : Field) (v : Bool) : (setF b f v s).obj = s.obj := rfl
@[simp] theorem setF_asy (b : Nat) (f : Field) (v : Bool) : (setF b f v s).asy = s.asy := rfl
@[simp] theorem setF_rst (b : Nat) (f : Field) (v : Bool) : (setF b f v s).rst = s.rst := rfl
@[simp] theorem setF_cfg (b : Nat) (f : Field) (v : Bool) : (setF b f v s).cfg = s.cfg := rfl
@[simp] theorem setF_flt (b : Nat) (f : Field) (v : Bool) : (setF b f v s).flt = s.flt := rfl
@[simp] theorem setF_day (b : Nat) (f : Field) (v : Bool) : (setF b f v s).day = s.day := rfl
@[simp] theorem setF_bur (b : Nat) (f : Field) (v : Bool) : (setF b f v s).bur = s.bur := rfl
@[simp] theorem setF_out (b : Nat) (f : Field) (v : Bool) : (setF b f v s).out = s.out := rfl
@[simp] theorem setF_free (b : Nat) (f : Field) (v : Bool) : (setF b f v s).free = s.free := rfl
@[simp] theorem setF_pending (b : Nat) (f : Field) (v : Bool) : (setF b f v s).pending = s.pending := rfl

/-! ### incF -/

@[simp] theorem incF_copies (b : Nat) (f : Field) : (incF b f s).copies = s.copies := rfl
@[simp] theorem incF_pairs (b : Nat) (f : Field) : (incF b f s).pairs = s.pairs := rfl
@[simp] theorem incF_time (b : Nat) (f : Field) : (incF b f s).time = s.time := rfl
@[simp] theorem incF_pwr (b : Nat) (f : Field) : (incF b f s).pwr = s.pwr := rfl
@[simp] theorem incF_fab (b : Nat) (f : Field) : (incF b f s).fab = s.fab := rfl
@[simp] theorem incF_ports (b : Nat) (f : Field) : (incF b f s).ports = s.ports := rfl
@[simp] theorem incF_acts (b : Nat) (f : Field) : (incF b f s).acts = s.acts := rfl
@[simp] theorem incF_stores (b : Nat) (f : Field) : (incF b f s).stores = s.stores := rfl
@[simp] theorem incF_sluice (b : Nat) (f : Field) : (incF b f s).sluice = s.sluice := rfl
@[simp] theorem incF_loops (b : Nat) (f : Field) : (incF b f s).loops = s.loops := rfl
@[simp] theorem incF_dec (b : Nat) (f : Field) : (incF b f s).dec = s.dec := rfl
@[simp] theorem incF_led (b : Nat) (f : Field) : (incF b f s).led = s.led := rfl
@[simp] theorem incF_str (b : Nat) (f : Field) : (incF b f s).str = s.str := rfl
@[simp] theorem incF_pool (b : Nat) (f : Field) : (incF b f s).pool = s.pool := rfl
@[simp] theorem incF_mov (b : Nat) (f : Field) : (incF b f s).mov = s.mov := rfl
@[simp] theorem incF_rsv (b : Nat) (f : Field) : (incF b f s).rsv = s.rsv := rfl
@[simp] theorem incF_obj (b : Nat) (f : Field) : (incF b f s).obj = s.obj := rfl
@[simp] theorem incF_asy (b : Nat) (f : Field) : (incF b f s).asy = s.asy := rfl
@[simp] theorem incF_rst (b : Nat) (f : Field) : (incF b f s).rst = s.rst := rfl
@[simp] theorem incF_cfg (b : Nat) (f : Field) : (incF b f s).cfg = s.cfg := rfl
@[simp] theorem incF_flt (b : Nat) (f : Field) : (incF b f s).flt = s.flt := rfl
@[simp] theorem incF_day (b : Nat) (f : Field) : (incF b f s).day = s.day := rfl
@[simp] theorem incF_bur (b : Nat) (f : Field) : (incF b f s).bur = s.bur := rfl
@[simp] theorem incF_out (b : Nat) (f : Field) : (incF b f s).out = s.out := rfl
@[simp] theorem incF_free (b : Nat) (f : Field) : (incF b f s).free = s.free := rfl
@[simp] theorem incF_pending (b : Nat) (f : Field) : (incF b f s).pending = s.pending := rfl

/-! ### addF -/

@[simp] theorem addF_copies (b : Nat) (f : Field) (n : Nat) : (addF b f n s).copies = s.copies := rfl
@[simp] theorem addF_pairs (b : Nat) (f : Field) (n : Nat) : (addF b f n s).pairs = s.pairs := rfl
@[simp] theorem addF_time (b : Nat) (f : Field) (n : Nat) : (addF b f n s).time = s.time := rfl
@[simp] theorem addF_pwr (b : Nat) (f : Field) (n : Nat) : (addF b f n s).pwr = s.pwr := rfl
@[simp] theorem addF_fab (b : Nat) (f : Field) (n : Nat) : (addF b f n s).fab = s.fab := rfl
@[simp] theorem addF_ports (b : Nat) (f : Field) (n : Nat) : (addF b f n s).ports = s.ports := rfl
@[simp] theorem addF_acts (b : Nat) (f : Field) (n : Nat) : (addF b f n s).acts = s.acts := rfl
@[simp] theorem addF_stores (b : Nat) (f : Field) (n : Nat) : (addF b f n s).stores = s.stores := rfl
@[simp] theorem addF_sluice (b : Nat) (f : Field) (n : Nat) : (addF b f n s).sluice = s.sluice := rfl
@[simp] theorem addF_loops (b : Nat) (f : Field) (n : Nat) : (addF b f n s).loops = s.loops := rfl
@[simp] theorem addF_dec (b : Nat) (f : Field) (n : Nat) : (addF b f n s).dec = s.dec := rfl
@[simp] theorem addF_led (b : Nat) (f : Field) (n : Nat) : (addF b f n s).led = s.led := rfl
@[simp] theorem addF_str (b : Nat) (f : Field) (n : Nat) : (addF b f n s).str = s.str := rfl
@[simp] theorem addF_pool (b : Nat) (f : Field) (n : Nat) : (addF b f n s).pool = s.pool := rfl
@[simp] theorem addF_mov (b : Nat) (f : Field) (n : Nat) : (addF b f n s).mov = s.mov := rfl
@[simp] theorem addF_rsv (b : Nat) (f : Field) (n : Nat) : (addF b f n s).rsv = s.rsv := rfl
@[simp] theorem addF_obj (b : Nat) (f : Field) (n : Nat) : (addF b f n s).obj = s.obj := rfl
@[simp] theorem addF_asy (b : Nat) (f : Field) (n : Nat) : (addF b f n s).asy = s.asy := rfl
@[simp] theorem addF_rst (b : Nat) (f : Field) (n : Nat) : (addF b f n s).rst = s.rst := rfl
@[simp] theorem addF_cfg (b : Nat) (f : Field) (n : Nat) : (addF b f n s).cfg = s.cfg := rfl
@[simp] theorem addF_flt (b : Nat) (f : Field) (n : Nat) : (addF b f n s).flt = s.flt := rfl
@[simp] theorem addF_day (b : Nat) (f : Field) (n : Nat) : (addF b f n s).day = s.day := rfl
@[simp] theorem addF_bur (b : Nat) (f : Field) (n : Nat) : (addF b f n s).bur = s.bur := rfl
@[simp] theorem addF_out (b : Nat) (f : Field) (n : Nat) : (addF b f n s).out = s.out := rfl
@[simp] theorem addF_free (b : Nat) (f : Field) (n : Nat) : (addF b f n s).free = s.free := rfl
@[simp] theorem addF_pending (b : Nat) (f : Field) (n : Nat) : (addF b f n s).pending = s.pending := rfl

/-! ### pairSet -/

@[simp] theorem pairSet_regs (a v : Nat) : (pairSet a v s).regs = s.regs := rfl
@[simp] theorem pairSet_copies (a v : Nat) : (pairSet a v s).copies = s.copies := rfl
@[simp] theorem pairSet_time (a v : Nat) : (pairSet a v s).time = s.time := rfl
@[simp] theorem pairSet_pwr (a v : Nat) : (pairSet a v s).pwr = s.pwr := rfl
@[simp] theorem pairSet_fab (a v : Nat) : (pairSet a v s).fab = s.fab := rfl
@[simp] theorem pairSet_ports (a v : Nat) : (pairSet a v s).ports = s.ports := rfl
@[simp] theorem pairSet_acts (a v : Nat) : (pairSet a v s).acts = s.acts := rfl
@[simp] theorem pairSet_stores (a v : Nat) : (pairSet a v s).stores = s.stores := rfl
@[simp] theorem pairSet_sluice (a v : Nat) : (pairSet a v s).sluice = s.sluice := rfl
@[simp] theorem pairSet_loops (a v : Nat) : (pairSet a v s).loops = s.loops := rfl
@[simp] theorem pairSet_dec (a v : Nat) : (pairSet a v s).dec = s.dec := rfl
@[simp] theorem pairSet_led (a v : Nat) : (pairSet a v s).led = s.led := rfl
@[simp] theorem pairSet_str (a v : Nat) : (pairSet a v s).str = s.str := rfl
@[simp] theorem pairSet_pool (a v : Nat) : (pairSet a v s).pool = s.pool := rfl
@[simp] theorem pairSet_mov (a v : Nat) : (pairSet a v s).mov = s.mov := rfl
@[simp] theorem pairSet_rsv (a v : Nat) : (pairSet a v s).rsv = s.rsv := rfl
@[simp] theorem pairSet_obj (a v : Nat) : (pairSet a v s).obj = s.obj := rfl
@[simp] theorem pairSet_asy (a v : Nat) : (pairSet a v s).asy = s.asy := rfl
@[simp] theorem pairSet_rst (a v : Nat) : (pairSet a v s).rst = s.rst := rfl
@[simp] theorem pairSet_cfg (a v : Nat) : (pairSet a v s).cfg = s.cfg := rfl
@[simp] theorem pairSet_flt (a v : Nat) : (pairSet a v s).flt = s.flt := rfl
@[simp] theorem pairSet_day (a v : Nat) : (pairSet a v s).day = s.day := rfl
@[simp] theorem pairSet_bur (a v : Nat) : (pairSet a v s).bur = s.bur := rfl
@[simp] theorem pairSet_out (a v : Nat) : (pairSet a v s).out = s.out := rfl
@[simp] theorem pairSet_free (a v : Nat) : (pairSet a v s).free = s.free := rfl
@[simp] theorem pairSet_pending (a v : Nat) : (pairSet a v s).pending = s.pending := rfl

/-! ### pairAdd -/

@[simp] theorem pairAdd_regs (a v : Nat) : (pairAdd a v s).regs = s.regs := rfl
@[simp] theorem pairAdd_copies (a v : Nat) : (pairAdd a v s).copies = s.copies := rfl
@[simp] theorem pairAdd_time (a v : Nat) : (pairAdd a v s).time = s.time := rfl
@[simp] theorem pairAdd_pwr (a v : Nat) : (pairAdd a v s).pwr = s.pwr := rfl
@[simp] theorem pairAdd_fab (a v : Nat) : (pairAdd a v s).fab = s.fab := rfl
@[simp] theorem pairAdd_ports (a v : Nat) : (pairAdd a v s).ports = s.ports := rfl
@[simp] theorem pairAdd_acts (a v : Nat) : (pairAdd a v s).acts = s.acts := rfl
@[simp] theorem pairAdd_stores (a v : Nat) : (pairAdd a v s).stores = s.stores := rfl
@[simp] theorem pairAdd_sluice (a v : Nat) : (pairAdd a v s).sluice = s.sluice := rfl
@[simp] theorem pairAdd_loops (a v : Nat) : (pairAdd a v s).loops = s.loops := rfl
@[simp] theorem pairAdd_dec (a v : Nat) : (pairAdd a v s).dec = s.dec := rfl
@[simp] theorem pairAdd_led (a v : Nat) : (pairAdd a v s).led = s.led := rfl
@[simp] theorem pairAdd_str (a v : Nat) : (pairAdd a v s).str = s.str := rfl
@[simp] theorem pairAdd_pool (a v : Nat) : (pairAdd a v s).pool = s.pool := rfl
@[simp] theorem pairAdd_mov (a v : Nat) : (pairAdd a v s).mov = s.mov := rfl
@[simp] theorem pairAdd_rsv (a v : Nat) : (pairAdd a v s).rsv = s.rsv := rfl
@[simp] theorem pairAdd_obj (a v : Nat) : (pairAdd a v s).obj = s.obj := rfl
@[simp] theorem pairAdd_asy (a v : Nat) : (pairAdd a v s).asy = s.asy := rfl
@[simp] theorem pairAdd_rst (a v : Nat) : (pairAdd a v s).rst = s.rst := rfl
@[simp] theorem pairAdd_cfg (a v : Nat) : (pairAdd a v s).cfg = s.cfg := rfl
@[simp] theorem pairAdd_flt (a v : Nat) : (pairAdd a v s).flt = s.flt := rfl
@[simp] theorem pairAdd_day (a v : Nat) : (pairAdd a v s).day = s.day := rfl
@[simp] theorem pairAdd_bur (a v : Nat) : (pairAdd a v s).bur = s.bur := rfl
@[simp] theorem pairAdd_out (a v : Nat) : (pairAdd a v s).out = s.out := rfl
@[simp] theorem pairAdd_free (a v : Nat) : (pairAdd a v s).free = s.free := rfl
@[simp] theorem pairAdd_pending (a v : Nat) : (pairAdd a v s).pending = s.pending := rfl

/-! ### modAct -/

@[simp] theorem modAct_regs (a : Nat) (f : Act → Act) : (modAct a f s).regs = s.regs := rfl
@[simp] theorem modAct_copies (a : Nat) (f : Act → Act) : (modAct a f s).copies = s.copies := rfl
@[simp] theorem modAct_pairs (a : Nat) (f : Act → Act) : (modAct a f s).pairs = s.pairs := rfl
@[simp] theorem modAct_time (a : Nat) (f : Act → Act) : (modAct a f s).time = s.time := rfl
@[simp] theorem modAct_pwr (a : Nat) (f : Act → Act) : (modAct a f s).pwr = s.pwr := rfl
@[simp] theorem modAct_fab (a : Nat) (f : Act → Act) : (modAct a f s).fab = s.fab := rfl
@[simp] theorem modAct_ports (a : Nat) (f : Act → Act) : (modAct a f s).ports = s.ports := rfl
@[simp] theorem modAct_stores (a : Nat) (f : Act → Act) : (modAct a f s).stores = s.stores := rfl
@[simp] theorem modAct_sluice (a : Nat) (f : Act → Act) : (modAct a f s).sluice = s.sluice := rfl
@[simp] theorem modAct_loops (a : Nat) (f : Act → Act) : (modAct a f s).loops = s.loops := rfl
@[simp] theorem modAct_dec (a : Nat) (f : Act → Act) : (modAct a f s).dec = s.dec := rfl
@[simp] theorem modAct_led (a : Nat) (f : Act → Act) : (modAct a f s).led = s.led := rfl
@[simp] theorem modAct_str (a : Nat) (f : Act → Act) : (modAct a f s).str = s.str := rfl
@[simp] theorem modAct_pool (a : Nat) (f : Act → Act) : (modAct a f s).pool = s.pool := rfl
@[simp] theorem modAct_mov (a : Nat) (f : Act → Act) : (modAct a f s).mov = s.mov := rfl
@[simp] theorem modAct_rsv (a : Nat) (f : Act → Act) : (modAct a f s).rsv = s.rsv := rfl
@[simp] theorem modAct_obj (a : Nat) (f : Act → Act) : (modAct a f s).obj = s.obj := rfl
@[simp] theorem modAct_asy (a : Nat) (f : Act → Act) : (modAct a f s).asy = s.asy := rfl
@[simp] theorem modAct_rst (a : Nat) (f : Act → Act) : (modAct a f s).rst = s.rst := rfl
@[simp] theorem modAct_cfg (a : Nat) (f : Act → Act) : (modAct a f s).cfg = s.cfg := rfl
@[simp] theorem modAct_flt (a : Nat) (f : Act → Act) : (modAct a f s).flt = s.flt := rfl
@[simp] theorem modAct_day (a : Nat) (f : Act → Act) : (modAct a f s).day = s.day := rfl
@[simp] theorem modAct_bur (a : Nat) (f : Act → Act) : (modAct a f s).bur = s.bur := rfl
@[simp] theorem modAct_out (a : Nat) (f : Act → Act) : (modAct a f s).out = s.out := rfl
@[simp] theorem modAct_free (a : Nat) (f : Act → Act) : (modAct a f s).free = s.free := rfl
@[simp] theorem modAct_pending (a : Nat) (f : Act → Act) : (modAct a f s).pending = s.pending := rfl

/-! ### modPort -/

@[simp] theorem modPort_regs (n : Nat) (f : Port → Port) : (modPort n f s).regs = s.regs := rfl
@[simp] theorem modPort_copies (n : Nat) (f : Port → Port) : (modPort n f s).copies = s.copies := rfl
@[simp] theorem modPort_pairs (n : Nat) (f : Port → Port) : (modPort n f s).pairs = s.pairs := rfl
@[simp] theorem modPort_time (n : Nat) (f : Port → Port) : (modPort n f s).time = s.time := rfl
@[simp] theorem modPort_pwr (n : Nat) (f : Port → Port) : (modPort n f s).pwr = s.pwr := rfl
@[simp] theorem modPort_fab (n : Nat) (f : Port → Port) : (modPort n f s).fab = s.fab := rfl
@[simp] theorem modPort_acts (n : Nat) (f : Port → Port) : (modPort n f s).acts = s.acts := rfl
@[simp] theorem modPort_stores (n : Nat) (f : Port → Port) : (modPort n f s).stores = s.stores := rfl
@[simp] theorem modPort_sluice (n : Nat) (f : Port → Port) : (modPort n f s).sluice = s.sluice := rfl
@[simp] theorem modPort_loops (n : Nat) (f : Port → Port) : (modPort n f s).loops = s.loops := rfl
@[simp] theorem modPort_dec (n : Nat) (f : Port → Port) : (modPort n f s).dec = s.dec := rfl
@[simp] theorem modPort_led (n : Nat) (f : Port → Port) : (modPort n f s).led = s.led := rfl
@[simp] theorem modPort_str (n : Nat) (f : Port → Port) : (modPort n f s).str = s.str := rfl
@[simp] theorem modPort_pool (n : Nat) (f : Port → Port) : (modPort n f s).pool = s.pool := rfl
@[simp] theorem modPort_mov (n : Nat) (f : Port → Port) : (modPort n f s).mov = s.mov := rfl
@[simp] theorem modPort_rsv (n : Nat) (f : Port → Port) : (modPort n f s).rsv = s.rsv := rfl
@[simp] theorem modPort_obj (n : Nat) (f : Port → Port) : (modPort n f s).obj = s.obj := rfl
@[simp] theorem modPort_asy (n : Nat) (f : Port → Port) : (modPort n f s).asy = s.asy := rfl
@[simp] theorem modPort_rst (n : Nat) (f : Port → Port) : (modPort n f s).rst = s.rst := rfl
@[simp] theorem modPort_cfg (n : Nat) (f : Port → Port) : (modPort n f s).cfg = s.cfg := rfl
@[simp] theorem modPort_flt (n : Nat) (f : Port → Port) : (modPort n f s).flt = s.flt := rfl
@[simp] theorem modPort_day (n : Nat) (f : Port → Port) : (modPort n f s).day = s.day := rfl
@[simp] theorem modPort_bur (n : Nat) (f : Port → Port) : (modPort n f s).bur = s.bur := rfl
@[simp] theorem modPort_out (n : Nat) (f : Port → Port) : (modPort n f s).out = s.out := rfl
@[simp] theorem modPort_free (n : Nat) (f : Port → Port) : (modPort n f s).free = s.free := rfl
@[simp] theorem modPort_pending (n : Nat) (f : Port → Port) : (modPort n f s).pending = s.pending := rfl

/-! ### modLoop -/

@[simp] theorem modLoop_regs (i : Nat) (f : LoopSt → LoopSt) : (modLoop i f s).regs = s.regs := rfl
@[simp] theorem modLoop_copies (i : Nat) (f : LoopSt → LoopSt) : (modLoop i f s).copies = s.copies := rfl
@[simp] theorem modLoop_pairs (i : Nat) (f : LoopSt → LoopSt) : (modLoop i f s).pairs = s.pairs := rfl
@[simp] theorem modLoop_time (i : Nat) (f : LoopSt → LoopSt) : (modLoop i f s).time = s.time := rfl
@[simp] theorem modLoop_pwr (i : Nat) (f : LoopSt → LoopSt) : (modLoop i f s).pwr = s.pwr := rfl
@[simp] theorem modLoop_fab (i : Nat) (f : LoopSt → LoopSt) : (modLoop i f s).fab = s.fab := rfl
@[simp] theorem modLoop_ports (i : Nat) (f : LoopSt → LoopSt) : (modLoop i f s).ports = s.ports := rfl
@[simp] theorem modLoop_acts (i : Nat) (f : LoopSt → LoopSt) : (modLoop i f s).acts = s.acts := rfl
@[simp] theorem modLoop_stores (i : Nat) (f : LoopSt → LoopSt) : (modLoop i f s).stores = s.stores := rfl
@[simp] theorem modLoop_sluice (i : Nat) (f : LoopSt → LoopSt) : (modLoop i f s).sluice = s.sluice := rfl
@[simp] theorem modLoop_dec (i : Nat) (f : LoopSt → LoopSt) : (modLoop i f s).dec = s.dec := rfl
@[simp] theorem modLoop_led (i : Nat) (f : LoopSt → LoopSt) : (modLoop i f s).led = s.led := rfl
@[simp] theorem modLoop_str (i : Nat) (f : LoopSt → LoopSt) : (modLoop i f s).str = s.str := rfl
@[simp] theorem modLoop_pool (i : Nat) (f : LoopSt → LoopSt) : (modLoop i f s).pool = s.pool := rfl
@[simp] theorem modLoop_mov (i : Nat) (f : LoopSt → LoopSt) : (modLoop i f s).mov = s.mov := rfl
@[simp] theorem modLoop_rsv (i : Nat) (f : LoopSt → LoopSt) : (modLoop i f s).rsv = s.rsv := rfl
@[simp] theorem modLoop_obj (i : Nat) (f : LoopSt → LoopSt) : (modLoop i f s).obj = s.obj := rfl
@[simp] theorem modLoop_asy (i : Nat) (f : LoopSt → LoopSt) : (modLoop i f s).asy = s.asy := rfl
@[simp] theorem modLoop_rst (i : Nat) (f : LoopSt → LoopSt) : (modLoop i f s).rst = s.rst := rfl
@[simp] theorem modLoop_cfg (i : Nat) (f : LoopSt → LoopSt) : (modLoop i f s).cfg = s.cfg := rfl
@[simp] theorem modLoop_flt (i : Nat) (f : LoopSt → LoopSt) : (modLoop i f s).flt = s.flt := rfl
@[simp] theorem modLoop_day (i : Nat) (f : LoopSt → LoopSt) : (modLoop i f s).day = s.day := rfl
@[simp] theorem modLoop_bur (i : Nat) (f : LoopSt → LoopSt) : (modLoop i f s).bur = s.bur := rfl
@[simp] theorem modLoop_out (i : Nat) (f : LoopSt → LoopSt) : (modLoop i f s).out = s.out := rfl
@[simp] theorem modLoop_free (i : Nat) (f : LoopSt → LoopSt) : (modLoop i f s).free = s.free := rfl
@[simp] theorem modLoop_pending (i : Nat) (f : LoopSt → LoopSt) : (modLoop i f s).pending = s.pending := rfl

/-! ### modCtrl -/

@[simp] theorem modCtrl_regs (h : Nat) (f : Ctrl → Ctrl) : (modCtrl h f s).regs = s.regs := rfl
@[simp] theorem modCtrl_copies (h : Nat) (f : Ctrl → Ctrl) : (modCtrl h f s).copies = s.copies := rfl
@[simp] theorem modCtrl_pairs (h : Nat) (f : Ctrl → Ctrl) : (modCtrl h f s).pairs = s.pairs := rfl
@[simp] theorem modCtrl_time (h : Nat) (f : Ctrl → Ctrl) : (modCtrl h f s).time = s.time := rfl
@[simp] theorem modCtrl_pwr (h : Nat) (f : Ctrl → Ctrl) : (modCtrl h f s).pwr = s.pwr := rfl
@[simp] theorem modCtrl_fab (h : Nat) (f : Ctrl → Ctrl) : (modCtrl h f s).fab = s.fab := rfl
@[simp] theorem modCtrl_ports (h : Nat) (f : Ctrl → Ctrl) : (modCtrl h f s).ports = s.ports := rfl
@[simp] theorem modCtrl_acts (h : Nat) (f : Ctrl → Ctrl) : (modCtrl h f s).acts = s.acts := rfl
@[simp] theorem modCtrl_stores (h : Nat) (f : Ctrl → Ctrl) : (modCtrl h f s).stores = s.stores := rfl
@[simp] theorem modCtrl_sluice (h : Nat) (f : Ctrl → Ctrl) : (modCtrl h f s).sluice = s.sluice := rfl
@[simp] theorem modCtrl_loops (h : Nat) (f : Ctrl → Ctrl) : (modCtrl h f s).loops = s.loops := rfl
@[simp] theorem modCtrl_dec (h : Nat) (f : Ctrl → Ctrl) : (modCtrl h f s).dec = s.dec := rfl
@[simp] theorem modCtrl_led (h : Nat) (f : Ctrl → Ctrl) : (modCtrl h f s).led = s.led := rfl
@[simp] theorem modCtrl_str (h : Nat) (f : Ctrl → Ctrl) : (modCtrl h f s).str = s.str := rfl
@[simp] theorem modCtrl_pool (h : Nat) (f : Ctrl → Ctrl) : (modCtrl h f s).pool = s.pool := rfl
@[simp] theorem modCtrl_mov (h : Nat) (f : Ctrl → Ctrl) : (modCtrl h f s).mov = s.mov := rfl
@[simp] theorem modCtrl_rsv (h : Nat) (f : Ctrl → Ctrl) : (modCtrl h f s).rsv = s.rsv := rfl
@[simp] theorem modCtrl_asy (h : Nat) (f : Ctrl → Ctrl) : (modCtrl h f s).asy = s.asy := rfl
@[simp] theorem modCtrl_rst (h : Nat) (f : Ctrl → Ctrl) : (modCtrl h f s).rst = s.rst := rfl
@[simp] theorem modCtrl_cfg (h : Nat) (f : Ctrl → Ctrl) : (modCtrl h f s).cfg = s.cfg := rfl
@[simp] theorem modCtrl_flt (h : Nat) (f : Ctrl → Ctrl) : (modCtrl h f s).flt = s.flt := rfl
@[simp] theorem modCtrl_day (h : Nat) (f : Ctrl → Ctrl) : (modCtrl h f s).day = s.day := rfl
@[simp] theorem modCtrl_bur (h : Nat) (f : Ctrl → Ctrl) : (modCtrl h f s).bur = s.bur := rfl
@[simp] theorem modCtrl_out (h : Nat) (f : Ctrl → Ctrl) : (modCtrl h f s).out = s.out := rfl
@[simp] theorem modCtrl_free (h : Nat) (f : Ctrl → Ctrl) : (modCtrl h f s).free = s.free := rfl
@[simp] theorem modCtrl_pending (h : Nat) (f : Ctrl → Ctrl) : (modCtrl h f s).pending = s.pending := rfl

/-! ### modUnit -/

@[simp] theorem modUnit_regs (fb u : Nat) (f : FaultUnit → FaultUnit) : (modUnit fb u f s).regs = s.regs := rfl
@[simp] theorem modUnit_copies (fb u : Nat) (f : FaultUnit → FaultUnit) : (modUnit fb u f s).copies = s.copies := rfl
@[simp] theorem modUnit_pairs (fb u : Nat) (f : FaultUnit → FaultUnit) : (modUnit fb u f s).pairs = s.pairs := rfl
@[simp] theorem modUnit_time (fb u : Nat) (f : FaultUnit → FaultUnit) : (modUnit fb u f s).time = s.time := rfl
@[simp] theorem modUnit_pwr (fb u : Nat) (f : FaultUnit → FaultUnit) : (modUnit fb u f s).pwr = s.pwr := rfl
@[simp] theorem modUnit_fab (fb u : Nat) (f : FaultUnit → FaultUnit) : (modUnit fb u f s).fab = s.fab := rfl
@[simp] theorem modUnit_ports (fb u : Nat) (f : FaultUnit → FaultUnit) : (modUnit fb u f s).ports = s.ports := rfl
@[simp] theorem modUnit_acts (fb u : Nat) (f : FaultUnit → FaultUnit) : (modUnit fb u f s).acts = s.acts := rfl
@[simp] theorem modUnit_stores (fb u : Nat) (f : FaultUnit → FaultUnit) : (modUnit fb u f s).stores = s.stores := rfl
@[simp] theorem modUnit_sluice (fb u : Nat) (f : FaultUnit → FaultUnit) : (modUnit fb u f s).sluice = s.sluice := rfl
@[simp] theorem modUnit_loops (fb u : Nat) (f : FaultUnit → FaultUnit) : (modUnit fb u f s).loops = s.loops := rfl
@[simp] theorem modUnit_dec (fb u : Nat) (f : FaultUnit → FaultUnit) : (modUnit fb u f s).dec = s.dec := rfl
@[simp] theorem modUnit_led (fb u : Nat) (f : FaultUnit → FaultUnit) : (modUnit fb u f s).led = s.led := rfl
@[simp] theorem modUnit_str (fb u : Nat) (f : FaultUnit → FaultUnit) : (modUnit fb u f s).str = s.str := rfl
@[simp] theorem modUnit_pool (fb u : Nat) (f : FaultUnit → FaultUnit) : (modUnit fb u f s).pool = s.pool := rfl
@[simp] theorem modUnit_mov (fb u : Nat) (f : FaultUnit → FaultUnit) : (modUnit fb u f s).mov = s.mov := rfl
@[simp] theorem modUnit_rsv (fb u : Nat) (f : FaultUnit → FaultUnit) : (modUnit fb u f s).rsv = s.rsv := rfl
@[simp] theorem modUnit_obj (fb u : Nat) (f : FaultUnit → FaultUnit) : (modUnit fb u f s).obj = s.obj := rfl
@[simp] theorem modUnit_asy (fb u : Nat) (f : FaultUnit → FaultUnit) : (modUnit fb u f s).asy = s.asy := rfl
@[simp] theorem modUnit_rst (fb u : Nat) (f : FaultUnit → FaultUnit) : (modUnit fb u f s).rst = s.rst := rfl
@[simp] theorem modUnit_cfg (fb u : Nat) (f : FaultUnit → FaultUnit) : (modUnit fb u f s).cfg = s.cfg := rfl
@[simp] theorem modUnit_day (fb u : Nat) (f : FaultUnit → FaultUnit) : (modUnit fb u f s).day = s.day := rfl
@[simp] theorem modUnit_bur (fb u : Nat) (f : FaultUnit → FaultUnit) : (modUnit fb u f s).bur = s.bur := rfl
@[simp] theorem modUnit_out (fb u : Nat) (f : FaultUnit → FaultUnit) : (modUnit fb u f s).out = s.out := rfl
@[simp] theorem modUnit_free (fb u : Nat) (f : FaultUnit → FaultUnit) : (modUnit fb u f s).free = s.free := rfl
@[simp] theorem modUnit_pending (fb u : Nat) (f : FaultUnit → FaultUnit) : (modUnit fb u f s).pending = s.pending := rfl

/-! ### modChan -/

@[simp] theorem modChan_regs (c : Nat) (f : Chan → Chan) : (modChan c f s).regs = s.regs := rfl
@[simp] theorem modChan_copies (c : Nat) (f : Chan → Chan) : (modChan c f s).copies = s.copies := rfl
@[simp] theorem modChan_pairs (c : Nat) (f : Chan → Chan) : (modChan c f s).pairs = s.pairs := rfl
@[simp] theorem modChan_time (c : Nat) (f : Chan → Chan) : (modChan c f s).time = s.time := rfl
@[simp] theorem modChan_pwr (c : Nat) (f : Chan → Chan) : (modChan c f s).pwr = s.pwr := rfl
@[simp] theorem modChan_fab (c : Nat) (f : Chan → Chan) : (modChan c f s).fab = s.fab := rfl
@[simp] theorem modChan_ports (c : Nat) (f : Chan → Chan) : (modChan c f s).ports = s.ports := rfl
@[simp] theorem modChan_acts (c : Nat) (f : Chan → Chan) : (modChan c f s).acts = s.acts := rfl
@[simp] theorem modChan_stores (c : Nat) (f : Chan → Chan) : (modChan c f s).stores = s.stores := rfl
@[simp] theorem modChan_sluice (c : Nat) (f : Chan → Chan) : (modChan c f s).sluice = s.sluice := rfl
@[simp] theorem modChan_loops (c : Nat) (f : Chan → Chan) : (modChan c f s).loops = s.loops := rfl
@[simp] theorem modChan_dec (c : Nat) (f : Chan → Chan) : (modChan c f s).dec = s.dec := rfl
@[simp] theorem modChan_led (c : Nat) (f : Chan → Chan) : (modChan c f s).led = s.led := rfl
@[simp] theorem modChan_str (c : Nat) (f : Chan → Chan) : (modChan c f s).str = s.str := rfl
@[simp] theorem modChan_pool (c : Nat) (f : Chan → Chan) : (modChan c f s).pool = s.pool := rfl
@[simp] theorem modChan_rsv (c : Nat) (f : Chan → Chan) : (modChan c f s).rsv = s.rsv := rfl
@[simp] theorem modChan_obj (c : Nat) (f : Chan → Chan) : (modChan c f s).obj = s.obj := rfl
@[simp] theorem modChan_asy (c : Nat) (f : Chan → Chan) : (modChan c f s).asy = s.asy := rfl
@[simp] theorem modChan_rst (c : Nat) (f : Chan → Chan) : (modChan c f s).rst = s.rst := rfl
@[simp] theorem modChan_cfg (c : Nat) (f : Chan → Chan) : (modChan c f s).cfg = s.cfg := rfl
@[simp] theorem modChan_flt (c : Nat) (f : Chan → Chan) : (modChan c f s).flt = s.flt := rfl
@[simp] theorem modChan_day (c : Nat) (f : Chan → Chan) : (modChan c f s).day = s.day := rfl
@[simp] theorem modChan_bur (c : Nat) (f : Chan → Chan) : (modChan c f s).bur = s.bur := rfl
@[simp] theorem modChan_out (c : Nat) (f : Chan → Chan) : (modChan c f s).out = s.out := rfl
@[simp] theorem modChan_free (c : Nat) (f : Chan → Chan) : (modChan c f s).free = s.free := rfl
@[simp] theorem modChan_pending (c : Nat) (f : Chan → Chan) : (modChan c f s).pending = s.pending := rfl

/-! ### send -/

@[simp] theorem send_regs (r : Response) : (send r s).regs = s.regs := rfl
@[simp] theorem send_copies (r : Response) : (send r s).copies = s.copies := rfl
@[simp] theorem send_pairs (r : Response) : (send r s).pairs = s.pairs := rfl
@[simp] theorem send_time (r : Response) : (send r s).time = s.time := rfl
@[simp] theorem send_pwr (r : Response) : (send r s).pwr = s.pwr := rfl
@[simp] theorem send_fab (r : Response) : (send r s).fab = s.fab := rfl
@[simp] theorem send_ports (r : Response) : (send r s).ports = s.ports := rfl
@[simp] theorem send_acts (r : Response) : (send r s).acts = s.acts := rfl
@[simp] theorem send_stores (r : Response) : (send r s).stores = s.stores := rfl
@[simp] theorem send_sluice (r : Response) : (send r s).sluice = s.sluice := rfl
@[simp] theorem send_loops (r : Response) : (send r s).loops = s.loops := rfl
@[simp] theorem send_dec (r : Response) : (send r s).dec = s.dec := rfl
@[simp] theorem send_led (r : Response) : (send r s).led = s.led := rfl
@[simp] theorem send_str (r : Response) : (send r s).str = s.str := rfl
@[simp] theorem send_pool (r : Response) : (send r s).pool = s.pool := rfl
@[simp] theorem send_mov (r : Response) : (send r s).mov = s.mov := rfl
@[simp] theorem send_rsv (r : Response) : (send r s).rsv = s.rsv := rfl
@[simp] theorem send_obj (r : Response) : (send r s).obj = s.obj := rfl
@[simp] theorem send_asy (r : Response) : (send r s).asy = s.asy := rfl
@[simp] theorem send_rst (r : Response) : (send r s).rst = s.rst := rfl
@[simp] theorem send_cfg (r : Response) : (send r s).cfg = s.cfg := rfl
@[simp] theorem send_flt (r : Response) : (send r s).flt = s.flt := rfl
@[simp] theorem send_day (r : Response) : (send r s).day = s.day := rfl
@[simp] theorem send_bur (r : Response) : (send r s).bur = s.bur := rfl
@[simp] theorem send_free (r : Response) : (send r s).free = s.free := rfl
@[simp] theorem send_pending (r : Response) : (send r s).pending = s.pending := rfl

end Sys2Proof.Machine
end

