-- ==== Sys2Proof/Laws/Table.lean ====
section
/-!
SUPPORT. Sys2Proof/Laws/Table.lean: reading a table after a change, and that every change keeps the canonical form.
-/
namespace Sys2Proof.Machine

variable {α : Type}

/-! ### Reads after changes -/

@[simp] theorem tget_tins_same (d : α) (t : Table α) (k : Nat) (v : α) : tget d (tins t k v) k = v := by
  induction t with
  | nil => simp [tins, tget]
  | cons e t ih =>
    obtain ⟨j, w⟩ := e
    unfold tins
    split
    · simp [tget]
    · split
      · simp [tget]
      · rename_i _ hne
        simp [tget, ih, Ne.symm hne]

theorem tget_tins_ne (d : α) (t : Table α) {k k' : Nat} (v : α) (h : k' ≠ k) : tget d (tins t k v) k' = tget d t k' := by
  induction t with
  | nil => simp [tins, tget, Ne.symm h]
  | cons e t ih =>
    obtain ⟨j, w⟩ := e
    unfold tins
    split
    · simp [tget, Ne.symm h]
    · split
      · rename_i _ hj; subst hj; simp [tget, Ne.symm h]
      · simp [tget, ih]

@[simp] theorem tget_tdel_same (d : α) (t : Table α) (k : Nat) : tget d (tdel t k) k = d := by
  induction t with
  | nil => simp [tdel, tget]
  | cons e t ih =>
    obtain ⟨j, w⟩ := e
    unfold tdel
    split
    · exact ih
    · rename_i hj; simp [tget, ih, hj]

theorem tget_tdel_ne (d : α) (t : Table α) {k k' : Nat} (h : k' ≠ k) : tget d (tdel t k) k' = tget d t k' := by
  induction t with
  | nil => simp [tdel]
  | cons e t ih =>
    obtain ⟨j, w⟩ := e
    unfold tdel
    split
    · rename_i hj; subst hj; simp [tget, ih, Ne.symm h]
    · simp [tget, ih]

@[simp] theorem tget_tput_same [DecidableEq α] (d : α) (t : Table α) (k : Nat) (v : α) : tget d (tput d t k v) k = v := by
  unfold tput
  split
  · rename_i h; simp [h]
  · simp

/-- A change of one key leaves every other key, whatever default either reads with. -/
theorem tget_tput_ne [DecidableEq α] (d d' : α) (t : Table α) {k k' : Nat} (v : α) (h : k' ≠ k) :
    tget d' (tput d t k v) k' = tget d' t k' := by
  unfold tput
  split
  · exact tget_tdel_ne d' t h
  · exact tget_tins_ne d' t v h

@[simp] theorem tget_tmod_same [DecidableEq α] (d : α) (t : Table α) (k : Nat) (f : α → α) :
    tget d (tmod d t k f) k = f (tget d t k) := by simp [tmod]

theorem tget_tmod_ne [DecidableEq α] (d d' : α) (t : Table α) {k k' : Nat} (f : α → α) (h : k' ≠ k) :
    tget d' (tmod d t k f) k' = tget d' t k' := tget_tput_ne d d' t _ h

@[simp] theorem tfind_tins_same (t : Table α) (k : Nat) (v : α) : tfind (tins t k v) k = some v := by
  induction t with
  | nil => simp [tins, tfind]
  | cons e t ih =>
    obtain ⟨j, w⟩ := e
    unfold tins
    split
    · simp [tfind]
    · split
      · simp [tfind]
      · rename_i _ hne
        simp [tfind, ih, Ne.symm hne]

theorem tfind_tins_ne (t : Table α) {k k' : Nat} (v : α) (h : k' ≠ k) : tfind (tins t k v) k' = tfind t k' := by
  induction t with
  | nil => simp [tins, tfind, Ne.symm h]
  | cons e t ih =>
    obtain ⟨j, w⟩ := e
    unfold tins
    split
    · simp [tfind, Ne.symm h]
    · split
      · rename_i _ hj; subst hj; simp [tfind, Ne.symm h]
      · simp [tfind, ih]

@[simp] theorem tfind_tdel_same (t : Table α) (k : Nat) : tfind (tdel t k) k = none := by
  induction t with
  | nil => simp [tdel, tfind]
  | cons e t ih =>
    obtain ⟨j, w⟩ := e
    unfold tdel
    split
    · exact ih
    · rename_i hj; simp [tfind, ih, hj]

theorem tfind_tdel_ne (t : Table α) {k k' : Nat} (h : k' ≠ k) : tfind (tdel t k) k' = tfind t k' := by
  induction t with
  | nil => simp [tdel]
  | cons e t ih =>
    obtain ⟨j, w⟩ := e
    unfold tdel
    split
    · rename_i hj; subst hj; simp [tfind, ih, Ne.symm h]
    · simp [tfind, ih]

/-! ### The canonical form -/

theorem tsortedFrom_mono {b b' : Nat} (h : b' ≤ b) (t : Table α) (ht : tsortedFrom b t = true) : tsortedFrom b' t = true := by
  cases t with
  | nil => rfl
  | cons e t =>
    obtain ⟨k, v⟩ := e
    simp only [tsortedFrom, Bool.and_eq_true, decide_eq_true_eq] at ht ⊢
    exact ⟨by omega, ht.2⟩

theorem tsortedFrom_tins {b k : Nat} (v : α) (t : Table α) (hk : b < k) (ht : tsortedFrom b t = true) :
    tsortedFrom b (tins t k v) = true := by
  induction t generalizing b with
  | nil => simp [tins, tsortedFrom, hk]
  | cons e t ih =>
    obtain ⟨j, w⟩ := e
    simp only [tsortedFrom, Bool.and_eq_true, decide_eq_true_eq] at ht
    unfold tins
    split
    · simp [tsortedFrom, *]
    · split
      · rename_i _ hj; subst hj; simp [tsortedFrom, *]
      · simp only [tsortedFrom, Bool.and_eq_true, decide_eq_true_eq]
        exact ⟨ht.1, ih (by omega) ht.2⟩

theorem tsorted_tins (k : Nat) (v : α) (t : Table α) (ht : tsorted t = true) : tsorted (tins t k v) = true := by
  cases t with
  | nil => rfl
  | cons e t =>
    obtain ⟨j, w⟩ := e
    have h : tsortedFrom j t = true := ht
    unfold tins
    split
    · simp [tsorted, tsortedFrom, *]
    · split
      · rename_i _ hj; subst hj; simpa [tsorted] using h
      · simpa [tsorted] using tsortedFrom_tins v t (by omega) h

theorem tsortedFrom_tdel {b : Nat} (k : Nat) (t : Table α) (ht : tsortedFrom b t = true) : tsortedFrom b (tdel t k) = true := by
  induction t generalizing b with
  | nil => rfl
  | cons e t ih =>
    obtain ⟨j, w⟩ := e
    simp only [tsortedFrom, Bool.and_eq_true, decide_eq_true_eq] at ht
    unfold tdel
    split
    · exact ih (tsortedFrom_mono (by omega) t ht.2)
    · simp only [tsortedFrom, Bool.and_eq_true, decide_eq_true_eq]
      exact ⟨ht.1, ih ht.2⟩

theorem tsorted_of_from {b : Nat} (t : Table α) (h : tsortedFrom b t = true) : tsorted t = true := by
  cases t with
  | nil => rfl
  | cons e t =>
    obtain ⟨k, v⟩ := e
    simp only [tsortedFrom, Bool.and_eq_true] at h
    exact h.2

theorem tsorted_tdel (k : Nat) (t : Table α) (ht : tsorted t = true) : tsorted (tdel t k) = true := by
  cases t with
  | nil => rfl
  | cons e t =>
    obtain ⟨j, w⟩ := e
    have h : tsortedFrom j t = true := ht
    unfold tdel
    split
    · exact tsorted_of_from _ (tsortedFrom_tdel k t h)
    · simpa [tsorted] using tsortedFrom_tdel k t h

theorem mem_tins {t : Table α} {k : Nat} {v : α} {e : Nat × α} (h : e ∈ tins t k v) : e = (k, v) ∨ e ∈ t := by
  induction t with
  | nil => simpa [tins] using h
  | cons x t ih =>
    obtain ⟨j, w⟩ := x
    unfold tins at h
    split at h
    · simpa using h
    · split at h
      · rcases List.mem_cons.1 h with h | h
        · exact .inl h
        · exact .inr (List.mem_cons_of_mem _ h)
      · rcases List.mem_cons.1 h with h | h
        · exact .inr (by simp [h])
        · exact (ih h).imp id (List.mem_cons_of_mem _)

theorem mem_of_mem_tdel {t : Table α} {k : Nat} {e : Nat × α} (h : e ∈ tdel t k) : e ∈ t := by
  induction t with
  | nil => simp [tdel] at h
  | cons x t ih =>
    obtain ⟨j, w⟩ := x
    unfold tdel at h
    split at h
    · exact List.mem_cons_of_mem _ (ih h)
    · rcases List.mem_cons.1 h with h | h
      · simp [h]
      · exact List.mem_cons_of_mem _ (ih h)

/-- Setting a key keeps the canonical form. -/
theorem twf_tput [DecidableEq α] (d : α) (t : Table α) (k : Nat) (v : α) (h : twf d t = true) : twf d (tput d t k v) = true := by
  simp only [twf, Bool.and_eq_true, List.all_eq_true, Bool.not_eq_true', decide_eq_false_iff_not] at h ⊢
  unfold tput
  split
  · exact ⟨tsorted_tdel k t h.1, fun e he => h.2 e (mem_of_mem_tdel he)⟩
  · rename_i hv
    refine ⟨tsorted_tins k v t h.1, fun e he => ?_⟩
    rcases mem_tins he with he | he
    · subst he; exact hv
    · exact h.2 e he

theorem twf_tmod [DecidableEq α] (d : α) (t : Table α) (k : Nat) (f : α → α) (h : twf d t = true) :
    twf d (tmod d t k f) = true := twf_tput d t k _ h

end Sys2Proof.Machine
end

