-- ==== Sys2Proof/Laws/Regs.lean ====
section
/-!
SUPPORT. Sys2Proof/Laws/Regs.lean: reading a register field after a write, once for every pair of fields.
-/
namespace Sys2Proof.Machine

/-! ### Keys -/

theorem tyCode_lt (t : RegType) : tyCode t < 8 := by cases t <;> decide

/-- Fields at different addresses have different homes. -/
theorem fieldKey_ne_addr {b b' : Nat} {f f' : Field} (hf : f.lo < 32) (hf' : f'.lo < 32) (h : b' + f'.off ≠ b + f.off) :
    fieldKey b' f' ≠ fieldKey b f := by
  have h1 := tyCode_lt (tyAt b f)
  have h2 := tyCode_lt (tyAt b' f')
  unfold fieldKey
  omega

/-- Fields at different bits have different homes. -/
theorem fieldKey_ne_lo {b b' : Nat} {f f' : Field} (hf : f.lo < 32) (hf' : f'.lo < 32) (h : f'.lo ≠ f.lo) :
    fieldKey b' f' ≠ fieldKey b f := by
  have h1 := tyCode_lt (tyAt b f)
  have h2 := tyCode_lt (tyAt b' f')
  unfold fieldKey
  omega

/-! ### Read after write -/

@[simp] theorem rd_wr_same (b : Nat) (f : Field) (v : Nat) (s : State) : rd (wr b f v s) b f = v % 2 ^ f.len := by
  simp [rd, wr]

theorem rd_wr_ne {b b' : Nat} {f f' : Field} (v : Nat) (s : State) (h : fieldKey b' f' ≠ fieldKey b f) :
    rd (wr b f v s) b' f' = rd s b' f' := by
  simp [rd, wr, tget_tput_ne _ _ _ _ h]

theorem rd_wr_addr {b b' : Nat} {f f' : Field} (v : Nat) (s : State) (hf : f.lo < 32) (hf' : f'.lo < 32)
    (h : b' + f'.off ≠ b + f.off) : rd (wr b f v s) b' f' = rd s b' f' :=
  rd_wr_ne v s (fieldKey_ne_addr hf hf' h)

@[simp] theorem flag_setF_same (b : Nat) (f : Field) (v : Bool) (s : State) (h : f.len = 1) : flag (setF b f v s) b f = v := by
  cases v <;> simp [flag, setF, b2n, h]

theorem rd_setF_ne {b b' : Nat} {f f' : Field} (v : Bool) (s : State) (h : fieldKey b' f' ≠ fieldKey b f) :
    rd (setF b f v s) b' f' = rd s b' f' := rd_wr_ne _ s h

theorem rd_incF_same (b : Nat) (f : Field) (s : State) (h : rd s b f < 2 ^ f.len - 1) : rd (incF b f s) b f = rd s b f + 1 := by
  unfold incF
  rw [rd_wr_same, satInc, if_pos h, Nat.mod_eq_of_lt (by omega)]

theorem rd_incF_ne {b b' : Nat} {f f' : Field} (s : State) (h : fieldKey b' f' ≠ fieldKey b f) :
    rd (incF b f s) b' f' = rd s b' f' := rd_wr_ne _ s h

theorem rd_addF_ne {b b' : Nat} {f f' : Field} (n : Nat) (s : State) (h : fieldKey b' f' ≠ fieldKey b f) :
    rd (addF b f n s) b' f' = rd s b' f' := rd_wr_ne _ s h

/-- A field reads from the register table alone. -/
theorem rd_congr {s t : State} (h : t.regs = s.regs) (b : Nat) (f : Field) : rd t b f = rd s b f := by
  simp [rd, h]

theorem flag_congr {s t : State} {b : Nat} {f : Field} (h : rd t b f = rd s b f) : flag t b f = flag s b f := by
  simp [flag, h]

/-! ### Registers a command leaves alone -/

theorem keptRegs_refl (own : Nat → Nat → Bool) (s : State) : keptRegs own s s := fun _ _ _ _ _ => rfl

theorem keptRegs_trans {own : Nat → Nat → Bool} {s t u : State} (h : keptRegs own s t) (h' : keptRegs own t u) : keptRegs own s u :=
  fun b f h1 h2 h3 => (h' b f h1 h2 h3).trans (h b f h1 h2 h3)

theorem keptRegs_mono {own own' : Nat → Nat → Bool} {s t : State} (hle : ∀ a l, own' a l = false → own a l = false)
    (h : keptRegs own s t) : keptRegs own' s t := fun b f h1 h2 h3 => h b f h1 h2 (hle _ _ h3)

theorem keptRegs_of_regs {own : Nat → Nat → Bool} {s t : State} (h : t.regs = s.regs) : keptRegs own s t :=
  fun b f _ _ _ => rd_congr h b f

/-- A write of a field that the command owns, or that bringing the service state up to date may write. -/
theorem keptRegs_wr {own : Nat → Nat → Bool} (b : Nat) (f : Field) (v : Nat) (s : State) (hf : f.lo < 32)
    (h : svcReg (b + f.off) f.lo = true ∨ own (b + f.off) f.lo = true) : keptRegs own s (wr b f v s) := by
  intro b' f' h1 h2 h3
  refine rd_wr_ne v s ?_
  by_cases ha : b' + f'.off = b + f.off
  · refine fieldKey_ne_lo hf h1 ?_
    intro hl
    rw [ha, hl] at h2 h3
    rcases h with h | h
    · rw [h] at h2; exact Bool.noConfusion h2
    · rw [h] at h3; exact Bool.noConfusion h3
  · exact fieldKey_ne_addr hf h1 ha

end Sys2Proof.Machine
end

