-- ==== Sys2Proof/Laws/Service.lean ====
section
/-!
SUPPORT. Sys2Proof/Laws/Service.lean: what records, early-warnings and the service state may change, said once (`Quiet`), and what a
command's outcome is in terms of its own effect.
-/
namespace Sys2Proof.Machine
open Reg

/-- What recording, warning and bringing GLB_SERVICE up to date leave as it was. -/
structure Quiet (s t : State) : Prop where
  parts : kept svcParts s t
  regs : keptRegs noReg s t
  unit : t.time.unit = s.time.unit
  assay : t.time.assay = s.time.assay
  obj : { t.obj with ctrls := s.obj.ctrls } = s.obj
  rst : { t.rst with wdogRuns := s.rst.wdogRuns } = s.rst
  out : ∃ l, t.out = s.out ++ l
  pending : t.pending = s.pending

theorem kept_refl (l : List Part) (s : State) : kept l s s := by
  induction l with
  | nil => trivial
  | cons p l ih => exact ⟨by cases p <;> rfl, ih⟩

theorem samePart_trans {p : Part} {s t u : State} (h : samePart p s t) (h' : samePart p t u) : samePart p s u := by
  cases p <;> exact Eq.trans h' h

theorem kept_trans {l : List Part} {s t u : State} (h : kept l s t) (h' : kept l t u) : kept l s u := by
  induction l with
  | nil => trivial
  | cons p l ih => exact ⟨samePart_trans h.1 h'.1, ih h.2 h'.2⟩

theorem kept_mem {l : List Part} {p : Part} {s t : State} (h : kept l s t) (hp : p ∈ l) : samePart p s t := by
  induction l with
  | nil => cases hp
  | cons q l ih =>
    rcases List.mem_cons.1 hp with rfl | hp
    · exact h.1
    · exact ih h.2 hp

theorem Quiet.refl (s : State) : Quiet s s :=
  ⟨kept_refl _ s, keptRegs_refl _ s, rfl, rfl, rfl, rfl, ⟨[], by simp⟩, rfl⟩

theorem Quiet.trans {s t u : State} (h : Quiet s t) (h' : Quiet t u) : Quiet s u := by
  refine ⟨kept_trans h.parts h'.parts, keptRegs_trans h.regs h'.regs, h'.unit.trans h.unit, h'.assay.trans h.assay, ?_, ?_, ?_,
    h'.pending.trans h.pending⟩
  · have := h.obj; have h2 := h'.obj
    rw [← h2] at this
    simpa using this
  · have := h.rst; have h2 := h'.rst
    rw [← h2] at this
    simpa using this
  · obtain ⟨l, hl⟩ := h.out
    obtain ⟨l', hl'⟩ := h'.out
    exact ⟨l ++ l', by rw [hl', hl, List.append_assoc]⟩

/-- A register that the service state owns. -/
theorem quiet_wr (b : Nat) (f : Field) (v : Nat) (s : State) (hf : f.lo < 32) (h : svcReg (b + f.off) f.lo = true) :
    Quiet s (wr b f v s) :=
  ⟨by simp [svcParts, kept, samePart], keptRegs_wr b f v s hf (.inl h), rfl, rfl, rfl, rfl, ⟨[], by simp⟩, rfl⟩

theorem quiet_when {c : Bool} {f : State → State} (s : State) (h : Quiet s (f s)) : Quiet s (when c f s) := by
  cases c
  · exact Quiet.refl s
  · exact h

theorem quiet_forEach {α : Type} (l : List α) (f : α → State → State) (h : ∀ x s, Quiet s (f x s)) (s : State) :
    Quiet s (forEach l f s) := by
  induction l generalizing s with
  | nil => exact Quiet.refl s
  | cons x l ih => exact (h x s).trans (ih (f x s))

theorem quiet_pairSet (a v : Nat) (s : State) : Quiet s (pairSet a v s) :=
  ⟨by simp [svcParts, kept, samePart], keptRegs_of_regs rfl, rfl, rfl, rfl, rfl, ⟨[], by simp⟩, rfl⟩

theorem quiet_pairAdd (a v : Nat) (s : State) : Quiet s (pairAdd a v s) := quiet_pairSet a _ s

theorem quiet_send (r : Response) (s : State) : Quiet s (send r s) :=
  ⟨by simp [svcParts, kept, samePart], keptRegs_of_regs rfl, rfl, rfl, rfl, rfl, ⟨[r], rfl⟩, rfl⟩

theorem quiet_modCtrl (h : Nat) (f : Ctrl → Ctrl) (s : State) : Quiet s (modCtrl h f s) :=
  ⟨by simp [svcParts, kept, samePart], keptRegs_of_regs rfl, rfl, rfl, rfl, rfl, ⟨[], by simp⟩, rfl⟩

theorem quiet_day (d : DayState) (s : State) : Quiet s { s with day := d } :=
  ⟨by simp [svcParts, kept, samePart], keptRegs_of_regs rfl, rfl, rfl, rfl, rfl, ⟨[], by simp⟩, rfl⟩

theorem quiet_bur (d : BursarState) (s : State) : Quiet s { s with bur := d } :=
  ⟨by simp [svcParts, kept, samePart], keptRegs_of_regs rfl, rfl, rfl, rfl, rfl, ⟨[], by simp⟩, rfl⟩

theorem quiet_wdogRuns (n : Nat) (s : State) : Quiet s { s with rst := { s.rst with wdogRuns := n } } :=
  ⟨by simp [svcParts, kept, samePart], keptRegs_of_regs rfl, rfl, rfl, rfl, rfl, ⟨[], by simp⟩, rfl⟩

theorem quiet_stamp (src : Nat) (s : State) : Quiet s (stamp src s).2 :=
  ⟨by simp [stamp, svcParts, kept, samePart], keptRegs_of_regs rfl, rfl, rfl, rfl, rfl, ⟨[], by simp [stamp]⟩, rfl⟩

theorem quiet_dayStore (r : DayRec) (s : State) : Quiet s (dayStore r s) := by
  unfold dayStore
  refine Quiet.trans ?_ (quiet_wr _ _ _ _ (by decide) (by decide))
  refine Quiet.trans ?_ (quiet_day _ _)
  cases ringPut 16384 s.day.sram r with
  | none => exact quiet_wr _ _ _ _ (by decide) (by decide)
  | some t => exact quiet_day _ s

theorem quiet_dayHold (r : DayRec) (s : State) : Quiet s (dayHold r s) := by
  unfold dayHold
  refine Quiet.trans ?_ (quiet_wr _ _ _ _ (by decide) (by decide))
  cases ringPut 256 (holdRing 0 s.day.hold) r with
  | none => exact (quiet_day _ s).trans (quiet_wr _ _ _ _ (by decide) (by decide))
  | some t => exact quiet_day _ s

theorem quiet_dayRecord (st : Stamp) (trig sev d0 d1 d2 d3 : Nat) (s : State) : Quiet s (dayRecord st trig sev d0 d1 d2 d3 s) := by
  unfold dayRecord
  refine Quiet.trans ?_ (quiet_when _ (quiet_send _ _))
  split
  · refine Quiet.trans ?_ (quiet_dayHold _ _)
    exact (quiet_day _ s).trans (quiet_wr dbB DB_SEQ_NEWEST _ _ (by decide) (by decide))
  · refine Quiet.trans ?_ (quiet_dayStore _ _)
    exact (quiet_day _ s).trans (quiet_wr dbB DB_SEQ_NEWEST _ _ (by decide) (by decide))

theorem quiet_dayEvent (src trig sev d0 d1 d2 d3 : Nat) (s : State) : Quiet s (dayEvent src trig sev d0 d1 d2 d3 s) :=
  (quiet_stamp src s).trans (quiet_dayRecord _ _ _ _ _ _ _ _)

theorem quiet_aerDeliver (h type info page : Nat) (s : State) : Quiet s (aerDeliver h type info page s) := by
  unfold aerDeliver
  split
  · exact (((quiet_modCtrl _ _ s).trans (quiet_pairAdd _ _ _)).trans (quiet_send _ _)).trans (quiet_send _ _)
  · exact quiet_modCtrl _ _ s

theorem quiet_critWarn (bit info : Nat) (s : State) : Quiet s (critWarn bit info s) :=
  quiet_forEach _ _ (fun _ s => quiet_when s (quiet_aerDeliver _ _ _ _ s)) s

theorem quiet_earlyWarn (w sev unit value : Nat) (s : State) : Quiet s (earlyWarn w sev unit value s) := by
  unfold earlyWarn
  refine Quiet.trans ?_ (quiet_when _ (quiet_forEach _ _ (fun _ s => quiet_when s (quiet_aerDeliver _ _ _ _ s)) _))
  refine Quiet.trans ?_ (quiet_dayEvent _ _ _ _ _ _ _ _)
  exact ((quiet_wr _ _ _ s (by decide) (by decide)).trans (quiet_bur _ _)).trans (quiet_bur _ _)

theorem svcReg_ready (h : Nat) (hh : h < 4) : svcReg (hostBase h + HP_CONN_READY.off) HP_CONN_READY.lo = true := by
  have : h = 0 ∨ h = 1 ∨ h = 2 ∨ h = 3 := by omega
  rcases this with rfl | rfl | rfl | rfl <;> decide

theorem quiet_ready (g : Nat → State → Bool) (s : State) :
    Quiet s (forEach (List.range 4) (fun h s => setF (hostBase h) HP_CONN_READY (g h s) s) s) := by
  have hr : List.range 4 = [0, 1, 2, 3] := by decide
  rw [hr]
  simp only [forEach]
  refine Quiet.trans ?_ (quiet_wr _ _ _ _ (by decide) (svcReg_ready 3 (by decide)))
  refine Quiet.trans ?_ (quiet_wr _ _ _ _ (by decide) (svcReg_ready 2 (by decide)))
  refine Quiet.trans ?_ (quiet_wr _ _ _ _ (by decide) (svcReg_ready 1 (by decide)))
  exact quiet_wr _ _ _ _ (by decide) (svcReg_ready 0 (by decide))

theorem quiet_changeService (st : Nat) (s : State) : Quiet s (changeService st s) := by
  unfold changeService
  refine Quiet.trans ?_ (quiet_when _ (quiet_earlyWarn _ _ _ _ _))
  refine Quiet.trans ?_ (quiet_when _ (quiet_wdogRuns _ _))
  refine Quiet.trans ?_ (quiet_when _ (quiet_critWarn _ _ _))
  refine Quiet.trans ?_ (quiet_ready _ _)
  refine Quiet.trans ?_ (quiet_dayRecord _ _ _ _ _ _ _ _)
  refine Quiet.trans ?_ (quiet_pairSet _ _ _)
  refine Quiet.trans ?_ (quiet_stamp _ _)
  exact (quiet_wr _ _ _ s (by decide) (by decide)).trans (quiet_wr _ _ _ _ (by decide) (by decide))

theorem quiet_setService (st : Nat) (s : State) : Quiet s (setService st s) := by
  unfold setService
  split
  · exact Quiet.refl s
  · exact quiet_changeService st s

/-- Bringing GLB_SERVICE up to date changes nothing but what `Quiet` allows. -/
theorem quiet_evalService (s : State) : Quiet s (evalService s) := by
  unfold evalService
  have h : Quiet s (wr idB GLB_SERVICE_HDA_REBUILDING
      (popCount 24 (rd (wr idB GLB_SERVICE_HDA_MISSING ((List.range 24).countP (fun n => hdaMissing
        (setF idB GLB_SERVICE_RESERVOIR_OUT (flag s rsvB RSV_STATUS_OUT_OF_SERVICE) s) n))
        (setF idB GLB_SERVICE_RESERVOIR_OUT (flag s rsvB RSV_STATUS_OUT_OF_SERVICE) s)) srB SR_REBUILD_STATUS_PORTS))
      (wr idB GLB_SERVICE_HDA_MISSING ((List.range 24).countP (fun n => hdaMissing
        (setF idB GLB_SERVICE_RESERVOIR_OUT (flag s rsvB RSV_STATUS_OUT_OF_SERVICE) s) n))
        (setF idB GLB_SERVICE_RESERVOIR_OUT (flag s rsvB RSV_STATUS_OUT_OF_SERVICE) s))) := by
    refine Quiet.trans ?_ (quiet_wr _ _ _ _ (by decide) (by decide))
    refine Quiet.trans ?_ (quiet_wr _ _ _ _ (by decide) (by decide))
    exact quiet_wr _ _ _ s (by decide) (by decide)
  simp only
  split
  · exact h.trans (quiet_setService _ _)
  · exact h

theorem Quiet.rd {s t : State} (q : Quiet s t) {b : Nat} {x : Field} (hx : x.lo < 32) (h : svcReg (b + x.off) x.lo = false) :
    rd t b x = rd s b x := q.regs b x hx h rfl

theorem rd_dayEvent (src trig sev d0 d1 d2 d3 : Nat) (s : State) {b : Nat} {x : Field} (hx : x.lo < 32)
    (h : svcReg (b + x.off) x.lo = false) : rd (dayEvent src trig sev d0 d1 d2 d3 s) b x = rd s b x :=
  (quiet_dayEvent _ _ _ _ _ _ _ s).rd hx h

theorem rd_dayRecord (st : Stamp) (trig sev d0 d1 d2 d3 : Nat) (s : State) {b : Nat} {x : Field} (hx : x.lo < 32)
    (h : svcReg (b + x.off) x.lo = false) : rd (dayRecord st trig sev d0 d1 d2 d3 s) b x = rd s b x :=
  (quiet_dayRecord _ _ _ _ _ _ _ s).rd hx h

theorem rd_earlyWarn (w sev unit value : Nat) (s : State) {b : Nat} {x : Field} (hx : x.lo < 32)
    (h : svcReg (b + x.off) x.lo = false) : rd (earlyWarn w sev unit value s) b x = rd s b x :=
  (quiet_earlyWarn _ _ _ _ s).rd hx h

theorem rd_critWarn (bit info : Nat) (s : State) {b : Nat} {x : Field} (hx : x.lo < 32)
    (h : svcReg (b + x.off) x.lo = false) : rd (critWarn bit info s) b x = rd s b x :=
  (quiet_critWarn _ _ s).rd hx h

theorem rd_setService (st : Nat) (s : State) {b : Nat} {x : Field} (hx : x.lo < 32)
    (h : svcReg (b + x.off) x.lo = false) : rd (setService st s) b x = rd s b x :=
  (quiet_setService _ s).rd hx h

/-! ### Parts through records and warnings -/

@[simp] theorem earlyWarn_pwr (w sev unit value : Nat) (s : State) : (earlyWarn w sev unit value s).pwr = s.pwr :=
  kept_mem (p := .pwr) (quiet_earlyWarn _ _ _ _ s).parts (by decide)

@[simp] theorem dayEvent_pwr (src trig sev d0 d1 d2 d3 : Nat) (s : State) : (dayEvent src trig sev d0 d1 d2 d3 s).pwr = s.pwr :=
  kept_mem (p := .pwr) (quiet_dayEvent _ _ _ _ _ _ _ s).parts (by decide)

/-! ### Outcomes -/

/-- The queue put back: nothing but the queue differs. -/
theorem quiet_pending {s u : State} (q : List Instr) (h : Quiet s u) (hq : q = s.pending) : Quiet s { u with pending := q } :=
  ⟨kept_trans h.parts (by simp [svcParts, kept, samePart]), keptRegs_trans h.regs (keptRegs_of_regs rfl), h.unit, h.assay, h.obj, h.rst,
    h.out, hq⟩

theorem kept_pending (u : State) (q : List Instr) : kept svcParts u { u with pending := q } := by simp [svcParts, kept, samePart]
theorem out_pending (u : State) (q : List Instr) : ({ u with pending := q } : State).out = u.out := rfl
theorem time_pending (u : State) (q : List Instr) : ({ u with pending := q } : State).time = u.time := rfl
theorem keptRegs_pending (u : State) (q : List Instr) : keptRegs noReg u { u with pending := q } := keptRegs_of_regs rfl

/-- What a command's own effect does, bar bringing the service state up to date, is what its outcome shows. -/
theorem quiet_settleUp (f : State → State) (s : State) (h : (f s).pending = s.pending) : Quiet (f s) (settleUp f s) := by
  unfold settleUp
  exact quiet_pending _ (quiet_evalService (f s)) h.symm

theorem settleUp_pending (f : State → State) (s : State) : (settleUp f s).pending = s.pending := by rw [settleUp]

theorem settleUp_parts (f : State → State) (s : State) : kept svcParts (f s) (settleUp f s) := by
  unfold settleUp
  exact kept_trans (quiet_evalService (f s)).parts (kept_pending _ _)

theorem settleUp_out (f : State → State) (s : State) : ∃ l, (settleUp f s).out = (f s).out ++ l := by
  rw [settleUp, out_pending]
  exact (quiet_evalService (f s)).out

theorem settleUp_unit (f : State → State) (s : State) : (settleUp f s).time.unit = (f s).time.unit := by
  rw [settleUp, time_pending]
  exact (quiet_evalService (f s)).unit

theorem settleUp_keptRegs (f : State → State) (s : State) : keptRegs noReg (f s) (settleUp f s) := by
  unfold settleUp
  exact keptRegs_trans (quiet_evalService (f s)).regs (keptRegs_pending _ _)

/-- A register that the service state does not own reads after the command as after its own effect. -/
theorem rd_settleUp (f : State → State) (s : State) {b : Nat} {x : Field} (hx : x.lo < 32) (h : svcReg (b + x.off) x.lo = false) :
    rd (settleUp f s) b x = rd (f s) b x := settleUp_keptRegs f s b x hx h rfl

theorem flag_settleUp (f : State → State) (s : State) {b : Nat} {x : Field} (hx : x.lo < 32) (h : svcReg (b + x.off) x.lo = false) :
    flag (settleUp f s) b x = flag (f s) b x := flag_congr (rd_settleUp f s hx h)

theorem runIf_true (f : State → State) (s : State) : runIf true f s = .next (settleUp f s) := by simp [runIf]
theorem runIf_false (f : State → State) (s : State) : runIf false f s = .next s := by simp [runIf]

theorem run_live {d : Dom} {s : State} (h : live s d = true) (f : State → State) : run d f s = .next (settleUp f s) := by
  simp [run, h, runIf]

theorem run_dead {d : Dom} {s : State} (h : live s d = false) (f : State → State) : run d f s = .next s := by
  simp [run, h, runIf]

/-- Every outcome of this form is a next state with the queue as it was. -/
theorem runIf_pending {c : Bool} {f : State → State} {s t : State} (h : runIf c f s = .next t) : t.pending = s.pending := by
  cases c
  · rw [runIf_false] at h; cases h; rfl
  · rw [runIf_true] at h
    injection h with h
    rw [← h]; exact settleUp_pending f s

end Sys2Proof.Machine
end

