-- ==== Sys2Proof/Machine/Contacts.lean ====
section
/-!
DEFINITION. Sys2Proof/Machine/Contacts.lean: what the module's output contacts show, as functions of the state (R35-R37, R73, R84,
R286, R340, R359, R368, R402, R406). A contact has no state of its own: it follows the registers and the units behind it.
-/
namespace Sys2Proof.Machine
open Reg

/-- What an output contact shows. -/
inductive Level
  | highZ | low | high | toggling | idle | released | driven | on | off
  deriving DecidableEq, Repr

/-- R35, R368, R393: ALIVE. -/
def aliveContact (s : State) : Level :=
  if s.pwr.powered then
    if service s = 4 ∨ s.rst.aliveStop = true ∨ flag s rstB RST_STATUS_WDOG_STOPPED = true then .low else .toggling
  else .highZ

/-- R36: PRESENT_N is wired to logic ground; the module never drives it. -/
def presentContact (_ : State) : Level := .low

/-- R37: CFG_3V3 is on whenever either feed is good. -/
def cfgSupply (s : State) : Level :=
  if flag s pwrB PWR_STATUS_FEEDA_GOOD || flag s pwrB PWR_STATUS_FEEDB_GOOD then .on else .off

/-- R402: SMB_ALERT_N is asserted while a PLDM event waits for its receiver. -/
def alertContact (s : State) : Level := if s.pwr.powered && !s.bur.eventsWaiting.isEmpty then .low else .released

/-- R34: SMB_CLK and SMB_DAT are open drain: released while no transfer pulls them low, high impedance unpowered. The model has no
transfer in progress between commands. -/
def smbusContacts (s : State) : Level := if s.pwr.powered then .released else .highZ

/-- R34: MGMT_MDC, the PHY management clock: an output, high impedance unpowered. -/
def mdcContact (s : State) : Level := if s.pwr.powered then .idle else .highZ

/-- R34: MGMT_MDIO is bidirectional: released between transfers, high impedance unpowered. -/
def mdioContact (s : State) : Level := if s.pwr.powered then .released else .highZ

/-- R340: PPS_OUT is high for 100 ms from each whole second of Assay time while TIME_VALID is set, and low otherwise. -/
def ppsContact (s : State) : Level :=
  if s.pwr.powered then
    if flag s asyB ASY_STATUS_TIME_VALID && decide (s.time.assay % 2 ^ 24 < msecs 100) then .high else .low
  else .highZ

/-- R359, R368: QSPI is driven only while a copy is read or a commit writes, and never while RESET_N is low or while Halted. -/
def qspiContacts (s : State) : Level :=
  let st := rd s cfgB CFG_STATUS_STATE
  if s.pwr.powered && s.rst.pinLow.isNone && decide (service s ≠ 4) && decide (st = 1 ∨ st = 2 ∨ st = 6) then .driven else .highZ

/-- R73: HLx_WR of an actuator. -/
def writeContact (s : State) (a : Nat) : Level :=
  if s.pwr.powered then (if (actOf s a).writing then .driven else .idle) else .highZ

/-- R80, HDA_CTL.SENS_SLOW: the rate of a port's sensor link in kHz. -/
def sensorRate (s : State) (n : Nat) : Nat := if flag s (portBase n) HDA_CTL_SENS_SLOW then 100 else 400

/-- R368: a port's supplies outlast a cold reset and a halt until every head of the port is parked. -/
def portLoaded (s : State) (n : Nat) : Bool := loaded s (actU n) || loaded s (actL n)

/-- R84, R364: a port in a state from `lo` to Releasing has its supply on, but in a halt. -/
def supplyFrom (s : State) (n lo : Nat) : Bool :=
  (decide (service s ≠ 4) && decide (lo ≤ portState s n ∧ portState s n ≤ 5)) || portLoaded s n

/-- R84: SENS_3V3 of a port. -/
def sensorSupply (s : State) (n : Nat) : Level := if s.pwr.powered && supplyFrom s n 2 then .on else .off

/-- R84, R391: PA_VHI and PA_VLO of a port; a tripped limit turns them off. -/
def preampSupply (s : State) (n : Nat) : Level :=
  let u := unitOf s (fbPort n) 0
  if s.pwr.powered && supplyFrom s n 3 && !(u.inFault && decide (u.cause = 4)) then .on else .off

/-- R162: the phases (U, V, W) of a step: one switched to the supply under PWM, one held to the common return, one floating. -/
def stepPhases (step : Nat) : Level × Level × Level :=
  match step % 6 with
  | 0 => (.toggling, .low, .highZ)
  | 1 => (.toggling, .highZ, .low)
  | 2 => (.highZ, .toggling, .low)
  | 3 => (.low, .toggling, .highZ)
  | 4 => (.low, .highZ, .toggling)
  | _ => (.highZ, .low, .toggling)

/-- R86, R172: within a rest check's window the windings are released, from 100 ms of short braking on. -/
def restWindow (s : State) (n : Nat) : Bool := decide ((portOf s n).brakeAt + msecs 100 ≤ now s)

/-- R160, R162, R169, R171-R177: what a port's bridge drives on SPM_U, SPM_V and SPM_W: the present step, or the step of the opposite torque under
the plug brake and for a negative duty; all three low-side switches under the short brake; nothing otherwise. -/
def spindleContacts (s : State) (n : Nat) : Level × Level × Level :=
  let st := spState s n
  let p := portOf s n
  let step := rd s (portBase n) SP_MEAS_STEP
  let off : Level × Level × Level := (.highZ, .highZ, .highZ)
  if !s.pwr.powered || s.pwr.failing || decide (service s = 4) then off
  else if 4 ≤ st ∧ st ≤ 7 then stepPhases (if bridgeDuty s n < 0 then step + 3 else step)
  else if st = 3 ∧ p.brake = .plug then stepPhases (step + 3)
  else if (st = 3 ∨ st = 9) ∧ p.brake = .short then (if restWindow s n then off else (.low, .low, .low))
  else off

/-- R165: one leg within a PWM period, in counts of 10 ns: the centre-aligned on-time of the high-side switch, and the two edges of its low-side
switch, DEAD away from it. -/
structure PwmLeg where
  highOn : Nat
  highOff : Nat
  lowOff : Int
  lowOn : Nat
  deriving DecidableEq, Repr

/-- R165, R167: the leg of the phase driven high, for the `k`-th period of a group; none where its pulse is dropped. -/
def pwmLeg (s : State) (n k : Nat) : Option PwmLeg :=
  let b := portBase n
  let pulse := (pwmPulses (onTime s n) (rd s b SP_SHUNT_SETTLE + rd s b SP_SHUNT_ACQ) (rd s b SP_SHUNT_MIN_PULSE)).getD k 0
  let rise := (rd s b SP_PWM_PERIOD - pulse) / 2
  if pulse = 0 then none
  else some ⟨rise, rise + pulse, (rise : Int) - (rd s b SP_PWM_DEAD : Nat), rise + pulse + rd s b SP_PWM_DEAD⟩

/-- R166: the phase currents in mA that follow from the step and the shunt's current. -/
def phaseCurrents (s : State) (n : Nat) : Int × Int × Int :=
  let i : Int := rd s (portBase n) SP_MEAS_CURRENT_MA
  let one (l : Level) : Int := match l with | .toggling => i | .low => -i | _ => 0
  let (u, v, w) := stepPhases (rd s (portBase n) SP_MEAS_STEP + (if bridgeDuty s n < 0 then 3 else 0))
  (one u, one v, one w)

/-- R135, R136, R154, R368: an actuator's VCM bridge; in a halt it is off once its heads are parked. -/
def vcmContact (s : State) (a : Nat) : Vcm :=
  if s.pwr.powered && (decide (service s ≠ 4) || loaded s a) then (actOf s a).vcm else .highZ

/-- R75, R368: HLx_SEL, HLx_CLK and HLx_DAT of an actuator: driven while a frame is under way, SEL and CLK low and DAT released between
frames. -/
def frameContacts (s : State) (a : Nat) : Level × Level × Level :=
  if !s.pwr.powered then (.highZ, .highZ, .highZ)
  else if (actOf s a).frames.isEmpty then (.low, .low, .released) else (.driven, .driven, .driven)

/-- R80, R368: SENS_SCL and SENS_SDA are open drain: released between transactions. -/
def sensorContacts (s : State) : Level := if s.pwr.powered then .released else .highZ

/-- R368, R406: SGMII: released until the Bursar runs. -/
def sgmiiContact (s : State) : Level :=
  if !s.pwr.powered then .highZ else if flag s burB BUR_STATUS_RUNNING then .driven else .released

/-- R286, R368: KR_P0 to KR_P3: electrical idle in a halt and until lock and the network section; a warm reset holds the link. -/
def hostContact (s : State) (h : HostId) : Level :=
  if !s.pwr.powered then .highZ
  else if service s ≠ 4 ∧ (flag s (hostBase h.val) HP_LINK_UP || linkAllowed s h) = true then .driven else .idle

end Sys2Proof.Machine
end

