-- ==== Sys2Proof/WellFormed.lean ====
section
/-!
DEFINITION. Sys2Proof/WellFormed.lean: the commands whose operands fit the fields that carry them. A command outside these bounds cannot be
sent; exec gives it a meaning all the same.
-/
namespace Sys2Proof

/-- Queue and command identifiers have 16 bits (R289, the NVMe submission entry); 65536 is the discovery controller's queue (R288). -/
def Sqe.wf (c : Sqe) : Bool := decide (c.qid ≤ 65536 ∧ c.cid < 65536)

/-- R296: the key sits in four DWORDs, its length in 8 bits. -/
def KvKey.wf (k : KvKey) : Bool := decide (k.nsid < 2 ^ 32 ∧ k.len < 256 ∧ k.bytes.length = 16)

/-- R204: the reaches of an actuator. -/
def ReachId.wf (r : ReachId) : Bool := decide (r.reach < 10240)

/-- R245, R246: an access is to one 16-byte codeword of the 64 GiB Pool; 144 bits can flip. -/
def PoolAcc.wf (a : PoolAcc) : Bool :=
  decide (a.addr % 16 = 0 ∧ a.addr < 2 ^ 36 ∧ a.reached % 16 = 0 ∧ a.reached < 2 ^ 36 ∧ a.enable < 65536 ∧ a.data.length = 16)
    && a.flips.all (fun i => decide (i < 144))

/-- R395: the 72 bits of an SRAM word, 28 address bits. -/
def MemErr.wf (e : MemErr) : Bool := decide (e.addr < 2 ^ 28 ∧ e.reached < 2 ^ 28) && e.flips.all (fun i => decide (i < 72))

/-- R204, R206: a reach of an actuator and a slot of it. -/
def SlotZero.wf (z : SlotZero) : Bool := decide (z.reach < 10240 ∧ z.lastSlot < 2 ^ 20)

/-- R204, R206. -/
def CellPlace.wf (c : CellPlace) : Bool := decide (c.act < 48 ∧ c.reach < 10240 ∧ c.slot < 2 ^ 20)

/-- Every operand fits its field. -/
def Instr.wf (i : Instr) : Bool :=
  match i with
  | .blockRegisterWrite _ addr _ => decide (addr < 2 ^ 32)
  | .latchingLowHalfRead _ addr => decide (addr < 2 ^ 32)
  | .stampTakeLoRead _ => true
  | .feedGood _ => true
  | .feedNotGood _ => true
  | .converterConditionHeld _ _ => true
  | .busUndervoltage _ _ => true
  | .switchOverGapEnd _ => true
  | .forceSwap _ => true
  | .pwrIbSetWrite _ _ => true
  | .powerDown => true
  | .failedMarkClear _ => true
  | .holdupCharged _ => true
  | .feedExerciseDue => true
  | .exerciseWindowEnd => true
  | .exerciseRetry => true
  | .paceUpdate _ => true
  | .governorEvaluation _ => true
  | .fabGovCtlWrite _ _ => true
  | .readCut _ => true
  | .writeCut _ => true
  | .receiveWindowShrink _ => true
  | .rxFrameDrop _ => true
  | .preampFrameDone _ _ _ => true
  | .hlxFltNFall _ _ _ => true
  | .shockNFall _ => true
  | .shockNRelease _ => true
  | .sensorPoll _ _ _ => true
  | .presNLow _ => true
  | .settleWindowEnd _ => true
  | .identityRead _ first second => (first.all (fun r => decide (r.length = 256))) && (second.all (fun r => decide (r.length = 256)))
  | .preampIdentCheck _ _ _ => true
  | .supplyTrip _ => true
  | .hdaCtlRelease _ _ => true
  | .presNHigh _ => true
  | .restCheck _ _ => true
  | .slowStop _ => true
  | .hdaPaGo _ _ => true
  | .sectorSampled _ _ _ _ => true
  | .laneFree _ => true
  | .firstPassJobEnd _ err => err.all MemErr.wf
  | .deepSliceEnd _ err => err.all MemErr.wf
  | .verifyJobEnd _ err => err.all MemErr.wf
  | .dpLaneEnWrite _ _ => true
  | .dpCtlWrite _ _ => true
  | .servoWedge _ _ => true
  | .lostTimeout _ => true
  | .settleTimeout _ => true
  | .svTargetWrite _ _ _ => true
  | .svSettleWrite _ _ _ => true
  | .load _ => true
  | .loadLockTimeout _ => true
  | .loadRetry _ => true
  | .unload _ => true
  | .unloadParked _ _ => true
  | .retractParked _ _ => true
  | .svCtlRetract _ _ => true
  | .resetRetractStart => true
  | .flyingThresholdCrossed _ _ => true
  | .loopSample _ _ _ => true
  | .leEnable _ _ => true
  | .leDisable _ _ => true
  | .leManual _ _ _ => true
  | .leHoldSet _ _ _ => true
  | .leReload _ _ => true
  | .tuneStart _ _ => true
  | .tuneStop _ _ => true
  | .tuneTimeout _ => true
  | .zoneTableWrite _ _ _ _ _ => true
  | .spSpeedSet _ _ _ => true
  | .spCommWrite _ _ _ => true
  | .zeroCrossing _ _ => true
  | .commutation _ => true
  | .missedCrossing _ => true
  | .overcurrent _ => true
  | .startMeasurementEnd _ _ => true
  | .alignStep _ => true
  | .openTmo _ => true
  | .retryWaitEnd _ => true
  | .lostWatchEnd _ => true
  | .spinDownBrake _ => true
  | .spCtlRun _ _ _ => true
  | .sluicePlanWrite _ _ => true
  | .sluiceEvaluation _ => true
  | .runOver _ => true
  | .asWorkGo _ _ => true
  | .nano _ err => err.all MemErr.wf
  | .writeGateReturn _ => true
  | .jump _ => true
  | .call _ => true
  | .return_ _ => true
  | .loop _ => true
  | .wait _ => true
  | .waitConditionMet _ => true
  | .waitTimeout _ => true
  | .noOperation _ => true
  | .halt _ => true
  | .enterHorizontalMode _ => true
  | .fetch _ => true
  | .horizontalWord _ err => err.all MemErr.wf
  | .sectorRunComplete _ => true
  | .writeSlot _ => true
  | .asWithdraw _ _ _ => true
  | .asCtlRun _ _ _ => true
  | .asCtlTest _ _ => true
  | .asCtlRecover _ _ => true
  | .asDoneRead _ _ => true
  | .asCustArm _ _ => true
  | .asCustDisarm _ _ => true
  | .ledgerOpen _ r => ReachId.wf r
  | .ledgerClose _ r => ReachId.wf r
  | .ledgerReopen _ r => ReachId.wf r
  | .ledgerRetire _ r => ReachId.wf r
  | .dayTick => true
  | .journalAge r => ReachId.wf r
  | .ledgerMirror => true
  | .ledgerInventory _ _ => true
  | .inventoryEnd _ found _ => found.all SlotZero.wf
  | .ledgerEntryWrite _ addr _ err => decide (addr < 2 ^ 32) && err.all MemErr.wf
  | .defectWindowAdd _ => true
  | .defectWindowRemove _ => true
  | .srClassWrite _ _ _ _ => true
  | .readAroundDeadline tag _ member _ => decide (tag < 65536) && decide (member < 24)
  | .startLimit tag _ member => decide (tag < 65536) && decide (member < 24)
  | .stripeEngineJobEnd _ => true
  | .rebuildMemberDone _ member => decide (member < 24)
  | .stripeAudit _ => true
  | .poolAccess acc => PoolAcc.wf acc
  | .patrolScrub _ _ => true
  | .poolLogClear _ => true
  | .drainEnd seg => decide (seg < 65536)
  | .fillEnd seg => decide (seg < 65536)
  | .destageVerified seg => decide (seg < 65536)
  | .sequentialDetectorOff _ => true
  | .mvGo _ _ => true
  | .mvWithdraw _ _ => true
  | .moverGrant _ _ => true
  | .beatError _ _ => true
  | .moverRequestEnd _ => true
  | .mvRateWrite _ _ _ => true
  | .poolDirRateWrite _ _ => true
  | .bandClose band _ => decide (band < 43712)
  | .tuRead _ _ => true
  | .garbageCollection _ _ => true
  | .gcErase _ => true
  | .programFail _ => true
  | .rsvDiscardGo _ => true
  | .reservoirLeavesService _ _ unreadable => unreadable.all CellPlace.wf
  | .throttle _ _ => true
  | .stagingLow => true
  | .connect c _ _ _ _ => Sqe.wf c
  | .disconnect c => Sqe.wf c
  | .propertyGet c _ => Sqe.wf c
  | .controllerEnable c => Sqe.wf c
  | .controllerDisable c => Sqe.wf c
  | .nvmSubsystemReset c _ => Sqe.wf c
  | .headerDigestFailure _ _ => true
  | .dataDigestFailure c => Sqe.wf c
  | .queueReset _ _ => true
  | .keepAliveExpiry _ => true
  | .getLogPage c _ _ _ _ _ => Sqe.wf c
  | .identify c _ _ nsid => Sqe.wf c && decide (nsid < 2 ^ 32)
  | .abort c _ _ => Sqe.wf c
  | .getFeatures c _ => Sqe.wf c
  | .setPowerManagement c _ _ => Sqe.wf c
  | .setTemperatureThreshold c _ _ _ => Sqe.wf c
  | .setVolatileWriteCache c _ _ => Sqe.wf c
  | .setNumberOfQueues c _ _ _ => Sqe.wf c
  | .setAsyncEventConfiguration c _ _ => Sqe.wf c
  | .setTimestamp c _ _ => Sqe.wf c
  | .setKeepAliveTimer c _ _ => Sqe.wf c
  | .asynchronousEventRequest c => Sqe.wf c
  | .firmwareImageDownload c _ _ => Sqe.wf c
  | .firmwareCommit c _ _ => Sqe.wf c
  | .activationDrainEnd => true
  | .keepAlive c => Sqe.wf c
  | .registerWindowWrite c addr vals => Sqe.wf c && decide (addr < 2 ^ 32) && decide (vals.length < 2048)
  | .registerWindowRead c addr count => Sqe.wf c && decide (addr < 2 ^ 32) && decide (count < 2048)
  | .daybookFreeze c => Sqe.wf c
  | .daybookResume c => Sqe.wf c
  | .functionReinit c _ _ => Sqe.wf c
  | .functionReinitQueues c _ => Sqe.wf c
  | .configurationCommit c _ _ _ _ => Sqe.wf c
  | .configCommitWriteEnd _ => true
  | .flush c ns => Sqe.wf c && decide (ns < 2 ^ 32)
  | .flushComplete c => Sqe.wf c
  | .store c k _ _ => Sqe.wf c && KvKey.wf k
  | .retrieve c k _ _ => Sqe.wf c && KvKey.wf k
  | .list c k _ => Sqe.wf c && KvKey.wf k
  | .delete c k => Sqe.wf c && KvKey.wf k
  | .exist c k => Sqe.wf c && KvKey.wf k
  | .appendValue c k _ _ _ => Sqe.wf c && KvKey.wf k
  | .auditObject c k _ _ _ => Sqe.wf c && KvKey.wf k
  | .importStreamWrite c _ _ _ _ _ => Sqe.wf c
  | .exportStreamRead c _ _ _ _ _ _ => Sqe.wf c
  | .lockGrant ticket => decide (ticket < 65536)
  | .durableMarkAdvance _ => true
  | .streamIdleTimeout _ _ _ => true
  | .ptpOffer _ _ => true
  | .ppsInEdge _ => true
  | .meterIntervalEnd chans => decide (chans.length = 26)
  | .cellLow _ => true
  | .sealBreach => true
  | .powerOn _ _ _ _ _ => true
  | .startComplete unreadable => unreadable.all CellPlace.wf
  | .resetNLow => true
  | .resetNCold => true
  | .resetNRise => true
  | .rstCtlWarm _ => true
  | .rstCtlCold _ => true
  | .warmReset _ => true
  | .coldReset _ => true
  | .warmResetEnd => true
  | .coldResetEnd => true
  | .watchdogKick _ _ => true
  | .watchdogExpiry => true
  | .rstBlockReq _ _ => true
  | .blockResetIdle _ _ _ _ => true
  | .rstRelease _ _ => true
  | .pllLock _ => true
  | .pllLockLoss _ => true
  | .dualRailReport _ _ _ => true
  | .persistingFaultEvent _ _ _ _ => true
  | .quietPeriodEnd _ _ => true
  | .backoffReset _ _ => true
  | .fltReactWrite _ _ _ => true
  | .fltHistClear _ _ => true
  | .fltMemLogClear _ _ => true
  | .dbWriteGo _ _ => true
  | .daybookMirror _ => true
  | .freezeWindowEnd => true
  | .sensorThresholdCrossing sensor _ => decide (sensor < 65536)
  | .temperatureHistoryHour => true
  | .setEndpointId _ => true
  | .getEndpointId => true
  | .getMctpVersionSupport _ => true
  | .getMessageTypeSupport => true
  | .readNvmeMiDataStructure _ => true
  | .nvmSubsystemHealthStatusPoll => true
  | .controllerHealthStatusPoll _ => true
  | .configurationGet _ => true
  | .vpdRead _ _ => true
  | .tunnelledAdminCommand _ => true
  | .registerRead addr count => decide (addr < 2 ^ 32) && decide (count < 128)
  | .registerWrite addr _ => decide (addr < 2 ^ 32)
  | .getTid => true
  | .getPldmVersion _ => true
  | .getPldmTypes => true
  | .getPldmCommands _ => true
  | .getPdr _ => true
  | .getSensorReading sensor => decide (sensor < 65536)
  | .setEventReceiver _ => true
  | .hostLinkUp _ => true
  | .hostLinkDown _ => true
  | .rsFecLockLost _ => true
  | .pllLockTimeout _ => true
  | .reservoirReady _ => true
  | .throttleEnd => true
  | .coreUncorrectableError _ => true
  | .arpNdpIcmpEcho _ _ _ => true

end Sys2Proof
end

