-- ==== Sys2Proof/Tests/Slice0.lean ====
section
/-!
SUPPORT. Sys2Proof/Tests/Slice0.lean: checks of the model on small states: an ill-formed term for each check of WellFormed, worked values
of the spec, and for every statement with hypotheses the states and operands that meet them.
-/
namespace Sys2Proof.Tests
open Machine Machine.Reg
set_option Elab.async false

/-! ### Small states -/

/-- The module in Online. -/
def on : State := State.reset |> wr idB GLB_SERVICE_STATE 1
def at_ (t : Nat) (s : State) : State := { s with time := { s.time with assay := t, unit := t } }
/-- Both feeds good, a standby ready. -/
def both : State := on |> wr pwrB PWR_STATUS_FEEDB_GOOD 1 |> wr pwrB PWR_STATUS_STANDBY_READY 1
def marked : State :=
  { (both |> wr pwrB PWR_STATUS_CONVB_FAILED 1) with pwr := { on.pwr with feedB := ⟨none, true, some 0, some 5⟩ } }
def port (st : Nat) : State := on |> wr (portBase 0) HDA_STATUS_STATE st
def spin (st : Nat) : State := on |> wr (portBase 0) SP_STATUS_STATE st
def servo (st : Nat) : State := on |> wr (actBase 0) SV_STATE_STATE st
/-- Turning at the set speed, the heads parked. -/
def spun : State :=
  { (spin 7 |> wr (portBase 0) SP_MEAS_SPEED 7200 |> wr (portBase 0) SP_SPEED_TARGET 7200) with acts := [] }
def turning_ (comm : Nat) : State :=
  spin 7 |> wr (portBase 0) SP_COMM_MISS_MAX 2 |> modPort 0 (fun x => { x with times := [1000], lastComm := comm })
def limits : State := on |> modPort 0 (fun x => { x with window := some (3600, 7200) })
def crcEnd (bs : List Byte) : List Byte := bs ++ (leBytes 4 (crc32c bs) ++ [])
/-- A running image with one section of type `ty` whose first bytes are `bs`. -/
def oneSection (ty : Nat) (bs : List Byte) : List Byte :=
  List.replicate 6 0 ++ [1, 0] ++ List.replicate 56 0 ++ leBytes 2 ty ++ [0, 0, 0x50, 0, 0, 0, 12, 0, 0, 0, 0, 0, 0, 0] ++ bs
def netImage : List Byte := oneSection 3 [4, 24, 1]
def slotFw : FwSlot := ⟨true, [], [1], [(0, 7)]⟩
def flash : Flash := ⟨false, 64, [], [], slotFw, slotFw⟩
/-- The identity record of R83's example values, with its CRC. -/
def goodRecord : List Byte :=
  crcEnd (leBytes 4 0x44484D4C ++ leBytes 2 2 ++ leBytes 2 256 ++ [1, 0, 1, 0] ++ List.replicate 16 0x41 ++ [0, 0, 12, 8] ++ leBytes 4 0xFFFFFF
    ++ leBytes 2 10240 ++ leBytes 2 10240 ++ leBytes 2 3600 ++ leBytes 2 7200 ++ leBytes 2 480 ++ leBytes 2 2000 ++ leBytes 2 1000
    ++ leBytes 2 4000 ++ leBytes 2 3000 ++ leBytes 2 2000 ++ leBytes 2 600 ++ leBytes 2 300 ++ List.replicate 48 0x20 ++ List.replicate 144 0)
def powering : State := { (port 2) with cfg := { loaderState0 with running := oneSection 2 ([1, 0, 1, 0, 2, 0, 0, 0]
  ++ leBytes 4 0xC0000200 ++ leBytes 4 0 ++ leBytes 4 0xC0000204 ++ leBytes 4 129600) } }
def noWedge : Wedge := ⟨[], 0, 0, 0, 0, false⟩
def tune0 : Tune := ⟨0, 1, 0, none, [], 0, [], 0, 0⟩
def run0 : SecRun where
  op := 0
  reach := 5
  test := false
  angle := 0
  windows := []
  last := none
  wasCut := false
  count := 0
  start := 0
  raw := false
  wseqChk := false
  combine := false
  advance := false
  deadline := 0
  began := 0
  issued := 0
  results := []
  relocated := 0
  verifying := false
  paused := false
  verifyQ := []
  relocQ := []
def job (c : JobClass) : Job where
  act := 0
  tag := 7
  cls := c
  sector := 3
  slot := 3
  reach := 5
  wseq := none
  budget := 0
  deadline := 0
  iters := 0
  slice := 0
  m1 := none
  m2 := none
  fromMark2 := false
  reframed := false
  wentDeep := false
  combine := false
  reads := 1
  withdrawn := false
  word := []
  alt := []
  dec := none
def item : Item := ⟨7, 63, 5, 0, 256, 0, 0, 0, 0, 0, false, false⟩
def wait_ : Wait := ⟨0, true, 9, 5, none, false, false⟩
def entry : JEntry := ⟨1, [9], [], 0, 0, 5, ⟨1, 0, 0⟩, 0⟩
/-- Reach 5 of A00 in state `st`. -/
def led (st : Nat) : State := { on with led := { ledgerState0 with entries := [(5, { ledEntry0 with state := st, flags := 0, wp := 2 })] } }
def foreignReach : State := led 5
/-- A00's sequencer about to carry out microword 0, with the given control-store words. -/
def seq (l : List (Nat × Nat)) : State :=
  { (on |> wr (actBase 0) AS_STATUS_MODE 1 |> wr (actBase 0) AS_CTL_RUN 1) with stores := l }
def writing : State :=
  { (led 1 |> wr (actBase 0) AS_STATUS_GRANTED 1) with
    acts := [(0, { act0 with cur := some item, run := some { run0 with op := 2, count := 2, advance := true }, transfer := 1, fifo := List.replicate 4096 0 })] }
def adm : Sqe := ⟨0, 0, 1⟩
def io : Sqe := ⟨0, 1, 1⟩
/-- Port 0 with its admin queue and queue 1. -/
def online : State :=
  on |> wr (hostBase 0) HP_LINK_UP 1 |> wr (hostBase 0) HP_CONN_ADMIN 1 |> wr (hostBase 0) HP_CONN_ENABLED 1
    |> wr (hostBase 0) HP_CONN_READY 1 |> wr srB SR_STATUS_LANE_UP 1 |> wr srB SR_STATUS_ENGINE_UP 1 |> wr srB (SR_CLASS_0_VALID.ix 0) 1
    |> modCtrl 0 (fun x => { x with hostNqn := some 0, queues := [(1, 32)], kato := 1000 })
def agreed : State := online |> wr srB (SR_CLASS_0_VALID.ix 0) 0
def key : KvKey := ⟨1, 1, List.replicate 16 9⟩
def obj_ : Obj :=
  ⟨1, [9], [7], [⟨0, 1, []⟩], [], [], 1, [7], [⟨2 ^ 24, 1, 1, [some ⟨0, 5, 0⟩, some ⟨2, 5, 0⟩]⟩], [], false, [], none⟩
def withObj (o : Obj) : State :=
  { (online |> wr (portBase 0) HDA_STATUS_STATE 4 |> wr (portBase 1) HDA_STATUS_STATE 4) with
    obj := { online.obj with objs := [(1, o)], index := [⟨1, [9], 1⟩], nextObj := 2 } }
def stored : State := withObj obj_
def fetch : Fetch where
  tag := 7
  cmd := io
  obj := 1
  offset := 0
  len := 1
  need := []
  asked := [⟨2 ^ 24, 1, 0, 0⟩]
  bad := []
  good := []
  rebuilt := []
  exhausted := []
  rereads := []
  spent := []
def audit : AuditRead := ⟨[], []⟩
def pool : State := on |> wr poolB POOL_STATUS_READY 1
def seg (st : SegState) (was : Bool) : Seg := ⟨0, 5, 0, st, was, 0, 1⟩
def req : MvReq := ⟨0, 0, 0, 4096, 512, 512, 0, none, false, none, 0⟩
def mover (r : MvReq) : State := on |> modChan 31 (fun x => { x with reqs := [r] })
def rsv : State := on |> wr rsvB RSV_STATUS_READY 1
def band : Band := ⟨0, 0, [5], 0, true, false, false, false⟩
def goodChunk : List Byte := crcEnd (leBytes 4 0x53584D4C ++ [2, 0] ++ List.replicate 4086 0)
theorem goodChunk_length : goodChunk.length = 4096 := by
  simp only [goodChunk, crcEnd, List.length_append, length_leBytes, List.length_replicate, List.length_cons, List.length_nil]
theorem goodChunk_ok : partCrcOk goodChunk = true := by
  have h := crc32c_behind (leBytes 4 0x53584D4C ++ [2, 0] ++ List.replicate 4086 0) []
  have l : (leBytes 4 0x53584D4C ++ [2, 0] ++ List.replicate 4086 (0 : Byte)).length = 0xFFC := by
    simp only [List.length_append, length_leBytes, List.length_replicate, List.length_cons, List.length_nil]
  rw [l] at h
  exact decide_eq_true h
/-- An image of one section that passes R354's checks of length and CRC. -/
def imageHead : List Byte := leBytes 4 0x46434D4C ++ [2, 0, 1, 0] ++ leBytes 4 5 ++ leBytes 4 0x1000
def imageTail : List Byte := leBytes 2 0x2448 ++ [0, 0, 1] ++ List.replicate 4071 0
def image : List Byte := imageHead ++ (leBytes 4 (crc32c (imageHead ++ (leBytes 4 0 ++ imageTail))) ++ imageTail)
theorem image_length : image.length = 4096 := by
  simp only [image, imageHead, imageTail, List.length_append, length_leBytes, List.length_replicate, List.length_cons, List.length_nil]
theorem image_ok : sentOk image = true := by
  have a : imgLength image = 4096 := by decide +kernel
  have b : imgBytes image = image := by
    unfold imgBytes
    rw [a, ← image_length, Nat.sub_self, List.take_length]
    exact List.append_nil _
  have hl : imageHead.length = 16 := by decide
  have c : imgCrc image = leAt image 0x10 4 := by
    have e : leAt image 0x10 4 = crc32c (imageHead ++ (leBytes 4 0 ++ imageTail)) := by
      have := leAt_crc imageHead imageTail (imageHead ++ (leBytes 4 0 ++ imageTail))
      rw [hl] at this
      unfold image; exact this
    have t : image.take 16 = imageHead := by rw [image, ← hl]; exact List.take_left
    have d : image.drop 20 = imageTail := by
      rw [image, show 20 = imageHead.length + 4 by rw [hl], ← List.drop_drop, List.drop_left]
      exact List.drop_left' (length_leBytes _ _)
    rw [e]
    unfold imgCrc
    simp only [b]
    rw [t, d]
    exact congrArg crc32c (List.append_assoc imageHead _ imageTail)
  have f : imgCandidate image = true := by decide +kernel
  have g : (decide (1 ≤ leAt image 6 2 ∧ leAt image 6 2 ≤ 256) && decide (leAt image 0x34 12 = 0) && decide (leAt image 0x18 16 ≠ 0)) = true := by
    decide +kernel
  unfold sentOk
  rw [f, a, image_length, c]
  simpa using g
def timed : State := { on with cfg := { loaderState0 with running := oneSection 4 [0x3F] } }
def faulty : State := { on with flt := { on.flt with units := [(fbAct 0 * 64, { faultUnit0 with inFault := true, quietEnd := 9 })] } }
def mgmt : State := on |> wr burB BUR_STATUS_RUNNING 1
def rec : DayRec := ⟨⟨1, 0, 0⟩, 0x8000, 0, 0, [], 0, 0, 0, 0, 3⟩
def listening : State := { agreed with cfg := { loaderState0 with running := netImage } }

def chilled : State := both |> wr pwrB PWR_STATUS_STANDBY_READY 0
/-- The control store with microword `w` at 0 and its nano-word 0. -/
def micro (w : Nat) : State := seq [(0, w), (0x8000, 0), (0x8004, 0), (0x8008, 0), (0x800C, 0), (0x8010, 0)]
def sampled : SectorIn := ⟨[1, 2, 3], [0, 0, 0], []⟩
def rotor : Rotor := ⟨500, 10, some true, 5000, 0, 0, true, 0⟩
/-- Port 0's identity record with a pole count and a highest speed. -/
def turned (poles rpm : Nat) : State :=
  on |> idCopy 0 (List.replicate 0x1F 0 ++ [BitVec.ofNat 8 poles] ++ List.replicate 10 0 ++ leBytes 2 rpm)
def fetching : State := { stored with str := { stored.str with fetches := [fetch] } }
/-- Member 0 of the object's stripe is to be written again on port 0, where `l` are the ledger entries. -/
def repairing (l : Table LedEntry) : State :=
  { stored with str := { stored.str with missing := [(2 ^ 24, 0, 0)] }, led := { ledgerState0 with entries := l } }
/-- One Pool segment. -/
def segd (g : Seg) : State := { on with pool := { poolState0 with segs := [(3, g)] } }
def busy (l : List MvReq) : State := on |> modChan 31 (fun x => { x with reqs := l })
def goodFetch : Fetch := { fetch with need := [(2 ^ 24, 0)], good := (List.range 256).map (fun i => (2 ^ 24, 0, i)) }
def servedSeg : State :=
  { (segd (seg .filling false) |> wr rsvB RSV_STATUS_READY 1) with rsv := { rsvState0 with clean := [(5 * 2 ^ 20, 0x100000000)] } }
/-- One valid second of a PTP port whose offsets have this median. -/
def second (d : Int) : PtpSecond := ⟨true, 6, true, [d], none⟩
def started : State :=
  on |> wr idB GLB_SERVICE_STATE 0 |> wr rstB RST_STATUS_PHASE 3 |> wr poolB POOL_STATUS_READY 1 |> wr rsvB RSV_STATUS_READY 1
def hosted : State := { online with cfg := timed.cfg }
/-! ### Ill-formed terms, refused by Instr.wf -/

theorem test_wf_register_address : (Instr.blockRegisterWrite .mi (2 ^ 32) 0).wf = false := by decide
theorem test_wf_read_address : (Instr.latchingLowHalfRead .mi (2 ^ 32)).wf = false := by decide
theorem test_wf_identity_record : (Instr.identityRead 0 (some [1, 2]) none).wf = false := by decide
theorem test_wf_decode_memory : (Instr.firstPassJobEnd 0 (some ⟨0, 0, [72]⟩)).wf = false := by decide
theorem test_wf_reach : (Instr.ledgerOpen .mi ⟨0, 10240⟩).wf = false := by decide
theorem test_wf_slot : (Instr.inventoryEnd 0 [⟨true, 0, .unreadable, false, 2 ^ 20⟩] []).wf = false := by decide
theorem test_wf_rebuild_member : (Instr.rebuildMemberDone 0 24).wf = false := by decide
theorem test_wf_pool_codeword : (Instr.poolAccess ⟨8, false, 0, List.replicate 16 0, [], 0⟩).wf = false := by decide
theorem test_wf_pool_flip : (Instr.poolAccess ⟨0, false, 0, List.replicate 16 0, [144], 0⟩).wf = false := by decide
theorem test_wf_segment : (Instr.fillEnd (65536 : Nat)).wf = false := by decide
theorem test_wf_band : (Instr.bandClose 43712 []).wf = false := by decide
theorem test_wf_queue : (Instr.flush ⟨0, 65537, 0⟩ 1).wf = false := by decide
theorem test_wf_command : (Instr.keepAlive ⟨0, 0, 65536⟩).wf = false := by decide
theorem test_wf_key : (Instr.exist ⟨0, 1, 0⟩ ⟨1, 1, [9]⟩).wf = false := by decide
theorem test_wf_member : (Instr.startLimit 0 0 24).wf = false := by decide
theorem test_wf_ticket : (Instr.lockGrant 65536).wf = false := by decide
theorem test_wf_window : (Instr.registerWindowWrite ⟨0, 0, 0⟩ (2 ^ 32) []).wf = false := by decide
theorem test_wf_meter : (Instr.meterIntervalEnd []).wf = false := by decide
theorem test_wf_sensor : (Instr.getSensorReading 65536).wf = false := by decide
theorem test_wf_accepts : (Instr.ledgerOpen .mi ⟨47, 10239⟩).wf = true ∧ (Instr.exist ⟨3, 1, 0⟩ key).wf = true := by decide

/-! ### Worked values of the spec -/

/-- 00_scope.md, the worked example of R11. -/
theorem test_extended_stamps :
    extendShort 0x00800000 0x002FAF083C000000 = 0x002FAF0800800000 ∧ extendShort 0xF0000000 0x002FAF083C000000 = 0x002FAF07F0000000 := by
  decide
/-- 03_fabric_and_stamps.md, the example of R69: the end of the quiet period is outside its window. -/
theorem test_window_end : 0x002FAF0900120000 + secs 10 = 0x002FAF090A120000 ∧
    inWindow 0x002FAF090A120000 0x002FAF0900120000 (secs 10) = false ∧ inWindow 0x002FAF090A11FFFF 0x002FAF0900120000 (secs 10) = true := by
  decide
/-- R381: the source number of A13. -/
theorem test_interrupt_source_of_a13 : irqNumber (actBase 13) = 0x10E := by decide
/-- 05_read_channel.md: block column 200 at k = 3. -/
theorem test_circulant : (ldpcCirc 200).getD 3 (9, 9) = (0, 103) := by decide
/-- R231: the check value of the Cauchy coefficient C(4, 0). -/
theorem test_parity_coefficient : rsCoef 4 0 = 0x8E ∧ gfMul (rsCoef 4 0) (4 ^^^ 6) = 1 := by decide +kernel
/-- 06_servo.md, the wedge on A31: Gray 0x5_6F9F. -/
theorem test_track_field : grayDecode 20 0x56F9F = 412394 := by decide
/-- 06_servo.md, the wedge on A31: y = 412,394.3006, PES 308. -/
theorem test_wedge_position : timingOk 31593 81002 25108 = true ∧
    (servoY 412394 (servoU 31593 81002 25108) * 1024).floor = 412394 * 1024 + 307 ∧ roundAway ((servoY 412394 (servoU 31593 81002 25108) - 412394) * 1024) = 308 := by
  decide +kernel
/-- 07_loop_engine.md, the tune of H06: KP encodes as 0x05CB_B7E4. -/
theorem test_coefficient_word : coefWord (3 / 5 * (800 / (6 * ratPi))) = 0x05CBB7E4 := by decide +kernel
/-- 08_spindles.md: the zone of R126 permits 5,401 rpm and no more. -/
theorem test_rate_bound : (rateBounds [(0, 129600)]).map (fun e => 700000000 / e.2) = some 5401 := by decide
/-- 10_reaches_and_ledger.md: where slot 558,000 of reach 7,034 of A31 lies. -/
theorem test_slot_place : slotPlace ⟨[(0, 129600), (415000, 129600)], 64, 3, 40, List.range 12, 10240⟩ 7034 558000 = some (2, 412394, 262) := by
  decide +kernel
theorem test_slots_per_track : slotsPerTrack 129600 = 1499 ∧ bandTracks 1499 = 700 := by decide
/-- FIPS 180-4: the digests of the empty message and of "abc" begin so. -/
theorem test_sha256 : (sha256 []).take 4 = [0xE3, 0xB0, 0xC4, 0x42] ∧ (sha256 [0x61, 0x62, 0x63]).take 4 = [0xBA, 0x78, 0x16, 0xBF] := by
  decide +kernel
/-- A Pool byte written is listed, and writing what an unlisted byte reads as takes it off the list. -/
theorem test_pool_canonical : (poolPut 5 [0, 7] on).pool.mem.length = 1 ∧ (poolPut 5 [0, 0] (poolPut 5 [1, 7] on)).pool.mem = [] := by decide +kernel
/-- R28, 17_start_and_reset.md: reset leaves the module in Starting. -/
theorem test_reset_service : service State.reset = 0 ∧ State.reset.pending = [] := by decide

/-! ### States and operands that meet each statement's hypotheses -/

theorem witness_FeedsAndConverters :
    (∃ (s : State) (f : _), live s .always = true ∧ feedGood s f = false) ∧
    (∃ (s : State), live s .always = true ∧ s.pwr.failing = false ∧ feedGood s (activeFeed s) = true ∧ flag s pwrB
      PWR_STATUS_STANDBY_READY = true) ∧
    (∃ (s : State), live s .always = true ∧ s.pwr.failing = false ∧ feedGood s (standbyFeed s) = true) ∧
    (∃ (s : State) (am : _) (sm : _), live s .always = true ∧ s.pwr.failing = false ∧ feedGood s .a = true ∧ feedGood s .b = true
      ∧ flag s pwrB PWR_STATUS_STANDBY_READY = true ∧ inBusWindow s am = false ∧ inBusWindow s sm = true) ∧
    (∃ (s : State) (am : _) (sm : _), live s .always = true ∧ s.pwr.failing = false ∧ feedGood s .a = true ∧ feedGood s .b = true
      ∧ inBusWindow s am = true ∧ inBusWindow s sm = false) ∧
    (∃ (s : State) (am : _) (sm : _), live s .always = true ∧ s.pwr.failing = false ∧ feedGood s .a = true ∧ feedGood s .b = true
      ∧ inBusWindow s am = true ∧ inBusWindow s sm = true ∧ busDiffer s am sm = true) ∧
    (∃ (s : State) (am : _) (sm : _), live s .always = true ∧ s.pwr.failing = false ∧ feedGood s .a = true ∧ feedGood s .b = true
      ∧ inBusWindow s am = true ∧ inBusWindow s sm = true ∧ busDiffer s am sm = false) ∧
    (∃ (s : State), live s .always = true ∧ s.pwr.failing = false ∧ feedGood s (activeFeed s) = true ∧ flag s pwrB
      PWR_STATUS_STANDBY_READY = false) ∧
    (∃ (s : State) (bm : _) (sm : _), live s .always = true ∧ s.pwr.failing = false ∧ busLow bm = true ∧ inBusWindow s sm = true ∧
      flag s pwrB PWR_STATUS_STANDBY_READY = true) ∧
    (∃ (s : State) (bm : _) (sm : _), live s .always = true ∧ s.pwr.failing = false ∧ busLow bm = true ∧ (inBusWindow s sm && flag
      s pwrB PWR_STATUS_STANDBY_READY) = false) ∧
    (∃ (s : State) (bm : _), live s .always = true ∧ s.pwr.gap = true ∧ busLow bm = false) ∧
    (∃ (s : State) (p : _), live s .always = true ∧ forbidden p 0x20004 = false ∧ accessLive s p 0x20004 = true ∧ s.pwr.failing =
      false ∧ flag s pwrB PWR_STATUS_STANDBY_READY = true) :=
  ⟨⟨on, .b, by decide +kernel⟩,
   ⟨both, by decide +kernel⟩,
   ⟨both, by decide +kernel⟩,
   ⟨both, 0, 12000, by decide +kernel⟩,
   ⟨both, 12000, 0, by decide +kernel⟩,
   ⟨both, 12000, 12600, by decide +kernel⟩,
   ⟨both, 12000, 12000, by decide +kernel⟩,
   ⟨chilled, by decide +kernel⟩,
   ⟨both, 0, 12000, by decide +kernel⟩,
   ⟨both, 0, 0, by decide +kernel⟩,
   ⟨{ on with pwr := { on.pwr with gap := true } }, 12000, by decide +kernel⟩,
   ⟨both, .bursar, by decide +kernel⟩⟩

theorem witness_SetPointsMarksAndExercise :
    (∃ (s : State) (p : _), forbidden p 0x20008 = false ∧ accessLive s p 0x20008 = true) ∧
    (∃ (s : State) (f : _) (x : _), live s .always = true ∧ (feedOf s f).cleanSince = some x ∧ convFailed s f = true ∧ (feedOf s
      f).cycled = true ∧ feedGood s f = true ∧ standbyFeed s = f) ∧
    (∃ (s : State), live s .always = true) ∧
    (∃ (s : State), live s .always = true) ∧
    (∃ (s : State), live s .always = true ∧ flag s pwrB PWR_EXERCISE_ENABLE = true ∧ s.pwr.exerHalted = false ∧ s.pwr.deferFrom =
      none ∧ s.pwr.failing = false ∧ flag s pwrB PWR_STATUS_EXERCISE_ON = false ∧ flag s pwrB PWR_STATUS_STANDBY_READY = true ∧
      exerDefer (reach (exerDueAt s) s) = false) ∧
    (∃ (s : State), live s .always = true ∧ flag s pwrB PWR_STATUS_EXERCISE_ON = true ∧ s.pwr.failing = false ∧ flag s pwrB
      PWR_STATUS_STANDBY_READY = true ∧ activeFeed s ≠ s.pwr.exerHome) ∧
    (∃ (s : State) (x : _), live s .always = true ∧ flag s pwrB PWR_EXERCISE_ENABLE = true ∧ s.pwr.deferFrom = some x ∧ x + secs
      3600 ≤ now s) ∧
    (∃ (s : State), s.pwr.powered = true ∧ s.pwr.failing = true) :=
  ⟨⟨on, .bursar, by decide +kernel⟩,
   ⟨marked, .b, 5, by decide +kernel⟩,
   ⟨on, by decide +kernel⟩,
   ⟨on, by decide +kernel⟩,
   ⟨both |> wr pwrB PWR_EXERCISE_ENABLE 1, by decide +kernel⟩,
   ⟨{ (both |> wr pwrB PWR_STATUS_EXERCISE_ON 1) with pwr := { on.pwr with exerHome := .b } }, by decide +kernel⟩,
   ⟨at_ (secs 3600) { (on |> wr pwrB PWR_EXERCISE_ENABLE 1) with pwr := { on.pwr with deferFrom := some 0 } }, 0, by decide +kernel⟩,
   ⟨{ on with pwr := { on.pwr with failing := true } }, by decide +kernel⟩⟩

theorem witness_PowerFrame :
    (∃ (s : State) (t : State) (c : Instr), ((∃ f, c = .feedGood f) ∨ (∃ bm, busLow bm = false ∧ c = .switchOverGapEnd bm) ∨ (∃ p,
      c = .forceSwap p) ∨ (∃ p v, c = .pwrIbSetWrite p v) ∨ (∃ f, c = .failedMarkClear f) ∨ c = .feedExerciseDue ∨ c =
      .exerciseWindowEnd ∨ c = .exerciseRetry) ∧ exec c s = .next t) :=
  ⟨both, _, .forceSwap .bursar, by simp, rfl⟩

theorem witness_PaceAndGovernor :
    (∃ (s : State), live s .core = true) ∧
    (∃ (s : State), live s .core = true ∧ flag s fabB FAB_GOV_CTL_ENABLE = true ∧ govPace s < rd s fabB FAB_GOV_CTL_TARGET ∧ rd s
      fabB FAB_VCORE_CODE < rd s fabB FAB_GOV_CTL_VMAX) ∧
    (∃ (s : State), live s .core = true ∧ flag s fabB FAB_GOV_CTL_ENABLE = true ∧ rd s fabB FAB_GOV_CTL_TARGET + 24 ≤ govPace s ∧
      99 ≤ s.fab.highRun ∧ rd s fabB FAB_GOV_CTL_VMIN < rd s fabB FAB_VCORE_CODE) ∧
    (∃ (s : State), live s .core = true ∧ flag s fabB FAB_GOV_CTL_ENABLE = false) ∧
    (∃ (s : State) (p : _) (v : Word), forbidden p 0x30004 = false ∧ accessLive s p 0x30004 = true ∧ min 30 (v.toNat / 2 ^ 16 %
      32) ≤ min 30 (v.toNat / 2 ^ 24 % 32)) ∧
    (∃ (s : State) (p : _) (v : Word), forbidden p 0x30004 = false ∧ accessLive s p 0x30004 = true ∧ min 30 (v.toNat / 2 ^ 24 %
      32) < min 30 (v.toNat / 2 ^ 16 % 32)) :=
  ⟨⟨on, by decide +kernel⟩,
   ⟨on |> wr fabB FAB_GOV_CTL_ENABLE 1 |> wr fabB FAB_PACE_INDEX 0 |> wr fabB FAB_VCORE_CODE 3 |> wr fabB FAB_GOV_CTL_VMAX 4,
     by decide +kernel⟩,
   ⟨{ (on |> wr fabB FAB_GOV_CTL_ENABLE 1 |> wr fabB FAB_VCORE_CODE 5 |> wr fabB FAB_GOV_CTL_VMIN 4) with fab := { on.fab with highRun := 99, low := some 4095 } },
     by decide +kernel⟩,
   ⟨on |> wr fabB FAB_GOV_CTL_ENABLE 0, by decide +kernel⟩,
   ⟨on, .bursar, 0x1E1E0200, by decide +kernel⟩,
   ⟨on, .bursar, 0x011E0200, by decide +kernel⟩⟩

theorem witness_FallingBehind :
    (∃ (s : State), live s .core = true) ∧
    (∃ (s : State), live s .core = true) ∧
    (∃ (s : State), live s .core = true) ∧
    (∃ (s : State), live s .core = true) :=
  ⟨⟨on, by decide +kernel⟩,
   ⟨on, by decide +kernel⟩,
   ⟨on, by decide +kernel⟩,
   ⟨on, by decide +kernel⟩⟩

theorem witness_ReadsThatAct :
    (∃ (s : State) (p : Path) (addr : _), isPairLo addr = true ∧ readLive s p = true) ∧
    (∃ (s : State) (p : Path), readLive s p = true) ∧
    (∃ (s : State) (p : Path), readLive s p = true) ∧
    (∃ (s : State) (p : Path), readLive s p = true) ∧
    (∃ (s : State) (addr : _), addrOk addr = false ∧ s.pwr.powered = true) ∧
    (∃ (s : State) (p : Path) (src : _), readLive s p = true ∧ takeSource p = some src) ∧
    (∃ (s : State) (p : Path), readLive s p = true ∧ takeSource p = none ∧ serviceTrue s = true) :=
  ⟨⟨on, .bursar, 0x30020, by decide +kernel⟩,
   ⟨on, .window 0, by decide +kernel⟩,
   ⟨on, .window 0, by decide +kernel⟩,
   ⟨on, .window 0, by decide +kernel⟩,
   ⟨on, 3, by decide +kernel⟩,
   ⟨on, .teller 15, 0x1F, by decide +kernel⟩,
   ⟨State.reset, .loader, by decide +kernel⟩⟩

theorem witness_StampsOfOneSource :
    (∃ (s : State) (src : Nat), 16 ≤ (tget stampSrc0 s.time.srcs src).run) ∧
    (∃ (src : Nat) (o : _), o ≠ src) :=
  ⟨⟨{ on with time := { on.time with srcs := [(1, ⟨16, 1, 16⟩)] } }, 1, by decide +kernel⟩,
   ⟨1, 0, by decide +kernel⟩⟩

theorem witness_UnitTimeHolds :
    (∃ (s : State) (x : Nat), x < s.time.unit) ∧
    (∃ (s : State) (x : Nat), x < s.time.unit ∧ flag s fabB STAMP_STATUS_HOLDING = false) ∧
    (∃ (s : State) (x : Nat), s.time.unit < x) ∧
    (∃ (s : State) (x : Nat), flag s fabB STAMP_STATUS_HOLDING = true ∧ x = s.time.unit) :=
  ⟨⟨on, 0, by decide +kernel⟩,
   ⟨on, 0, by decide +kernel⟩,
   ⟨on, 2, by decide +kernel⟩,
   ⟨on |> wr fabB STAMP_STATUS_HOLDING 1, 1, by decide +kernel⟩⟩

theorem witness_LinkEvents :
    (∃ (s : State) (n : PortId) (p : _), forbidden p (portBase n.val + 0x14) = false ∧ accessLive s p (portBase n.val + 0x14) =
      true ∧ (portOf s n.val).swFrame = false ∧ underReset s 2 n.val = false ∧ paRefused s n.val = false) ∧
    (∃ (s : State) (n : PortId) (p : _), forbidden p (portBase n.val + 0x14) = false ∧ accessLive s p (portBase n.val + 0x14) =
      true ∧ (portOf s n.val).swFrame = false ∧ underReset s 2 n.val = false ∧ paRefused s n.val = true) ∧
    (∃ (s : State) (a : ActId) (f : Frame) (rest : _) (data : BitVec 16) (check : BitVec 8), live s .core = true ∧ (actOf s
      a.val).frames = f :: rest ∧ f.again = false ∧ frameBad f data.toNat check.toNat = false) ∧
    (∃ (s : State) (a : ActId) (f : Frame) (rest : _) (data : BitVec 16) (check : BitVec 8), live s .core = true ∧ (actOf s
      a.val).frames = f :: rest ∧ f.again = false ∧ frameBad f data.toNat check.toNat = true) ∧
    (∃ (s : State) (a : ActId), live s .motion = true ∧ portState s (portOfAct a.val) = 4 ∧ (unitOf s (fbAct a.val) 0).inFault =
      false ∧ (actOf s a.val).fltTried = false ∧ (actOf s a.val).writing = false) ∧
    (∃ (s : State), live s .motion = true) ∧
    (∃ (s : State), live s .motion = true) ∧
    (∃ (s : State) (n : PortId) (bs : _), live s .core = true ∧ 2 ≤ portState s n.val ∧ portState s n.val ≤ 5 ∧ (portOf s
      n.val).sensBad = false ∧ leAt bs 4 1 % 2 = 0) ∧
    (∃ (s : State) (n : PortId), live s .core = true ∧ 2 ≤ portState s n.val ∧ portState s n.val ≤ 5 ∧ (portOf s n.val).sensBad =
      false) :=
  ⟨⟨port 4 |> wr (portBase 0) HDA_PA_CMD_ADDR 8 |> wr (portBase 0) HDA_PA_CMD_READ 1, 0, .bursar, by decide +kernel⟩,
   ⟨port 4 |> wr (portBase 0) HDA_PA_CMD_ADDR 9, 0, .bursar, by decide +kernel⟩,
   ⟨on |> modAct 0 (fun x => { x with frames := [⟨true, 3, 0, true, false⟩] }), 0, ⟨true, 3, 0, true, false⟩, [], 7,
     BitVec.ofNat 8 (frameCheck true 3 7), by decide +kernel⟩,
   ⟨on |> modAct 0 (fun x => { x with frames := [⟨true, 3, 0, true, false⟩] }), 0, ⟨true, 3, 0, true, false⟩, [], 7,
     BitVec.ofNat 8 (frameCheck true 3 7) ^^^ 1, by decide +kernel⟩,
   ⟨port 4, 0, by decide +kernel⟩,
   ⟨on, by decide +kernel⟩,
   ⟨on, by decide +kernel⟩,
   ⟨port 5, 0, [1, 2, 3, 4, 0], by decide +kernel⟩,
   ⟨port 2, 0, by decide +kernel⟩⟩

set_option maxRecDepth 20000 in
theorem witness_PortStates :
    (∃ (s : State) (n : PortId), live s .always = true ∧ live s .motion = true ∧ cfgApplied s = true ∧ portState s n.val = 0) ∧
    (∃ (s : State) (n : PortId), live s .motion = true ∧ portState s n.val = 1 ∧ flag s (portBase n.val) HDA_STATUS_PRESENT = true
      ∧ flag s (portBase n.val) HDA_CTL_POWER_ENABLE = true ∧ service s ≠ 3) ∧
    (∃ (s : State) (n : PortId) (bs : _) (x : Section), live s .core = true ∧ portState s n.val = 2 ∧ underReset s 2 n.val = false
      ∧ recordCause bs = 0 ∧ portModel (idCopy n.val bs (reach (portOf s n.val).settleEnd s)) n.val = some x ∧ windowEmpty
      (portPowering n.val x (idCopy n.val bs (reach (portOf s n.val).settleEnd s))) n.val = false) ∧
    (∃ (s : State) (n : PortId) (bs : _), live s .core = true ∧ portState s n.val = 2 ∧ underReset s 2 n.val = false ∧ recordCause
      bs ≠ 0) ∧
    (∃ (s : State) (n : PortId), live s .core = true ∧ portState s n.val = 2 ∧ underReset s 2 n.val = false) ∧
    (∃ (s : State) (n : PortId) (u : BitVec 16) (l : BitVec 16), live s .core = true ∧ portState s n.val = 3 ∧ l ≠ 0 ∧ l ≠ 0xFFFF
      ∧ u ≠ 0 ∧ u ≠ 0xFFFF) ∧
    (∃ (s : State) (n : PortId) (u : BitVec 16) (l : BitVec 16), live s .core = true ∧ portState s n.val = 3 ∧ l ≠ 0 ∧ l ≠ 0xFFFF
      ∧ u = 0) ∧
    (∃ (s : State) (n : PortId), live s .motion = true ∧ portState s n.val = 3) ∧
    (∃ (s : State) (n : PortId) (p : _), forbidden p (portBase n.val + 4) = false ∧ accessLive s p (portBase n.val + 4) = true ∧
      portState s n.val = 4) ∧
    (∃ (s : State) (n : PortId), live s .always = true ∧ live s .motion = true ∧ portState s n.val ≠ 0) ∧
    (∃ (s : State) (n : PortId) (emf : _), live s .motion = true ∧ s.pwr.failing = false ∧ spState s n.val = 3 ∧ (portOf s
      n.val).brakeFor = .release ∧ (portOf s n.val).brake = .short ∧ atRest s n.val emf = true) ∧
    (∃ (s : State) (n : PortId), live s .motion = true ∧ portState s n.val = 5) :=
  ⟨⟨on |> wr cfgB CFG_STATUS_STATE 4, 0, by decide +kernel⟩,
   ⟨port 1 |> wr (portBase 0) HDA_STATUS_PRESENT 1 |> wr (portBase 0) HDA_CTL_POWER_ENABLE 1, 0, by decide +kernel⟩,
   ⟨powering, 0, goodRecord, ⟨2, 0, 0x50, 12⟩, by decide +kernel⟩,
   ⟨port 2, 0, [], by decide +kernel⟩,
   ⟨port 2, 0, by decide +kernel⟩,
   ⟨port 3, 0, 1, 0xFFFE, by decide +kernel⟩,
   ⟨port 3, 0, 0, 1, by decide +kernel⟩,
   ⟨port 3, 0, by decide +kernel⟩,
   ⟨port 4, 0, .bursar, by decide +kernel⟩,
   ⟨port 7, 0, by decide +kernel⟩,
   ⟨{ spin 3 with ports := [(0, { port0 with brakeFor := .release, brake := .short })] }, 0, 0, by decide +kernel⟩,
   ⟨port 5, 0, by decide +kernel⟩⟩

theorem witness_LinkFrame :
    (∃ (s : State) (t : State) (n : PortId) (c : Instr), (c = .shockNFall n ∨ c = .shockNRelease n ∨ c = .presNLow n ∨ c =
      .presNHigh n ∨ c = .settleWindowEnd n ∨ (∃ u l, c = .preampIdentCheck n u l) ∨ (∃ p, c = .hdaCtlRelease p n) ∨ c = .slowStop
      n ∨ (∃ p, c = .hdaPaGo p n)) ∧ exec c s = .next t) ∧
    (∃ (s : State) (t : State) (n : PortId) (c : Instr), (c = .presNLow n ∨ c = .settleWindowEnd n) ∧ exec c s = .next t) ∧
    (∃ (s : State) (t : State) (n : PortId) (c : Instr), c = .slowStop n ∧ exec c s = .next t) :=
  ⟨⟨port 4, _, 0, .hdaCtlRelease .bursar 0, by simp, rfl⟩,
   ⟨port 1 |> wr (portBase 0) HDA_STATUS_PRESENT 1, _, 0, .settleWindowEnd 0, by decide +kernel, rfl⟩,
   ⟨port 5, _, 0, .slowStop 0, by decide +kernel, rfl⟩⟩

theorem witness_WedgesAndSeeks :
    (∃ (s : State) (a : ActId), live s .motion = true ∧ svState s a.val ≠ 0 ∧ svState s a.val ≠ 6 ∧ (actOf s a.val).retractWait =
      false ∧ flag s (actBase a.val) SV_CTL_ENABLE = true) ∧
    (∃ (s : State) (a : ActId), live s .motion = true ∧ svState s a.val ≠ 0 ∧ svState s a.val ≠ 6 ∧ (actOf s a.val).retractWait =
      true) ∧
    (∃ (s : State) (a : ActId), live s .motion = true ∧ svState s a.val = 7 ∧ (actOf s a.val).lostAt + 480 ≤ (actOf s
      a.val).wedgeCount ∧ rd s (fbAct a.val) FLT_REACT_ACTION = 0 ∧ (unitOf s (fbAct a.val) 0).inFault = false) ∧
    (∃ (s : State) (a : ActId), live s .motion = true ∧ svState s a.val = 3 ∧ (actOf s a.val).settleTries = 0 ∧ (actOf s
      a.val).settleAt + 16 * rd s (actBase a.val) SV_SEEK_SETTLE_TMO ≤ (actOf s a.val).wedgeCount) ∧
    (∃ (s : State) (a : ActId) (p : _), forbidden p (actBase a.val + 0x104) = false ∧ accessLive s p (actBase a.val + 0x104) =
      true ∧ (svState s a.val = 3 ∨ svState s a.val = 4)) ∧
    (∃ (s : State) (a : ActId), live s .motion = true ∧ loadAllowed s a.val = true) ∧
    (∃ (s : State) (a : ActId), live s .motion = true ∧ svState s a.val = 1) ∧
    (∃ (s : State) (a : ActId), live s .motion = true ∧ svState s a.val = 0 ∧ (actOf s a.val).loadTries = 1 ∧ (actOf s
      a.val).unloadFor = .loadRetry ∧ loadAllowed (reach ((actOf s a.val).loadAt + msecs 100) s) a.val = true) ∧
    (∃ (s : State) (a : ActId), live s .motion = true ∧ svState s a.val ≠ 0 ∧ svState s a.val ≠ 6) ∧
    (∃ (s : State) (a : ActId) (emf : _) (us : _), live s .motion = true ∧ svState s a.val = 5 ∧ (actOf s a.val).unloadFor =
      .sequencer ∧ parkedAt s a.val emf = some us) ∧
    (∃ (s : State) (a : ActId), live s .always = true ∧ svState s a.val = 6) ∧
    (∃ (s : State) (a : ActId) (p : _), forbidden p (actBase a.val + 0x100) = false ∧ accessLive s p (actBase a.val + 0x100) =
      true ∧ svState s a.val ≠ 0 ∧ svState s a.val ≠ 6) ∧
    (∃ (s : State) (a : ActId), live s .always = true ∧ (actOf s a.val).retractWait = true ∧ (actOf s a.val).resetHold = true ∧
      svState s a.val ≠ 0 ∧ svState s a.val ≠ 6) ∧
    (∃ (s : State) (a : ActId) (n : PortId) (at_ : _), live s .motion = true ∧ n.val = portOfAct a.val ∧ flyBelow (reach at_ s)
      n.val a.val (max (portOf s n.val).zcIval (now (reach at_ s) - (portOf s n.val).zcAt)) = true) :=
  ⟨⟨servo 4 |> wr (actBase 0) SV_CTL_ENABLE 1, 0, by decide +kernel⟩,
   ⟨servo 5 |> modAct 0 (fun x => { x with retractWait := true }), 0, by decide +kernel⟩,
   ⟨servo 7 |> modAct 0 (fun x => { x with wedgeCount := 480 }), 0, by decide +kernel⟩,
   ⟨servo 3 |> modAct 0 (fun x => { x with wedgeCount := 4080 }), 0, by decide +kernel⟩,
   ⟨servo 4, 0, .bursar, by decide +kernel⟩,
   ⟨spun, 0, by decide +kernel⟩,
   ⟨servo 1, 0, by decide +kernel⟩,
   ⟨spun |> modAct 0 (fun x => { x with loadTries := 1, unloadFor := .loadRetry }), 0, by decide +kernel⟩,
   ⟨servo 4, 0, by decide +kernel⟩,
   ⟨{ servo 5 with acts := [(0, { act0 with unloadFor := .sequencer })] }, 0, [(0, 0), (2000, 0)], 2000, by decide +kernel⟩,
   ⟨servo 6, 0, by decide +kernel⟩,
   ⟨servo 4, 0, .bursar, by decide +kernel⟩,
   ⟨{ (servo 4 |> modAct 0 (fun x => { x with retractWait := true, resetHold := true })) with rst := { on.rst with asserted := some .warm } },
     0, by decide +kernel⟩,
   ⟨turned 12 7200 |> modPort 0 (fun x => { x with flyRef := 7200 }) |> wr (actBase 1) SV_SAFETY_FLY_PCT 90, 1, 0, 2 ^ 24,
     by decide +kernel⟩⟩

theorem witness_SettleLimits :
    (∃ (s : State) (p : Path) (a : ActId) (v : Word), forbidden p (actBase a.val + 0x124) = false ∧ accessLive s p (actBase a.val
      + 0x124) = true ∧ v.toNat / 2 ^ 8 % 256 < v.toNat / 2 ^ 24 % 256) ∧
    (∃ (s : State) (p : Path) (a : ActId) (v : Word), forbidden p (actBase a.val + 0x124) = false ∧ accessLive s p (actBase a.val
      + 0x124) = true ∧ v.toNat / 2 ^ 24 % 256 ≤ v.toNat / 2 ^ 8 % 256) :=
  ⟨⟨on, .bursar, 0, 0x31112030, by decide +kernel⟩,
   ⟨on, .bursar, 0, 0x20112030, by decide +kernel⟩⟩

theorem witness_LoopEngineCommands :
    (∃ (s : State) (p : Path) (i : LeId), forbidden p (leCtl (leIx i)) = false ∧ accessLive s p (leCtl (leIx i)) = true ∧ (∀ n :
      PortId, i = .spin n → (portOf s n.val).catching = false) ∧ setInvalid (storedSet s (leIx i) (mapEntry s (leIx i) (rd s
      (leBase (leIx i)) LE_STATUS_REGION))) = false) ∧
    (∃ (s : State) (p : Path) (i : LeId), forbidden p (leCtl (leIx i)) = false ∧ accessLive s p (leCtl (leIx i)) = true ∧ (∀ n :
      PortId, i = .spin n → (portOf s n.val).catching = false) ∧ setInvalid (storedSet s (leIx i) (mapEntry s (leIx i) (rd s
      (leBase (leIx i)) LE_STATUS_REGION))) = true ∧ flag s (leBase (leIx i)) LE_CTL_ENABLE = false) ∧
    (∃ (s : State) (p : Path) (i : LeId), forbidden p (leCtl (leIx i)) = false ∧ accessLive s p (leCtl (leIx i)) = true ∧ (∀ n :
      PortId, i = .spin n → (portOf s n.val).catching = false)) ∧
    (∃ (s : State) (p : Path) (i : LeId) (on : _), forbidden p (leCtl (leIx i)) = false ∧ accessLive s p (leCtl (leIx i)) = true ∧
      (∀ n : PortId, i = .spin n → (portOf s n.val).catching = false) ∧ (on = false ∨ 48 ≤ leIx i ∨ svState s (leIx i) = 0 ∨
      svState s (leIx i) = 4)) ∧
    (∃ (s : State) (p : Path) (i : LeId), forbidden p (leCtl (leIx i)) = false ∧ accessLive s p (leCtl (leIx i)) = true ∧ (∀ n :
      PortId, i = .spin n → (portOf s n.val).catching = false)) ∧
    (∃ (s : State) (p : Path) (i : LeId), forbidden p (leCtl (leIx i)) = false ∧ accessLive s p (leCtl (leIx i)) = true ∧ (∀ n :
      PortId, i = .spin n → (portOf s n.val).catching = false)) ∧
    (∃ (s : State) (p : Path) (i : LeId), forbidden p (leCtl (leIx i)) = false ∧ accessLive s p (leCtl (leIx i)) = true ∧ (∀ n :
      PortId, i = .spin n → (portOf s n.val).catching = false) ∧ tuneAllowed s (leIx i) = true) ∧
    (∃ (s : State) (p : Path) (i : LeId), forbidden p (leCtl (leIx i)) = false ∧ accessLive s p (leCtl (leIx i)) = true ∧ (∀ n :
      PortId, i = .spin n → (portOf s n.val).catching = false) ∧ (loopOf s (leIx i)).tune.isSome = true) ∧
    (∃ (s : State) (p : Path) (i : LeId) (on : _) (c : Instr), forbidden p (leCtl (leIx i)) = false ∧ accessLive s p (leCtl (leIx
      i)) = true ∧ (∃ n : PortId, i = .spin n ∧ (portOf s n.val).catching = true) ∧ (c = .leEnable p i ∨ c = .leDisable p i ∨ c =
      .leManual p i on ∨ c = .leHoldSet p i on ∨ c = .leReload p i ∨ c = .tuneStart p i ∨ c = .tuneStop p i)) ∧
    (∃ (s : State) (i : LeId) (u : _), live s .motion = true ∧ (loopOf s (leIx i)).tune = some u) ∧
    (∃ (s : State) (a : ActId), live s .motion = true ∧ (svState s a.val = 1 ∨ svState s a.val = 5) ∧ (loopOf s a.val).rampStart =
      true) ∧
    (∃ (s : State) (n : PortId), live s .motion = true ∧ spRunning s n.val = true ∧ s.pwr.failing = false) ∧
    (∃ (s : State) (p : Path) (a : ActId) (z : Fin 32), (portState s (portOfAct a.val) < 3 ∨ 5 < portState s (portOfAct a.val)) ∧
      forbidden p (zoneAddr a.val z.val false) = false ∧ accessLive s p (zoneAddr a.val z.val false) = true) ∧
    (∃ (s : State) (p : Path) (a : ActId) (z : Fin 32), (portState s (portOfAct a.val) < 3 ∨ 5 < portState s (portOfAct a.val)) ∧
      forbidden p (zoneAddr a.val z.val true) = false ∧ accessLive s p (zoneAddr a.val z.val true) = true) :=
  ⟨⟨on |> wr (actBase 0) LE_SET_10_OUT_HI 1 |> wr (actBase 0) LE_SET_14_I_HI 1, .bursar, .act 0, by decide +kernel⟩,
   ⟨on |> wr (actBase 0) LE_SET_10_OUT_HI 0 |> wr (actBase 0) LE_SET_10_OUT_LO 1, .bursar, .act 0, by decide +kernel⟩,
   ⟨on, .bursar, .spin 23, by decide +kernel⟩,
   ⟨on, .bursar, .spin 23, true, by decide +kernel⟩,
   ⟨on, .bursar, .spin 23, by decide +kernel⟩,
   ⟨on, .bursar, .spin 23, by decide +kernel⟩,
   ⟨servo 4 |> wr (actBase 0) LE_CTL_ENABLE 1, .bursar, .act 0, by decide +kernel⟩,
   ⟨on |> modLoop 71 (fun x => { x with tune := some tune0 }), .bursar, .spin 23, by decide +kernel⟩,
   ⟨on |> modPort 23 (fun x => { x with catching := true }), .bursar, .spin 23, true, .leReload .bursar (.spin 23),
     by decide +kernel⟩,
   ⟨on |> modLoop 0 (fun x => { x with tune := some tune0 }), .act 0, tune0, by decide +kernel⟩,
   ⟨servo 1 |> modLoop 0 (fun x => { x with rampStart := true }), 0, by decide +kernel⟩,
   ⟨spin 7, 0, by decide +kernel⟩,
   ⟨on, .bursar, 47, 31, by decide +kernel⟩,
   ⟨port 6, .bursar, 1, 31, by decide +kernel⟩⟩

theorem witness_DecodePool :
    (∃ (s : State) (a : ActId) (r : _) (l : _) (sl : _), live s .core = true ∧ flag s (actBase a.val) CH_CTL_PRI_ON = true ∧ flag
      s (actBase a.val) CH_CTL_DUAL_READ = false ∧ (actOf s a.val).run = some r ∧ nextRead r = some (l, sl) ∧ r.op = 1 ∧ r.combine
      = false ∧ softUsed s a.val < 8) ∧
    (∃ (s : State) (l : LaneId) (j : _), live s .core = true ∧ bitOf (rd s dpB DP_LANE_UP_IN_SERVICE) l.val = true ∧ underReset s
      3 l.val = false ∧ tfind s.dec.lanes l.val = none ∧ s.dec.deep = [] ∧ earliest s.dec.first = some j) ∧
    (∃ (s : State) (l : LaneId) (j : _), live s .core = true ∧ tfind s.dec.lanes l.val = some j ∧ j.cls = .first ∧ j.act < 48 ∧
      fetchOf s j.tag = none) ∧
    (∃ (s : State) (l : LaneId) (j : _), live s .core = true ∧ tfind s.dec.lanes l.val = some j ∧ j.cls = .deep ∧ j.act < 48 ∧
      fetchOf s j.tag = none) ∧
    (∃ (s : State) (l : LaneId) (j : _), live s .core = true ∧ tfind s.dec.lanes l.val = some j ∧ j.cls = .verify ∧ j.act < 48 ∧
      j.slot = j.sector) ∧
    (∃ (s : State) (p : _), forbidden p 0x140004 = false ∧ accessLive s p 0x140004 = true) ∧
    (∃ (s : State) (p : _), forbidden p 0x140000 = false ∧ accessLive s p 0x140000 = true) :=
  ⟨⟨on |> wr (actBase 0) CH_CTL_PRI_ON 1 |> modAct 0 (fun x => { x with run := some { run0 with op := 1, count := 2 } }), 0,
     { run0 with op := 1, count := 2 }, 0, 0, by decide +kernel⟩,
   ⟨{ (on |> wr dpB DP_LANE_UP_IN_SERVICE 1) with dec := { decodeState0 with first := [job .first] } }, 0, job .first,
     by decide +kernel⟩,
   ⟨{ foreignReach with dec := { decodeState0 with lanes := [(0, job .first)] } }, 0, job .first, by decide +kernel⟩,
   ⟨{ foreignReach with dec := { decodeState0 with lanes := [(0, job .deep)] } }, 0, job .deep, by decide +kernel⟩,
   ⟨{ foreignReach with dec := { decodeState0 with lanes := [(0, job .verify)] } }, 0, job .verify, by decide +kernel⟩,
   ⟨on, .bursar, by decide +kernel⟩,
   ⟨on, .bursar, by decide +kernel⟩⟩

theorem witness_MotionFrame :
    (∃ (s : State) (t : State) (a : ActId) (c : Instr), ((∃ p v, c = .svTargetWrite p a v) ∨ (∃ p v, c = .svSettleWrite p a v) ∨ c
      = .load a ∨ c = .loadLockTimeout a ∨ c = .loadRetry a ∨ c = .unload a ∨ (∃ p, c = .svCtlRetract p a) ∨ c =
      .resetRetractStart ∨ (∃ p i, c = .leEnable p i) ∨ (∃ p i, c = .leDisable p i) ∨ (∃ p i, c = .tuneStart p i) ∨ (∃ p i, c =
      .tuneStop p i)) ∧ exec c s = .next t) ∧
    (∃ (s : State) (t : State) (a : ActId) (c : Instr), (∃ w, c = .servoWedge a w) ∧ exec c s = .next t) ∧
    (∃ (s : State) (t : State) (c : Instr), (∃ l, c = .laneFree l) ∧ exec c s = .next t) ∧
    (∃ (s : State) (t : State) (c : Instr), ((∃ p v, c = .dpLaneEnWrite p v) ∨ (∃ p v, c = .dpCtlWrite p v)) ∧ exec c s = .next t) :=
  ⟨⟨servo 4, _, 0, .svTargetWrite .bursar 0 0x3000, by simp, rfl⟩,
   ⟨servo 4 |> wr (actBase 0) SV_CTL_ENABLE 1, _, 0, .servoWedge 0 noWedge, by simp, rfl⟩,
   ⟨{ (on |> wr dpB DP_LANE_UP_IN_SERVICE 1) with dec := { decodeState0 with first := [job .first] } }, _, .laneFree 0, by simp, rfl⟩,
   ⟨on, _, .dpLaneEnWrite .bursar 1, by simp, rfl⟩⟩

theorem witness_SpindleEvents :
    (∃ (s : State) (n : PortId) (x : _), live s .motion = true ∧ s.pwr.failing = false ∧ (spState s n.val = 6 ∨ spState s n.val =
      7) ∧ crossOk s n.val x = true) ∧
    (∃ (s : State) (n : PortId), live s .motion = true ∧ s.pwr.failing = false ∧ (spState s n.val = 6 ∨ spState s n.val = 7) ∧
      crossed (portOf s n.val) = true ∧ (portOf s n.val).times ≠ []) ∧
    (∃ (s : State) (n : PortId), live s .motion = true ∧ s.pwr.failing = false ∧ (spState s n.val = 6 ∨ spState s n.val = 7) ∧
      crossed (portOf s n.val) = false ∧ (portOf s n.val).times ≠ [] ∧ (portOf s n.val).misses + 1 < rd s (portBase n.val)
      SP_COMM_MISS_MAX) ∧
    (∃ (s : State) (n : PortId), live s .motion = true ∧ s.pwr.failing = false ∧ (spState s n.val = 6 ∨ spState s n.val = 7) ∧
      crossed (portOf s n.val) = false ∧ (portOf s n.val).times ≠ [] ∧ rd s (portBase n.val) SP_COMM_MISS_MAX ≤ (portOf s
      n.val).misses + 1 ∧ (portOf s n.val).lostPend = false) ∧
    (∃ (s : State) (n : PortId), live s .motion = true ∧ s.pwr.failing = false ∧ ((3 ≤ spState s n.val ∧ spState s n.val ≤ 7) ∨
      spState s n.val = 9) ∧ (portOf s n.val).ocRun < 1000) ∧
    (∃ (s : State) (n : PortId) (r : Rotor), live s .motion = true ∧ s.pwr.failing = false ∧ spState s n.val = 2 ∧ atRest s n.val
      r.emfMv = true) ∧
    (∃ (s : State) (n : PortId) (r : Rotor), live s .motion = true ∧ s.pwr.failing = false ∧ spState s n.val = 2 ∧ atRest s n.val
      r.emfMv = false ∧ turning r = some true ∧ catchMin s n.val ≤ r.rpm ∧ r.rpm * 100 ≤ 105 * idRpmMax s n.val) ∧
    (∃ (s : State) (n : PortId) (r : Rotor), live s .motion = true ∧ s.pwr.failing = false ∧ spState s n.val = 2 ∧ atRest s n.val
      r.emfMv = false ∧ turning r = some false ∧ catchMin s n.val ≤ r.rpm) ∧
    (∃ (s : State) (n : PortId), live s .motion = true ∧ s.pwr.failing = false ∧ spState s n.val = 4 ∧ rd s (portBase n.val)
      SP_MEAS_STEP = 5) ∧
    (∃ (s : State) (n : PortId), live s .motion = true ∧ s.pwr.failing = false ∧ spState s n.val = 4 ∧ rd s (portBase n.val)
      SP_MEAS_STEP ≠ 5) ∧
    (∃ (s : State) (n : PortId), live s .motion = true ∧ s.pwr.failing = false ∧ spState s n.val = 5 ∧ (portOf s n.val).lostPend =
      false ∧ (portOf s n.val).fails + 1 < rd s (portBase n.val) SP_RETRY_START_TRIES) ∧
    (∃ (s : State) (n : PortId), live s .motion = true ∧ s.pwr.failing = false ∧ spState s n.val = 10) ∧
    (∃ (s : State) (n : PortId), live s .motion = true ∧ s.pwr.failing = false ∧ spState s n.val = 8) ∧
    (∃ (s : State) (n : PortId), live s .motion = true ∧ s.pwr.failing = false ∧ spState s n.val = 9 ∧ (portOf s n.val).brake =
      .coast) ∧
    (∃ (s : State) (n : PortId) (r : _) (c : Instr), live s .motion = true ∧ s.pwr.failing = true ∧ (c = .commutation n ∨ c =
      .missedCrossing n ∨ c = .overcurrent n ∨ c = .startMeasurementEnd n r ∨ c = .alignStep n ∨ c = .openTmo n ∨ c =
      .retryWaitEnd n ∨ c = .lostWatchEnd n ∨ c = .spinDownBrake n)) ∧
    (∃ (s : State) (n : PortId), live s .motion = true ∧ spState s n.val = 7) :=
  ⟨⟨turning_ 1000, 0, 1500, by decide +kernel⟩,
   ⟨turning_ 0, 0, by decide +kernel⟩,
   ⟨turning_ 2000, 0, by decide +kernel⟩,
   ⟨turning_ 2000 |> wr (portBase 0) SP_COMM_MISS_MAX 1, 0, by decide +kernel⟩,
   ⟨spin 7, 0, by decide +kernel⟩,
   ⟨spin 2, 0, { rotor with emfMv := 0 }, by decide +kernel⟩,
   ⟨turned 12 7200 |> wr (portBase 0) SP_STATUS_STATE 2, 0, rotor, by decide +kernel⟩,
   ⟨spin 2, 0, { rotor with order := some false }, by decide +kernel⟩,
   ⟨spin 4 |> wr (portBase 0) SP_MEAS_STEP 5, 0, by decide +kernel⟩,
   ⟨spin 4 |> wr (portBase 0) SP_MEAS_STEP 0, 0, by decide +kernel⟩,
   ⟨spin 5 |> wr (portBase 0) SP_RETRY_START_TRIES 3, 0, by decide +kernel⟩,
   ⟨spin 10, 0, by decide +kernel⟩,
   ⟨spin 8, 0, by decide +kernel⟩,
   ⟨spin 9, 0, by decide +kernel⟩,
   ⟨{ on with pwr := { on.pwr with failing := true } }, 0, rotor, .alignStep 0, by decide +kernel⟩,
   ⟨spin 7, 0, by decide +kernel⟩⟩

theorem witness_SpindleAndSluiceRegisters :
    (∃ (s : State) (n : PortId) (p : _), forbidden p (portBase n.val + 0x604) = false ∧ accessLive s p (portBase n.val + 0x604) =
      true ∧ (portOf s n.val).window = none) ∧
    (∃ (s : State) (n : PortId) (p : _) (v : Word) (lo : _) (hi : _), forbidden p (portBase n.val + 0x604) = false ∧ accessLive s
      p (portBase n.val + 0x604) = true ∧ (portOf s n.val).window = some (lo, hi) ∧ lo ≤ v.toNat % 2 ^ 13 ∧ v.toNat % 2 ^ 13 ≤ hi) ∧
    (∃ (s : State) (n : PortId) (p : _) (v : Word) (lo : _) (hi : _), forbidden p (portBase n.val + 0x604) = false ∧ accessLive s
      p (portBase n.val + 0x604) = true ∧ (portOf s n.val).window = some (lo, hi) ∧ (v.toNat % 2 ^ 13 < lo ∨ hi < v.toNat % 2 ^
      13)) ∧
    (∃ (s : State) (n : PortId) (p : _) (v : Word), forbidden p (portBase n.val + 0x620) = false ∧ accessLive s p (portBase n.val
      + 0x620) = true ∧ 32 + clampTo 0 16 (v.toNat % 32) ≤ clampTo 2 24 (v.toNat / 2 ^ 16 % 32) + clampTo 4 24 (v.toNat / 2 ^ 8 %
      32)) ∧
    (∃ (s : State) (n : PortId) (p : _) (v : Word), forbidden p (portBase n.val + 0x620) = false ∧ accessLive s p (portBase n.val
      + 0x620) = true ∧ commBad v.toNat = false) ∧
    (∃ (s : State) (n : PortId) (p : _) (v : Word), forbidden p (portBase n.val + 0x600) = false ∧ accessLive s p (portBase n.val
      + 0x600) = true ∧ flag s (portBase n.val) SP_CTL_RUN = false ∧ bitOf v.toNat 0 = true ∧ spState s n.val = 0 ∧ (portOf s
      n.val).deferStop = false ∧ bitOf (rd s slB SLUICE_PLAN_HOLD) n.val = false ∧ portState s n.val = 4 ∧ n.val ∉ s.sluice.queue
      ++ s.sluice.fresh ∧ (unitOf s (fbPort n.val) 0).inFault = false ∧ windowEmpty s n.val = false) ∧
    (∃ (s : State) (n : PortId) (p : _) (v : Word), forbidden p (portBase n.val + 0x600) = false ∧ accessLive s p (portBase n.val
      + 0x600) = true ∧ flag s (portBase n.val) SP_CTL_RUN = true ∧ bitOf v.toNat 0 = false ∧ spState s n.val = 1) ∧
    (∃ (s : State) (p : _), forbidden p 0x4000C = false ∧ accessLive s p 0x4000C = true) ∧
    (∃ (s : State), live s .motion = true ∧ s.pwr.gap = false) :=
  ⟨⟨on, 0, .bursar, by decide +kernel⟩,
   ⟨limits, 0, .bursar, 7200, 3600, 7200, by decide +kernel⟩,
   ⟨limits, 0, .bursar, 3599, 3600, 7200, by decide +kernel⟩,
   ⟨on, 0, .bursar, 0x00181810, by decide +kernel⟩,
   ⟨on, 0, .bursar, 0x00040402, by decide +kernel⟩,
   ⟨port 4 |> wr (portBase 0) SP_CTL_RUN 0 |> modPort 0 (fun x => { x with window := some (3600, 7200) }), 0, .bursar, 1,
     by decide +kernel⟩,
   ⟨spin 1 |> wr (portBase 0) SP_CTL_RUN 1, 0, .bursar, 0, by decide +kernel⟩,
   ⟨on, .bursar, by decide +kernel⟩,
   ⟨{ on with sluice := { on.sluice with fresh := [3] } }, by decide +kernel⟩⟩

theorem witness_SpindleFrame :
    (∃ (s : State) (t : State) (n : PortId) (c : Instr), ((∃ x, c = .zeroCrossing n x) ∨ c = .alignStep n ∨ c = .spinDownBrake n ∨
      c = .runOver n ∨ (∃ p v, c = .spCommWrite p n v)) ∧ exec c s = .next t) :=
  ⟨spin 9, _, 0, .spinDownBrake 0, by simp, rfl⟩

theorem witness_MicrowordFlow :
    (∃ (s : State) (a : ActId), live s .core = true ∧ seqReady s a.val = true ∧ microLegal s a.val (pcOf s a.val) (microWord s
      a.val (pcOf s a.val)) = true ∧ wordRow (microWord s a.val (pcOf s a.val)) = 0 ∧ moverFull s a.val (nanoWord s a.val (bitsOf
      (microWord s a.val (pcOf s a.val)) 13 9)) = false ∧ inRegion (pcOf s a.val) = false ∧ (bitsOf (nanoWord s a.val (bitsOf
      (microWord s a.val (pcOf s a.val)) 13 9)) 13 4 = 2 → modeWritten s a.val % 4 ≠ 3)) ∧
    (∃ (s : State) (a : ActId), live s .core = true ∧ seqReady s a.val = true ∧ microLegal s a.val (pcOf s a.val) (microWord s
      a.val (pcOf s a.val)) = true ∧ wordRow (microWord s a.val (pcOf s a.val)) = 1) ∧
    (∃ (s : State) (a : ActId), live s .core = true ∧ seqReady s a.val = true ∧ microLegal s a.val (pcOf s a.val) (microWord s
      a.val (pcOf s a.val)) = true ∧ wordRow (microWord s a.val (pcOf s a.val)) = 2 ∧ branchTaken s a.val (microWord s a.val (pcOf
      s a.val)) = true ∧ (actOf s a.val).stack.length < 8 ∧ wTarget (microWord s a.val (pcOf s a.val)) ≠ 0) ∧
    (∃ (s : State) (a : ActId) (r : _) (rest : _), live s .core = true ∧ seqReady s a.val = true ∧ microLegal s a.val (pcOf s
      a.val) (microWord s a.val (pcOf s a.val)) = true ∧ wordRow (microWord s a.val (pcOf s a.val)) = 3 ∧ branchTaken s a.val
      (microWord s a.val (pcOf s a.val)) = true ∧ (actOf s a.val).stack = r :: rest ∧ r ≠ 0 ∧ r < 8192) ∧
    (∃ (s : State) (a : ActId), live s .core = true ∧ seqReady s a.val = true ∧ microLegal s a.val (pcOf s a.val) (microWord s
      a.val (pcOf s a.val)) = true ∧ wordRow (microWord s a.val (pcOf s a.val)) = 4) ∧
    (∃ (s : State) (a : ActId), live s .core = true ∧ seqReady s a.val = true ∧ microLegal s a.val (pcOf s a.val) (microWord s
      a.val (pcOf s a.val)) = true ∧ wordRow (microWord s a.val (pcOf s a.val)) = 5 ∧ cond s a.val none (wCond (microWord s a.val
      (pcOf s a.val))) = wSense (microWord s a.val (pcOf s a.val)) ∧ wCond (microWord s a.val (pcOf s a.val)) ≠ 4 ∧ wCond
      (microWord s a.val (pcOf s a.val)) ≠ 5) ∧
    (∃ (s : State) (a : ActId), live s .core = true ∧ seqReady s a.val = true ∧ microLegal s a.val (pcOf s a.val) (microWord s
      a.val (pcOf s a.val)) = true ∧ wordRow (microWord s a.val (pcOf s a.val)) = 5 ∧ cond s a.val none (wCond (microWord s a.val
      (pcOf s a.val))) ≠ wSense (microWord s a.val (pcOf s a.val))) ∧
    (∃ (s : State) (a : ActId), live s .core = true ∧ seqReady s a.val = true ∧ microLegal s a.val (pcOf s a.val) (microWord s
      a.val (pcOf s a.val)) = true ∧ wordRow (microWord s a.val (pcOf s a.val)) = 6) ∧
    (∃ (s : State) (a : ActId), live s .core = true ∧ seqReady s a.val = true ∧ microLegal s a.val (pcOf s a.val) (microWord s
      a.val (pcOf s a.val)) = true ∧ wordRow (microWord s a.val (pcOf s a.val)) = 7) ∧
    (∃ (s : State) (a : ActId), live s .core = true ∧ seqReady s a.val = true ∧ microLegal s a.val (pcOf s a.val) (microWord s
      a.val (pcOf s a.val)) = true ∧ wordRow (microWord s a.val (pcOf s a.val)) = 8) ∧
    (∃ (s : State) (a : ActId) (i : _) (rest : _), live s .core = true ∧ seqReady s a.val = true ∧ microLegal s a.val (pcOf s
      a.val) (microWord s a.val (pcOf s a.val)) = true ∧ wordRow (microWord s a.val (pcOf s a.val)) = 9 ∧ (actOf s a.val).work = i
      :: rest ∧ (actOf s a.val).cur = none ∧ i.entry ≤ 63 ∧ 1 ≤ i.count ∧ i.count ≤ 256) :=
  ⟨⟨micro 0x000000, 0, by decide +kernel⟩,
   ⟨micro 0x408123, 0, by decide +kernel⟩,
   ⟨micro 0x40A123, 0, by decide +kernel⟩,
   ⟨micro 0x40C000 |> modAct 0 (fun x => { x with stack := [9] }), 0, 9, [], by decide +kernel⟩,
   ⟨micro 0x406002, 0, by decide +kernel⟩,
   ⟨micro 0x808000, 0, by decide +kernel⟩,
   ⟨micro 0x800000, 0, by decide +kernel⟩,
   ⟨micro 0xC00000, 0, by decide +kernel⟩,
   ⟨micro 0xC40000, 0, by decide +kernel⟩,
   ⟨micro 0xC80005, 0, by decide +kernel⟩,
   ⟨micro 0xCC0000 |> modAct 0 (fun x => { x with work := [item] }), 0, item, [], by decide +kernel⟩⟩

theorem witness_SequencerWaitsAndRuns :
    (∃ (s : State) (a : ActId) (w : _), live s .core = true ∧ (actOf s a.val).wait = some w ∧ w.horiz = none ∧ waitMet s a.val w =
      true ∧ now s < w.until_ ∧ flag s (actBase a.val) AS_CTL_RUN = true) ∧
    (∃ (s : State) (a : ActId) (w : _) (k : _) (l : _), live s .core = true ∧ (actOf s a.val).wait = some w ∧ w.horiz = some (k,
      l) ∧ waitMet s a.val w = true ∧ now s < w.until_) ∧
    (∃ (s : State) (a : ActId) (w : _) (k : _) (l : _), live s .core = true ∧ (actOf s a.val).wait = some w ∧ w.horiz = some (k,
      l) ∧ waitMet s a.val w = false) ∧
    (∃ (s : State) (a : ActId) (w : _), live s .core = true ∧ (actOf s a.val).wait = some w ∧ w.horiz = none ∧ waitMet s a.val w =
      false ∧ flag s (actBase a.val) AS_CTL_RUN = true ∧ (actOf s a.val).stack.length < 8 ∧ w.handler ≠ 0 ∧ w.handler < 8192) ∧
    (∃ (s : State) (a : ActId), live s .core = true ∧ rd s (actBase a.val) AS_STATUS_MODE = 2 ∧ (actOf s a.val).wait = none ∧
      stoppedByReset s a.val = false ∧ horizLegal (horizWord s a.val (rd s (actBase a.val) AS_PC_HORIZ_PC)) = true ∧ bitOf
      (horizWord s a.val (rd s (actBase a.val) AS_PC_HORIZ_PC)) 29 = false ∧ bitsOf (horizWord s a.val (rd s (actBase a.val)
      AS_PC_HORIZ_PC)) 17 2 = 0) ∧
    (∃ (s : State) (a : ActId), live s .motion = true ∧ (actOf s a.val).wgReq = true ∧ gateOk s a.val = true) ∧
    (∃ (s : State) (a : ActId) (r : _), live s .core = true ∧ (actOf s a.val).run = some r ∧ runComplete r = true ∧ r.op = 2) ∧
    (∃ (s : State) (a : ActId) (i : _) (r : _), live s .core = true ∧ (actOf s a.val).cur = some i ∧ (actOf s a.val).run = some r
      ∧ r.op = 2 ∧ r.issued < r.count ∧ r.test = false ∧ r.advance = true ∧ flag s (actBase a.val) AS_STATUS_GRANTED = true ∧
      (ledEntry s a.val i.reach).state = 1 ∧ 0 < (ledEntry s a.val i.reach).wp ∧ (ledEntry s a.val i.reach).wp + 1 < lastSlot ∧
      codewordReady s a.val = true) ∧
    (∃ (s : State) (a : ActId) (i : _) (r : _), live s .core = true ∧ (actOf s a.val).cur = some i ∧ (actOf s a.val).run = some r
      ∧ r.op = 2 ∧ r.issued < r.count ∧ r.test = false ∧ r.advance = true ∧ flag s (actBase a.val) AS_STATUS_GRANTED = true ∧
      (ledEntry s a.val i.reach).state = 1 ∧ 0 < (ledEntry s a.val i.reach).wp ∧ (ledEntry s a.val i.reach).wp + 1 < lastSlot ∧
      codewordReady s a.val = false) :=
  ⟨⟨{ (seq []) with acts := [(0, { act0 with wait := some wait_ })] }, 0, wait_, by decide +kernel⟩,
   ⟨{ (seq []) with acts := [(0, { act0 with wait := some { wait_ with horiz := some (1023, 5) } })] }, 0,
     { wait_ with horiz := some (1023, 5) }, 1023, 5, by decide +kernel⟩,
   ⟨{ (seq []) with acts := [(0, { act0 with wait := some { wait_ with sense := false, horiz := some (5, 1023) } })] }, 0,
     { wait_ with sense := false, horiz := some (5, 1023) }, 5, 1023, by decide +kernel⟩,
   ⟨{ (seq []) with acts := [(0, { act0 with wait := some { wait_ with sense := false, handler := 8191 } })] }, 0,
     { wait_ with sense := false, handler := 8191 }, by decide +kernel⟩,
   ⟨{ (on |> wr (actBase 0) AS_STATUS_MODE 2 |> wr (actBase 0) AS_PC_HORIZ_PC 4) with stores := (List.range 6).map (fun i => (0xC080 + 4 * i, if i = 0 then 5 else 0)) },
     0, by decide +kernel⟩,
   ⟨on |> wr (actBase 0) SV_STATE_WR_OK 1 |> wr (actBase 0) AS_CTL_RUN 1 |> modAct 0 (fun x => { x with wgReq := true, configured := true, gates := { gates0 with reset := false } }),
     0, by decide +kernel⟩,
   ⟨on |> modAct 0 (fun x => { x with run := some { run0 with op := 2 } }), 0, { run0 with op := 2 }, by decide +kernel⟩,
   ⟨writing, 0, item, { run0 with op := 2, count := 2, advance := true }, by decide +kernel⟩,
   ⟨writing |> modAct 0 (fun x => { x with fifo := [] }), 0, item, { run0 with op := 2, count := 2, advance := true },
     by decide +kernel⟩⟩

theorem witness_SequencerRegisters :
    (∃ (s : State) (p : Path) (a : ActId), forbidden p (actBase a.val + 0x660) = false ∧ accessLive s p (actBase a.val + 0x660) =
      true ∧ ownsWork p = true ∧ (actOf s a.val).work.length < 16) ∧
    (∃ (s : State) (p : Path) (a : ActId) (v : Word) (i : _), forbidden p (actBase a.val + 0x668) = false ∧ accessLive s p
      (actBase a.val + 0x668) = true ∧ (actOf s a.val).work.find? (fun i => decide (i.tag = v.toNat % 65536)) = some i ∧ (actOf s
      a.val).backlog = []) ∧
    (∃ (s : State) (p : Path) (a : ActId), forbidden p (actBase a.val + 0x600) = false ∧ accessLive s p (actBase a.val + 0x600) =
      true) ∧
    (∃ (s : State) (p : Path) (a : ActId), forbidden p (actBase a.val + 0x600) = false ∧ accessLive s p (actBase a.val + 0x600) =
      true ∧ rd s (actBase a.val) AS_STATUS_MODE = 1 ∧ pcOf s a.val = 0 ∧ (actOf s a.val).work = []) ∧
    (∃ (s : State) (p : Path) (a : ActId), forbidden p (actBase a.val + 0x600) = false ∧ accessLive s p (actBase a.val + 0x600) =
      true ∧ (unitOf s (fbAct a.val) 0).inFault = false ∧ underReset s 1 a.val = false) ∧
    (∃ (s : State) (p : Path) (a : ActId) (tag : _) (st : _) (rest : _), readLive s p = true ∧ (actOf s a.val).doneQ = (tag, st)
      :: rest ∧ (actOf s a.val).postQ = []) ∧
    (∃ (s : State) (p : Path) (a : ActId), forbidden p (actBase a.val + 0x670) = false ∧ accessLive s p (actBase a.val + 0x670) =
      true) ∧
    (∃ (s : State) (p : Path) (a : ActId), forbidden p (actBase a.val + 0x670) = false ∧ accessLive s p (actBase a.val + 0x670) =
      true ∧ (actOf s a.val).cur = none) :=
  ⟨⟨on, .bursar, 0, by decide +kernel⟩,
   ⟨on |> modAct 0 (fun x => { x with work := [item] }), .bursar, 0, 7, item, by decide +kernel⟩,
   ⟨on, .bursar, 0, by decide +kernel⟩,
   ⟨seq [], .bursar, 0, by decide +kernel⟩,
   ⟨on, .bursar, 0, by decide +kernel⟩,
   ⟨on |> modAct 0 (fun x => { x with doneQ := [(7, 0)] }), .bursar, 0, 7, 0, [], by decide +kernel⟩,
   ⟨on, .bursar, 0, by decide +kernel⟩,
   ⟨on, .bursar, 0, by decide +kernel⟩⟩

theorem witness_SequencerFrame :
    (∃ (s : State) (t : State) (a : ActId) (p : Path) (c : Instr), (c = .writeGateReturn a ∨ c = .waitConditionMet a ∨ c =
      .asWorkGo p a ∨ c = .asCtlTest p a ∨ c = .asCtlRecover p a ∨ (∃ on, c = .asCtlRun p a on) ∨ c = .asDoneRead p a ∨ c =
      .asCustArm p a ∨ c = .asCustDisarm p a) ∧ exec c s = .next t) ∧
    (∃ (s : State) (t : State) (a : ActId) (p : Path) (c : Instr), (c = .asWorkGo p a ∨ c = .asCustArm p a ∨ c = .asCustDisarm p
      a) ∧ exec c s = .next t) :=
  ⟨⟨on, _, 0, .bursar, .asCtlRun .bursar 0 true, by simp, rfl⟩,
   ⟨on, _, 0, .bursar, .asWorkGo .bursar 0, by decide +kernel, rfl⟩⟩

theorem witness_LedgerCommands :
    (∃ (s : State) (p : Path) (r : ReachId) (src : _), forbidden p 0x160010 = false ∧ accessLive s p 0x160010 = true ∧
      ledgerSource p = some src ∧ ledgerJudge s 1 r.act.val r.reach = 0) ∧
    (∃ (s : State) (p : Path) (r : ReachId) (src : _), forbidden p 0x160010 = false ∧ accessLive s p 0x160010 = true ∧
      ledgerSource p = some src ∧ ledgerJudge s 2 r.act.val r.reach = 0 ∧ journalOf s r.act.val r.reach = [] ∧ (ledEntry s
      r.act.val r.reach).wp < lastSlot) ∧
    (∃ (s : State) (p : Path) (r : ReachId) (src : _), forbidden p 0x160010 = false ∧ accessLive s p 0x160010 = true ∧
      ledgerSource p = some src ∧ ledgerJudge s 3 r.act.val r.reach = 0) ∧
    (∃ (s : State) (p : Path) (r : ReachId) (src : _), forbidden p 0x160010 = false ∧ accessLive s p 0x160010 = true ∧
      ledgerSource p = some src ∧ ledgerJudge s 4 r.act.val r.reach = 0) ∧
    (∃ (s : State) (p : Path) (r : ReachId) (src : _) (op : _) (c : Instr), forbidden p 0x160010 = false ∧ accessLive s p 0x160010
      = true ∧ ledgerSource p = some src ∧ ((op = 1 ∧ c = .ledgerOpen p r) ∨ (op = 2 ∧ c = .ledgerClose p r) ∨ (op = 3 ∧ c =
      .ledgerReopen p r) ∨ (op = 4 ∧ c = .ledgerRetire p r)) ∧ ledgerJudge s op r.act.val r.reach ≠ 0) :=
  ⟨⟨led 0, .bursar, ⟨0, 5⟩, 1, by decide +kernel⟩,
   ⟨led 1, .bursar, ⟨0, 5⟩, 1, by decide +kernel⟩,
   ⟨led 2, .bursar, ⟨0, 5⟩, 1, by decide +kernel⟩,
   ⟨led 0, .bursar, ⟨0, 5⟩, 1, by decide +kernel⟩,
   ⟨led 1, .bursar, ⟨0, 5⟩, 1, 1, .ledgerOpen .bursar ⟨0, 5⟩, by decide +kernel⟩⟩

theorem witness_LedgerUpkeep :
    (∃ (s : State), live s .core = true ∧ flag s ledB LEDGER_CTL_AGE_EN = true ∧ tsorted s.led.entries = true) ∧
    (∃ (s : State) (r : ReachId) (j : _) (rest : _), live s .core = true ∧ journalOf s r.act.val r.reach = j :: rest ∧ (ledEntry s
      r.act.val r.reach).state = 1 ∧ (ledEntry s r.act.val r.reach).wp < lastSlot) ∧
    (∃ (s : State), live s .core = true ∧ flag s rsvB RSV_STATUS_OUT_OF_SERVICE = false) ∧
    (∃ (s : State) (p : _) (v : Word), forbidden p 0x160000 = false ∧ accessLive s p 0x160000 = true ∧ bitOf v.toNat 1 = true ∧
      bitsOf v.toNat 8 5 < 24 ∧ portState s (bitsOf v.toNat 8 5) = 4) ∧
    (∃ (s : State) (n : PortId), live s .core = true ∧ bitOf (rd s ledB LEDGER_STATUS_INV_BUSY) n.val = true ∧ rd s ledB
      LEDGER_STATUS_INV_BUSY < 2 ^ 24) ∧
    (∃ (s : State) (p : _) (a : ActId) (r : _), r < 10240 ∧ forbidden p (0x40000008 + 16 * (a.val * 10240 + r)) = false ∧
      accessLive s p (0x40000008 + 16 * (a.val * 10240 + r)) = true) ∧
    (∃ (s : State) (p : _), forbidden p 0x16008C = false ∧ accessLive s p 0x16008C = true ∧ defectNow s ∉ s.led.defects ∧
      s.led.defects.length < 16383) ∧
    (∃ (s : State) (p : _), forbidden p 0x16008C = false ∧ accessLive s p 0x16008C = true ∧ defectNow s ∈ s.led.defects) :=
  ⟨⟨led 2 |> wr ledB LEDGER_CTL_AGE_EN 1, by decide +kernel⟩,
   ⟨{ (led 1) with led := { (led 1).led with journals := [(5, [entry])] } }, ⟨0, 5⟩, entry, [], by decide +kernel⟩,
   ⟨on, by decide +kernel⟩,
   ⟨port 4, .bursar, 2, by decide +kernel⟩,
   ⟨on |> wr ledB LEDGER_STATUS_INV_BUSY 0x800000, 23, by decide +kernel⟩,
   ⟨on, .bursar, 47, 10239, by decide +kernel⟩,
   ⟨on, .bursar, by decide +kernel⟩,
   ⟨{ on with led := { on.led with defects := [⟨0, 0, 0, 0, 0⟩] } }, .bursar, by decide +kernel⟩⟩

theorem witness_LedgerFrame :
    (∃ (s : State) (t : State) (p : Path) (r : ReachId) (c : Instr), (c = .ledgerOpen p r ∨ c = .ledgerClose p r ∨ c =
      .ledgerReopen p r ∨ c = .ledgerRetire p r) ∧ r.reach < 10240 ∧ exec c s = .next t) ∧
    (∃ (s : State) (t : State) (p : Path) (r : ReachId) (c : Instr) (a : _) (r' : _), (c = .ledgerOpen p r ∨ c = .ledgerClose p r
      ∨ c = .ledgerReopen p r ∨ c = .ledgerRetire p r) ∧ r.reach < 10240 ∧ exec c s = .next t ∧ r' < 10240 ∧ (a, r') ≠ (r.act.val,
      r.reach)) ∧
    (∃ (s : State) (t : State) (p : Path) (c : Instr), (c = .ledgerMirror ∨ (∃ v, c = .ledgerInventory p v)) ∧ exec c s = .next t) ∧
    (∃ (s : State) (t : State) (p : Path) (c : Instr), (c = .defectWindowAdd p ∨ c = .defectWindowRemove p) ∧ exec c s = .next t) :=
  ⟨⟨led 0, _, .bursar, ⟨0, 5⟩, .ledgerOpen .bursar ⟨0, 5⟩, by decide +kernel, by decide +kernel, rfl⟩,
   ⟨led 0, _, .bursar, ⟨0, 5⟩, .ledgerOpen .bursar ⟨0, 5⟩, 0, 10239, by decide +kernel, by decide +kernel, rfl, by decide +kernel,
     by decide +kernel⟩,
   ⟨on, _, .bursar, .ledgerMirror, by simp, rfl⟩,
   ⟨on, _, .bursar, .defectWindowAdd .bursar, by decide +kernel, rfl⟩⟩

theorem witness_StripesAndRepair :
    (∃ (s : State) (p : _) (q : Fin 4), forbidden p (classAddr q.val true) = false ∧ accessLive s p (classAddr q.val true) = true) ∧
    (∃ (s : State) (p : _) (q : Fin 4) (v : Word), forbidden p (classAddr q.val false) = false ∧ accessLive s p (classAddr q.val
      false) = true ∧ classBad s q.val v.toNat = false) ∧
    (∃ (s : State) (p : _) (q : Fin 4) (v : Word), forbidden p (classAddr q.val false) = false ∧ accessLive s p (classAddr q.val
      false) = true ∧ classBad s q.val v.toNat = true) ∧
    (∃ (s : State) (tag : _) (stripe : _) (m : _) (i : _) (f : _) (c : CellPlace) (d : _), live s .core = true ∧ fetchOf s tag =
      some f ∧ isAsked f (f.obj * 2 ^ 24 + stripe) m i = true ∧ isBad f (f.obj * 2 ^ 24 + stripe) m i = false ∧ isGood s f (f.obj
      * 2 ^ 24 + stripe) m i = false ∧ flag s srB SR_RA_ENABLE = true ∧ memberPlace s (f.obj * 2 ^ 24 + stripe) m = some c ∧
      sectorDeadline s tag c i = some d) ∧
    (∃ (s : State) (tag : _) (stripe : _) (m : _) (f : _) (x : _), live s .core = true ∧ fetchOf s tag = some f ∧ flag s srB
      SR_RA_ENABLE = true ∧ f.asked.find? (fun y => decide (y.sid = f.obj * 2 ^ 24 + stripe ∧ y.member = m)) = some x ∧ sampledAny
      s f (f.obj * 2 ^ 24 + stripe) m = false) ∧
    (∃ (s : State) (e : Fin 2) (j : _), live s .core = true ∧ tfind s.str.running e.val = some j ∧ s.str.jobs = []) ∧
    (∃ (s : State) (sid : _) (m : _) (x : _), live s .core = true ∧ s.str.missing.find? (fun x => decide (x.1 = sid ∧ x.2.1 = m))
      = some x ∧ stillHeld s x = true ∧ rebuildable s x = true ∧ enginesOut s = false ∧ portState s x.2.2 = 4 ∧ (writeMember sid m
      x.2.2 s).isSome = true) ∧
    (∃ (s : State) (sid : _) (m : _) (x : _), live s .core = true ∧ s.str.missing.find? (fun x => decide (x.1 = sid ∧ x.2.1 = m))
      = some x ∧ stillHeld s x = true ∧ rebuildable s x = true ∧ enginesOut s = false ∧ portState s x.2.2 = 4 ∧ writeMember sid m
      x.2.2 s = none) ∧
    (∃ (s : State) (n : _) (first : _), live s .core = true ∧ flag s srB SR_AUDIT_ENABLE = true ∧ rd s srB SR_REBUILD_STATUS_PORTS
      = 0 ∧ enginesOut s = false ∧ lanesOut s = false ∧ auditNext s = some (n, first)) :=
  ⟨⟨on, .bursar, 3, by decide +kernel⟩,
   ⟨on |> wr srB (SR_CLASS_4_HDAS.ix 3) 0xFFFFFF, .bursar, 3, 0x80002216, by decide +kernel⟩,
   ⟨on |> wr srB (SR_CLASS_4_HDAS.ix 3) 0xFFFFFF, .bursar, 3, 0x80002117, by decide +kernel⟩,
   ⟨{ fetching with dec := { decodeState0 with first := [{ job .first with act := 2, sector := 255, slot := 255 }] } }, 7, 0, 1, 255,
     fetch, ⟨2, 5, 0⟩, 0, by decide +kernel⟩,
   ⟨fetching, 7, 0, 1, fetch, ⟨2 ^ 24, 1, 0, 0⟩, by decide +kernel⟩,
   ⟨{ on with str := { on.str with running := [(1, ⟨3, .rebuild 5 0⟩)] } }, 1, ⟨3, .rebuild 5 0⟩, by decide +kernel⟩,
   ⟨repairing [(5, { ledEntry0 with state := 1, flags := 0, wp := 2 })], 2 ^ 24, 0, (2 ^ 24, 0, 0), by decide +kernel⟩,
   ⟨repairing [], 2 ^ 24, 0, (2 ^ 24, 0, 0), by decide +kernel⟩,
   ⟨stored |> wr srB SR_AUDIT_ENABLE 1, 1, true, by decide +kernel⟩⟩

theorem witness_StripeFrame :
    (∃ (s : State) (t : State) (c : Instr), ((∃ p q h v, c = .srClassWrite p q h v) ∨ (∃ x y z w, c = .readAroundDeadline x y z w)
      ∨ (∃ x y z, c = .startLimit x y z)) ∧ exec c s = .next t) ∧
    (∃ (s : State) (t : State) (c : Instr), (∃ p q h v, c = .srClassWrite p q h v) ∧ exec c s = .next t) :=
  ⟨⟨fetching, _, .startLimit 7 0 1, by simp, rfl⟩,
   ⟨on, _, .srClassWrite .bursar 3 true 1, by simp, rfl⟩⟩

theorem witness_PoolAndDirectory :
    (∃ (s : State) (acc : PoolAcc), live s .core = true ∧ flag s poolB POOL_STATUS_READY = true ∧ acc.write = true ∧ acc.enable %
      65536 = 65535 ∧ acc.reached = acc.addr ∧ acc.data.length = 16) ∧
    (∃ (s : State) (acc : PoolAcc), live s .core = true ∧ flag s poolB POOL_STATUS_READY = true ∧ acc.write = false ∧ acc.flips =
      [] ∧ acc.reached = acc.addr ∧ tget 0 s.pool.poison (acc.addr / 16) = 0) ∧
    (∃ (s : State) (acc : PoolAcc) (i : _), live s .core = true ∧ flag s poolB POOL_STATUS_READY = true ∧ acc.write = false ∧
      acc.flips = [i] ∧ i < 144 ∧ acc.reached = acc.addr ∧ tget 0 s.pool.poison (acc.addr / 16) = 0) ∧
    (∃ (s : State) (acc : PoolAcc), live s .core = true ∧ flag s poolB POOL_STATUS_READY = true ∧ acc.write = false ∧ acc.flips =
      [] ∧ acc.reached = acc.addr ∧ tget 0 s.pool.poison (acc.addr / 16) ≠ 0 ∧ acc.addr < segAddr 0) ∧
    (∃ (s : State) (upTo : _) (k : _) (syn : _), live s .core = true ∧ flag s poolB POOL_STATUS_READY = true ∧ flag s poolB
      POOL_CTL_SCRUB_EN = true ∧ s.pool.poison = [(k, syn)] ∧ syn ≠ 0 ∧ k * 16 < segAddr 0 ∧ s.pool.scrubPos ≤ k * 16 ∧ k * 16 <
      upTo) ∧
    (∃ (s : State) (upTo : _) (addr : _) (i : _), live s .core = true ∧ flag s poolB POOL_STATUS_READY = true ∧ flag s poolB
      POOL_CTL_SCRUB_EN = true ∧ s.pool.poison = [] ∧ i < 144 ∧ s.pool.scrubPos ≤ addr ∧ addr < upTo ∧ addr < 2 ^ 36) ∧
    (∃ (s : State) (p : _), forbidden p 0x170004 = false ∧ accessLive s p 0x170004 = true ∧ rd s poolB POOL_CTL_SCRUB_EN < 2 ∧ rd
      s poolB POOL_CTL_SCRUB_HOURS < 256) ∧
    (∃ (s : State) (k : SegId) (g : _), live s .core = true ∧ tfind s.pool.segs k = some g ∧ g.state = .draining ∧ g.wasDirty =
      true ∧ s.pool.waiting = [] ∧ rsvUp s = true ∧ rd s 0x19FC00 FLT_REACT_ACTION = 0) ∧
    (∃ (s : State) (k : SegId) (g : _), live s .core = true ∧ tfind s.pool.segs k = some g ∧ g.state = .draining ∧ g.wasDirty =
      true ∧ s.pool.waiting = [] ∧ rsvUp s = false) ∧
    (∃ (s : State) (k : SegId) (g : _), live s .core = true ∧ tfind s.pool.segs k = some g ∧ g.state = .draining ∧ g.wasDirty =
      false ∧ s.pool.waiting = [] ∧ rd s 0x19FC00 FLT_REACT_ACTION = 0) ∧
    (∃ (s : State) (k : SegId) (g : _) (b : _), live s .core = true ∧ tfind s.pool.segs k = some g ∧ g.state = .filling ∧
      s.pool.waiting = [] ∧ servedCell s (cellKey (segPlace g)) = some b) ∧
    (∃ (s : State) (k : SegId) (g : _) (f : _) (sid : _) (m : _), live s .core = true ∧ tfind s.pool.segs k = some g ∧ g.state =
      .filling ∧ s.pool.waiting = [] ∧ servedCell s (cellKey (segPlace g)) = none ∧ f ∈ s.str.fetches ∧ (sid, m) ∈ f.need ∧
      memberPlace s sid m = some (segPlace g) ∧ memberDone s f sid m = true) ∧
    (∃ (s : State) (k : SegId) (g : _), live s .core = true ∧ tfind s.pool.segs k = some g ∧ g.state = .filling ∧ s.pool.waiting =
      [] ∧ servedCell s (cellKey (segPlace g)) = none ∧ s.str.fetches = []) ∧
    (∃ (s : State) (k : SegId) (g : _), live s .core = true ∧ tfind s.pool.segs k = some g ∧ newCell g = true ∧ s.pool.waiting =
      [] ∧ s.obj.unadmitted = []) ∧
    (∃ (s : State) (a : ActId), live s .core = true ∧ seqOn s a.val = true) :=
  ⟨⟨pool, ⟨0xFFFFFFFF0, true, 65535, List.replicate 16 9, [], 0xFFFFFFFF0⟩, by decide +kernel⟩,
   ⟨pool, ⟨0, false, 0, [], [], 0⟩, by decide +kernel⟩,
   ⟨pool, ⟨0, false, 0, [], [143], 0⟩, 143, by decide +kernel⟩,
   ⟨{ pool with pool := { poolState0 with poison := [(1, 1)] } }, ⟨16, false, 0, [], [], 16⟩, by decide +kernel⟩,
   ⟨{ (pool |> wr poolB POOL_CTL_SCRUB_EN 1) with pool := { poolState0 with poison := [(1, 1)] } }, 2 ^ 36, 1, 1, by decide +kernel⟩,
   ⟨pool |> wr poolB POOL_CTL_SCRUB_EN 1, 17, 16, 143, by decide +kernel⟩,
   ⟨on, .bursar, by decide +kernel⟩,
   ⟨segd (seg .draining true) |> wr rsvB RSV_STATUS_READY 1, 3, seg .draining true, by decide +kernel⟩,
   ⟨segd (seg .draining true), 3, seg .draining true, by decide +kernel⟩,
   ⟨segd (seg .draining false), 3, seg .draining false, by decide +kernel⟩,
   ⟨servedSeg, 3, seg .filling false, (servedCell servedSeg (cellKey (segPlace (seg .filling false)))).get (by decide +kernel),
     by decide +kernel, by decide +kernel, by decide +kernel, by decide +kernel, (Option.some_get _).symm⟩,
   ⟨{ segd (seg .filling false) with str := { stripeState0 with fetches := [goodFetch] }, obj := stored.obj }, 3, seg .filling false,
     goodFetch, 2 ^ 24, 0, by decide +kernel⟩,
   ⟨segd (seg .filling false), 3, seg .filling false, by decide +kernel⟩,
   ⟨segd (seg .staged false), 3, seg .staged false, by decide +kernel⟩,
   ⟨on |> wr poolB POOL_DIR_SEQ_HI_ACTIVE_HI 0x8000, 47, by decide +kernel⟩⟩

theorem witness_MoverRequests :
    (∃ (s : State) (p : _) (c : ChanId), forbidden p (moverBase c.val + 0x18) = false ∧ accessLive s p (moverBase c.val + 0x18) =
      true ∧ (chanOf s c.val).reqs.length < 5 ∧ mvRefused (mvRequest s c.val) = false ∧ (unitOf s 0x18FC00 c.val).inFault = false
      ∧ underReset s 6 c.val = false) ∧
    (∃ (s : State) (p : _) (c : ChanId), forbidden p (moverBase c.val + 0x18) = false ∧ accessLive s p (moverBase c.val + 0x18) =
      true ∧ (5 ≤ (chanOf s c.val).reqs.length ∨ mvRefused (mvRequest s c.val) = true)) ∧
    (∃ (s : State) (p : _) (c : ChanId), forbidden p (moverBase c.val + 0x18) = false ∧ accessLive s p (moverBase c.val + 0x18) =
      true ∧ (chanOf s c.val).reqs.length < 5 ∧ mvRefused (mvRequest s c.val) = false ∧ (unitOf s 0x18FC00 c.val).inFault = true) ∧
    (∃ (s : State) (p : _) (c : ChanId) (r : _) (rest : _), forbidden p (moverBase c.val + 0x18) = false ∧ accessLive s p
      (moverBase c.val + 0x18) = true ∧ (chanOf s c.val).reqs = r :: rest) ∧
    (∃ (s : State) (ready : List ChanId) (c : _) (r : _) (rest : _), live s .core = true ∧ grantChoice s (ready.map Fin.val) =
      some c ∧ (chanOf s c).reqs = r :: rest ∧ r.srcSpace = 0 ∧ r.dstSpace = 0 ∧ poisonedIn s (r.src + (r.count - r.left))
      (burstLen r) = none ∧ poisonedMerge s (r.dst + (r.count - r.left)) (burstLen r) = none) ∧
    (∃ (s : State) (ready : List ChanId), live s .core = true ∧ grantChoice s (ready.map Fin.val) = none) ∧
    (∃ (s : State) (c : ChanId) (beat : _) (r : _) (rest : _) (first : _), live s .core = true ∧ (chanOf s c.val).reqs = r :: rest
      ∧ r.err = none ∧ first = (if r.dstSpace = 0 then r.dst / 64 * 64 else r.dst) ∧ first + 64 * beat < r.dst + (r.count -
      r.left)) ∧
    (∃ (s : State) (c : ChanId) (r : _) (rest : _), live s .core = true ∧ (chanOf s c.val).reqs = r :: rest ∧ r.err = none ∧
      r.left = 0) ∧
    (∃ (s : State) (c : ChanId) (r : _) (rest : _), live s .core = true ∧ (chanOf s c.val).reqs = r :: rest ∧ r.err.isSome = true) ∧
    (∃ (s : State) (p : _) (c : ChanId), forbidden p (moverBase c.val + 0x28) = false ∧ accessLive s p (moverBase c.val + 0x28) =
      true) ∧
    (∃ (s : State) (p : _), forbidden p 0x170040 = false ∧ accessLive s p 0x170040 = true ∧ rd s poolB POOL_DIR_CTL_MOVER < 32) :=
  ⟨⟨{ on with copies := [(countKey 31, 512)] }, .bursar, 31, by decide +kernel⟩,
   ⟨on, .bursar, 31, by decide +kernel⟩,
   ⟨{ on with copies := [(countKey 31, 512)], flt := { on.flt with units := [(0x18FC00 * 64 + 31, { faultUnit0 with inFault := true })] } },
     .bursar, 31, by decide +kernel⟩,
   ⟨busy [{ req with left := 5 }], .bursar, 31, { req with left := 5 }, [], by decide +kernel⟩,
   ⟨{ (busy [req]) with mov := { moverState0 with chans := [(31, { chan0 with reqs := [req], tokens := 2 ^ 41 })] } }, [31], 31, req,
     [], by decide +kernel⟩,
   ⟨on, [31], by decide +kernel⟩,
   ⟨busy [{ req with left := 0 }], 31, 7, { req with left := 0 }, [], 4096, by decide +kernel⟩,
   ⟨busy [{ req with left := 0 }], 31, { req with left := 0 }, [], by decide +kernel⟩,
   ⟨busy [{ req with err := some 64 }], 31, { req with err := some 64 }, [], by decide +kernel⟩,
   ⟨on, .bursar, 31, by decide +kernel⟩,
   ⟨on, .bursar, by decide +kernel⟩⟩

theorem witness_ReservoirCommands :
    (∃ (s : State) (k : _) (b : Band), live s .core = true ∧ tfind s.rsv.bands k = some b ∧ b.isOpen = true ∧ b.next = bandCap b ∧
      rsvTakes s = true ∧ s.rsv.gc = none) ∧
    (∃ (s : State) (u : _) (e : _), live s .core = true ∧ rsvServes s = true ∧ tfind s.rsv.map u = some e ∧ 1 ≤ rd s rsvB
      RSV_READ_RETRY_STEPS) ∧
    (∃ (s : State) (k : _) (b : Band), live s .core = true ∧ rsvTakes s = true ∧ s.rsv.gc = none ∧ s.rsv.freeBands < rd s rsvB
      RSV_CTL_GC_LOW ∧ gcVictim s = some (k, b) ∧ rd s 0x19FC00 FLT_REACT_ACTION = 0) ∧
    (∃ (s : State) (g : GcState) (b : Band), live s .core = true ∧ rsvUp s = true ∧ s.rsv.gc = some g ∧ tfind s.rsv.bands g.victim
      = some b) ∧
    (∃ (s : State) (x : _) (e : _), live s .core = true ∧ s.rsv.bands.find? (fun e => e.2.isOpen && e.2.blocks.contains x) = some
      e) ∧
    (∃ (s : State) (p : _) (u : _) (k : _), (p = .bursar ∨ ∃ n, p = .teller n) ∧ accessLive s p 0x19006C = true ∧ u = copyGet s p
      0x190060 + bitsOf (copyGet s p 0x190064) 0 4 * 2 ^ 32 ∧ tuPartition u = some k) ∧
    (∃ (s : State), live s .core = true ∧ flag s rsvB RSV_STATUS_READY = true ∧ flag s rsvB RSV_STATUS_OUT_OF_SERVICE = false ∧ rd
      s 0x19FC00 FLT_REACT_ACTION = 0) ∧
    (∃ (s : State) (d : Fin 64), live s .core = true ∧ dieFailed s d.val = false ∧ rd s 0x19FC00 FLT_REACT_ACTION = 0) ∧
    (∃ (s : State) (c : Int), live s .core = true ∧ (rd s rsvB RSV_READ_THROTTLE_C : Int) ≤ c) ∧
    (∃ (s : State), live s .core = true ∧ flag s rsvB RSV_STATUS_THROTTLED = true) ∧
    (∃ (s : State), live s .core = true ∧ s.obj.unadmitted = []) ∧
    (∃ (s : State), live s .core = true ∧ flag s rsvB RSV_STATUS_READY = false ∧ underReset s 8 0 = false ∧ s.obj.unadmitted = []) ∧
    (∃ (s : State), live s .core = true ∧ flag s rsvB RSV_STATUS_READY = false ∧ underReset s 8 0 = false ∧ service s = 0 ∧ rd s
      0x19FC00 FLT_REACT_ACTION = 0) :=
  ⟨⟨{ rsv with rsv := { rsvState0 with bands := [(3, { band with next := 3072 })] } }, 3, { band with next := 3072 },
     by decide +kernel⟩,
   ⟨{ (rsv |> wr rsvB RSV_READ_RETRY_STEPS 1) with rsv := { rsvState0 with map := [(9, 0x1000)] } }, 9, 0x1000, by decide +kernel⟩,
   ⟨{ (rsv |> wr rsvB RSV_CTL_GC_LOW 9) with rsv := { rsvState0 with bands := [(3, { band with isOpen := false, verified := true })], freeBands := 8 } },
     3, { band with isOpen := false, verified := true }, by decide +kernel⟩,
   ⟨{ rsv with rsv := { rsvState0 with bands := [(3, band)], gc := some ⟨3, [], true⟩ } }, ⟨3, [], true⟩, band, by decide +kernel⟩,
   ⟨{ rsv with rsv := { rsvState0 with bands := [(3, band)] } }, 5, (3, band), by decide +kernel⟩,
   ⟨on, .bursar, 0, 0, by simp, by decide +kernel, by decide +kernel, by decide +kernel⟩,
   ⟨rsv, by decide +kernel⟩,
   ⟨rsv, 63, by decide +kernel⟩,
   ⟨on, 90, by decide +kernel⟩,
   ⟨rsv |> wr rsvB RSV_STATUS_THROTTLED 1, by decide +kernel⟩,
   ⟨on, by decide +kernel⟩,
   ⟨on, by decide +kernel⟩,
   ⟨State.reset, by decide +kernel⟩⟩

theorem witness_PoolMoverReservoirFrame :
    (∃ (s : State) (t : State) (c : Instr), exec c s = .next t ∧ ((∃ p, c = .poolLogClear p) ∨ (∃ a, c = .sequentialDetectorOff a)
      ∨ (∃ p x v, c = .mvRateWrite p x v) ∨ (∃ p v, c = .poolDirRateWrite p v))) ∧
    (∃ (s : State) (t : State) (c : Instr), exec c s = .next t ∧ ((∃ p x, c = .mvGo p x) ∨ (∃ p x, c = .mvWithdraw p x) ∨ (∃ x, c
      = .moverRequestEnd x))) ∧
    (∃ (s : State) (t : State) (c : Instr), exec c s = .next t ∧ (∃ x b, c = .beatError x b)) ∧
    (∃ (s : State) (t : State) (c : Instr), exec c s = .next t ∧ (∃ k, c = .destageVerified k) ∧ s.obj.unadmitted = []) ∧
    (∃ (s : State) (t : State) (c : Instr), exec c s = .next t ∧ (∃ k, c = .drainEnd k) ∧ rd s 0x19FC00 FLT_REACT_ACTION = 0 ∧
      flag s 0x19FC00 FLT_REACT_ALIVE_STOP = false) ∧
    (∃ (s : State) (t : State) (c : Instr), exec c s = .next t ∧ ((∃ l, c = .gcErase l) ∨ (∃ b, c = .programFail b) ∨ (∃ d x, c =
      .throttle d x) ∨ c = .throttleEnd)) ∧
    (∃ (s : State) (t : State) (c : Instr), exec c s = .next t ∧ c = .stagingLow ∧ s.obj.unadmitted = []) :=
  ⟨⟨on, _, .mvRateWrite .bursar 31 5, rfl, by simp⟩,
   ⟨busy [{ req with left := 0 }], _, .moverRequestEnd 31, rfl, by simp⟩,
   ⟨busy [{ req with dstSpace := 1 }], _, .beatError 31 7, rfl, by simp⟩,
   ⟨segd (seg .staged false), _, .destageVerified 3, rfl, by simp, by decide +kernel⟩,
   ⟨segd (seg .draining true), _, .drainEnd 3, rfl, by simp, by decide +kernel, by decide +kernel⟩,
   ⟨rsv, _, .throttle 63 70, rfl, by simp⟩,
   ⟨on, _, .stagingLow, rfl, by decide +kernel, by decide +kernel⟩⟩

theorem witness_ConnectionsAndControllers :
    (∃ (s : State) (c : Sqe) (nqn : _) (q : _) (depth : _), live s .core = true ∧ flag s (hostBase c.port.val) HP_LINK_UP = true ∧
      s.pwr.failing = false ∧ s.obj.activating = none ∧ connections s c.port.val < 130 ∧ q ≠ discQid ∧ connectStatus s c.port.val
      nqn q depth ≠ 0) ∧
    (∃ (s : State) (c : Sqe) (nqn : _) (q : _) (depth : _), live s .core = true ∧ flag s (hostBase c.port.val) HP_LINK_UP = true ∧
      s.pwr.failing = false ∧ s.obj.activating = none ∧ connections s c.port.val < 130 ∧ q ≠ discQid ∧ connectStatus s c.port.val
      nqn q depth = 0) ∧
    (∃ (s : State) (c : Sqe), live s .core = true ∧ flag s (hostBase c.port.val) HP_LINK_UP = true ∧ s.pwr.failing = false ∧
      s.obj.activating = none ∧ connections s c.port.val < 130 ∧ service s ≠ 0 ∧ service s ≠ 4) ∧
    (∃ (s : State) (c : Sqe), live s .core = true ∧ fetched s c = true ∧ c.qid = discQid) ∧
    (∃ (s : State) (c : Sqe), live s .core = true ∧ fetched s c = true ∧ c.qid ≠ 0 ∧ c.qid ≠ discQid) ∧
    (∃ (s : State) (h : HostId) (q : _), live s .core = true ∧ q ≠ 0 ∧ q ≠ discQid ∧ (∃ d, (q, d) ∈ (ctrlOf s h.val).queues)) ∧
    (∃ (s : State), live s .core = true) ∧
    (∃ (s : State) (c : Sqe), live s .core = true ∧ fetched s c = true) ∧
    (∃ (s : State) (h : HostId), live s .core = true ∧ flag s (hostBase h.val) HP_CONN_ADMIN = true ∧ (ctrlOf s h.val).kato ≠ 0) ∧
    (∃ (s : State) (c : Sqe), live s .core = true ∧ fetched s c = true ∧ c.qid = 0 ∧ flag s (hostBase c.port.val) HP_CONN_ENABLED
      = false) ∧
    (∃ (s : State) (c : Sqe), live s .core = true ∧ fetched s c = true ∧ c.qid = 0 ∧ flag s (hostBase c.port.val) HP_CONN_ENABLED
      = true) ∧
    (∃ (s : State) (c : Sqe), live s .core = true ∧ fetched s c = true ∧ c.qid = 0) ∧
    (∃ (s : State) (c : Sqe) (v : Word), live s .core = true ∧ fetched s c = true ∧ c.qid = 0 ∧ v ≠ 0x4E564D65) ∧
    (∃ (s : State) (x : _) (till : _), live s .core = true ∧ s.obj.activating = some (x, till) ∧ s.pwr.failing = false ∧ rd s
      0x19FC00 FLT_REACT_ACTION = 0 ∧ let s1 := copyAll (if draining s then reach till s else s); s1.obj.undo.all (fun u =>
      commitDurable s1 u) = true) :=
  ⟨⟨online |> wr (hostBase 0) HP_CONN_ADMIN 0, adm, 5, 0, 0, by decide +kernel⟩,
   ⟨online |> wr (hostBase 0) HP_CONN_ADMIN 0, adm, 0, 0, 32, by decide +kernel⟩,
   ⟨online, adm, by decide +kernel⟩,
   ⟨online |> modCtrl 0 (fun x => { x with discovery := 1 }), ⟨0, discQid, 1⟩, by decide +kernel⟩,
   ⟨online, io, by decide +kernel⟩,
   ⟨online, 0, 1, by decide +kernel, by decide +kernel, by decide +kernel, ⟨32, by decide +kernel⟩⟩,
   ⟨on, by decide +kernel⟩,
   ⟨online, io, by decide +kernel⟩,
   ⟨online, 0, by decide +kernel⟩,
   ⟨online |> wr (hostBase 0) HP_CONN_ENABLED 0, adm, by decide +kernel⟩,
   ⟨online, adm, by decide +kernel⟩,
   ⟨online, adm, by decide +kernel⟩,
   ⟨online, adm, 0, by decide +kernel⟩,
   ⟨{ on with obj := { objectState0 with activating := some (0, 0) } }, 0, 0, by decide +kernel⟩⟩

theorem witness_AdminCommands :
    (∃ (s : State) (c : Sqe), live s .core = true ∧ fetched s c = true ∧ c.qid = 0) ∧
    (∃ (s : State) (c : Sqe), live s .core = true ∧ fetched s c = true ∧ c.qid = 0) ∧
    (∃ (s : State) (c : Sqe), live s .core = true ∧ fetched s c = true ∧ c.qid = 0) ∧
    (∃ (s : State) (c : Sqe), live s .core = true ∧ fetched s c = true ∧ c.qid = 0) ∧
    (∃ (s : State) (c : Sqe), live s .core = true ∧ fetched s c = true ∧ c.qid = 0) ∧
    (∃ (s : State) (c : Sqe), live s .core = true ∧ fetched s c = true ∧ c.qid = 0) ∧
    (∃ (s : State) (c : Sqe), live s .core = true ∧ fetched s c = true ∧ c.qid = 0) ∧
    (∃ (s : State) (c : Sqe), live s .core = true ∧ fetched s c = true ∧ c.qid = 0 ∧ (ctrlOf s c.port.val).events = [] ∧ (ctrlOf s
      c.port.val).aers.length < 4 ∧ serviceTrue s = true) ∧
    (∃ (s : State) (c : Sqe) (ty : _) (info : _) (page : _) (rest : List (Nat × Nat × Nat)), live s .core = true ∧ fetched s c =
      true ∧ c.qid = 0 ∧ (ctrlOf s c.port.val).events = (ty, info, page) :: rest) ∧
    (∃ (s : State) (c : Sqe) (ofst : _) (data : List Byte), live s .core = true ∧ fetched s c = true ∧ c.qid = 0 ∧ ofst % 4096 = 0
      ∧ (ofst = 0 ∨ ofst = s.obj.fwBuf.length) ∧ ofst + data.length ≤ 2 ^ 24) ∧
    (∃ (s : State) (c : Sqe) (f : _) (i : _), live s .core = true ∧ fetched s c = true ∧ c.qid = 0 ∧ (i = 1 ∨ i = 2) ∧ s.cfg.flash
      = some f ∧ (fwSlot f i).pass = true ∧ slotValue f.fw1 < 2 ^ 20 ∧ slotValue f.fw2 < 2 ^ 20 ∧ service s ≠ 0 ∧ service s ≠ 4) :=
  ⟨⟨online, adm, by decide +kernel⟩,
   ⟨online, adm, by decide +kernel⟩,
   ⟨online, adm, by decide +kernel⟩,
   ⟨online, adm, by decide +kernel⟩,
   ⟨online, adm, by decide +kernel⟩,
   ⟨online, adm, by decide +kernel⟩,
   ⟨online, adm, by decide +kernel⟩,
   ⟨agreed, adm, by decide +kernel⟩,
   ⟨online |> modCtrl 0 (fun x => { x with events := [(1, 2, 3)] }), adm, 1, 2, 3, [], by decide +kernel⟩,
   ⟨online, adm, 0, [1, 2, 3, 4], by decide +kernel⟩,
   ⟨{ online with cfg := { loaderState0 with flash := some flash } }, adm, flash, 2, by decide +kernel⟩⟩

theorem witness_FeatureCommands :
    (∃ (s : State) (c : Sqe), live s .core = true ∧ fetched s c = true ∧ c.qid = 0) ∧
    (∃ (s : State) (c : Sqe) (ps : _), live s .core = true ∧ fetched s c = true ∧ c.qid = 0 ∧ ps ≠ 0) ∧
    (∃ (s : State) (c : Sqe), live s .core = true ∧ fetched s c = true ∧ c.qid = 0) ∧
    (∃ (s : State) (c : Sqe), live s .core = true ∧ fetched s c = true ∧ c.qid = 0) ∧
    (∃ (s : State) (c : Sqe), live s .core = true ∧ fetched s c = true ∧ c.qid = 0) ∧
    (∃ (s : State) (c : Sqe), live s .core = true ∧ fetched s c = true ∧ c.qid = 0) ∧
    (∃ (s : State) (c : Sqe), live s .core = true ∧ fetched s c = true ∧ c.qid = 0) ∧
    (∃ (s : State) (c : Sqe), live s .core = true ∧ fetched s c = true ∧ c.qid = 0) ∧
    (∃ (s : State) (c : Sqe), live s .core = true ∧ fetched s c = true ∧ c.qid = 0) :=
  ⟨⟨online, adm, by decide +kernel⟩,
   ⟨online, adm, 1, by decide +kernel⟩,
   ⟨online, adm, by decide +kernel⟩,
   ⟨online, adm, by decide +kernel⟩,
   ⟨online, adm, by decide +kernel⟩,
   ⟨online, adm, by decide +kernel⟩,
   ⟨online, adm, by decide +kernel⟩,
   ⟨online, adm, by decide +kernel⟩,
   ⟨online, adm, by decide +kernel⟩⟩

theorem witness_AdminFrame :
    (∃ (s : State) (t : State) (c : Instr), exec c s = .next t ∧ ((∃ x o, c = .propertyGet x o) ∨ (∃ x y z w, c = .identify x y z
      w) ∨ (∃ x y z, c = .abort x y z) ∨ (∃ x y, c = .getFeatures x y) ∨ (∃ x y z, c = .setPowerManagement x y z) ∨ (∃ x y z w, c
      = .setTemperatureThreshold x y z w) ∨ (∃ x y z, c = .setVolatileWriteCache x y z) ∨ (∃ x y z w, c = .setNumberOfQueues x y z
      w) ∨ (∃ x y z, c = .setAsyncEventConfiguration x y z) ∨ (∃ x y z, c = .setKeepAliveTimer x y z) ∨ (∃ x, c = .keepAlive x) ∨
      (∃ x, c = .asynchronousEventRequest x) ∨ (∃ x y z, c = .firmwareImageDownload x y z))) ∧
    (∃ (s : State) (t : State) (c : Instr), exec c s = .next t ∧ ((∃ h q, c = .queueReset h q) ∨ (∃ x, c = .controllerDisable x) ∨
      (∃ x, c = .controllerEnable x))) :=
  ⟨⟨online, _, .keepAlive adm, rfl, by simp⟩,
   ⟨online, _, .controllerDisable adm, rfl, by simp⟩⟩

theorem witness_KeyCommands :
    (∃ (s : State) (c : Sqe) (k : KvKey) (value : List Byte), live s .core = true ∧ fetched s c = true ∧ s.obj.locks = [] ∧
      s.obj.waiting = [] ∧ s.obj.unadmitted = [] ∧ lanesOut s = false ∧ flag s rsvB RSV_STATUS_STAGING_LOW = false ∧ keyCheck s k
      = none ∧ value.length ≤ 2 ^ 24 ∧ classOpen s k.nsid = true ∧ enginesOut s = false) ∧
    (∃ (s : State) (c : Sqe) (k : KvKey) (value : List Byte), live s .core = true ∧ fetched s c = true ∧ s.obj.locks = [] ∧
      s.obj.waiting = [] ∧ s.obj.unadmitted = [] ∧ lanesOut s = false ∧ flag s rsvB RSV_STATUS_STAGING_LOW = false ∧ keyCheck s k
      = none ∧ value.length ≤ 2 ^ 24 ∧ (present s k.nsid (keyOf k)).isSome = true) ∧
    (∃ (s : State) (c : Sqe) (k : KvKey) (data : List Byte), live s .core = true ∧ fetched s c = true ∧ s.obj.locks = [] ∧
      s.obj.waiting = [] ∧ s.obj.unadmitted = [] ∧ lanesOut s = false ∧ flag s rsvB RSV_STATUS_STAGING_LOW = false ∧ keyCheck s k
      = none ∧ data ≠ [] ∧ data.length ≤ 2 ^ 24 ∧ present s k.nsid (keyOf k) = none ∧ classOpen s k.nsid = true ∧ enginesOut s =
      false) ∧
    (∃ (s : State) (c : Sqe) (k : KvKey) (data : List Byte) (n : _) (o : _) (offset : _), live s .core = true ∧ fetched s c = true
      ∧ s.obj.locks = [] ∧ s.obj.waiting = [] ∧ s.obj.unadmitted = [] ∧ lanesOut s = false ∧ flag s rsvB RSV_STATUS_STAGING_LOW =
      false ∧ keyCheck s k = none ∧ data ≠ [] ∧ data.length ≤ 2 ^ 24 ∧ present s k.nsid (keyOf k) = some (n, o) ∧ offset ≠
      o.value.length) ∧
    (∃ (s : State) (c : Sqe) (k : KvKey), live s .core = true ∧ fetched s c = true ∧ s.obj.locks = [] ∧ s.obj.waiting = [] ∧
      s.obj.unadmitted = [] ∧ lanesOut s = false ∧ flag s rsvB RSV_STATUS_STAGING_LOW = false ∧ keyCheck s k = none ∧ (present s
      k.nsid (keyOf k)).isSome = true) ∧
    (∃ (s : State) (c : Sqe) (k : KvKey), live s .core = true ∧ fetched s c = true ∧ s.obj.locks = [] ∧ s.obj.waiting = [] ∧
      s.obj.unadmitted = [] ∧ lanesOut s = false ∧ flag s rsvB RSV_STATUS_STAGING_LOW = false ∧ keyCheck s k = none ∧ present s
      k.nsid (keyOf k) = none) ∧
    (∃ (s : State) (c : Sqe) (k : KvKey), live s .core = true ∧ fetched s c = true ∧ s.obj.locks = [] ∧ s.obj.waiting = [] ∧
      s.obj.unadmitted = [] ∧ lanesOut s = false ∧ flag s rsvB RSV_STATUS_STAGING_LOW = false ∧ keyCheck s k = none) ∧
    (∃ (s : State) (c : Sqe) (k : KvKey), live s .core = true ∧ fetched s c = true ∧ s.obj.locks = [] ∧ s.obj.waiting = [] ∧
      s.obj.unadmitted = [] ∧ lanesOut s = false ∧ flag s rsvB RSV_STATUS_STAGING_LOW = false ∧ keyCheck s k = none) ∧
    (∃ (s : State) (c : Sqe) (k : KvKey) (n : _) (o : _), live s .core = true ∧ fetched s c = true ∧ s.obj.locks = [] ∧
      s.obj.waiting = [] ∧ s.obj.unadmitted = [] ∧ lanesOut s = false ∧ flag s rsvB RSV_STATUS_STAGING_LOW = false ∧ keyCheck s k
      = none ∧ present s k.nsid (keyOf k) = some (n, o) ∧ someHeld s o = false ∧ enginesOut s = false) :=
  ⟨⟨online, io, key, [1, 2, 3], by decide +kernel⟩,
   ⟨stored, io, key, [], by decide +kernel⟩,
   ⟨online, io, key, [1, 2, 3], by decide +kernel⟩,
   ⟨stored, io, key, [9], 1, obj_, 0, by decide +kernel⟩,
   ⟨stored, io, key, by decide +kernel⟩,
   ⟨online, io, key, by decide +kernel⟩,
   ⟨stored, io, key, by decide +kernel⟩,
   ⟨stored, io, key, by decide +kernel⟩,
   ⟨stored, io, key, 1, obj_, by decide +kernel⟩⟩

theorem witness_RetrieveSendsVerifiedBytes :
    (∃ (s : State) (c : Sqe) (k : KvKey), live s .core = true ∧ fetched s c = true ∧ s.obj.locks = [] ∧ s.obj.waiting = [] ∧
      s.obj.unadmitted = [] ∧ lanesOut s = false ∧ flag s rsvB RSV_STATUS_STAGING_LOW = false ∧ keyCheck s k = none ∧ present s
      k.nsid (keyOf k) = none) ∧
    (∃ (s : State) (c : Sqe) (k : KvKey) (offset : Nat) (n : _) (o : _), live s .core = true ∧ fetched s c = true ∧ s.obj.locks =
      [] ∧ s.obj.waiting = [] ∧ s.obj.unadmitted = [] ∧ lanesOut s = false ∧ flag s rsvB RSV_STATUS_STAGING_LOW = false ∧ keyCheck
      s k = none ∧ present s k.nsid (keyOf k) = some (n, o) ∧ o.value.length < offset) ∧
    (∃ (s : State) (c : Sqe) (k : KvKey) (offset : Nat) (n : _) (o : _), live s .core = true ∧ fetched s c = true ∧ s.obj.locks =
      [] ∧ s.obj.waiting = [] ∧ s.obj.unadmitted = [] ∧ lanesOut s = false ∧ flag s rsvB RSV_STATUS_STAGING_LOW = false ∧ keyCheck
      s k = none ∧ present s k.nsid (keyOf k) = some (n, o) ∧ offset ≤ o.value.length ∧ o.damaged = true) ∧
    (∃ (s : State) (c : Sqe) (k : KvKey) (offset : Nat) (buf : Nat) (n : _) (o : _) (len : _), live s .core = true ∧ fetched s c =
      true ∧ s.obj.locks = [] ∧ s.obj.waiting = [] ∧ s.obj.unadmitted = [] ∧ lanesOut s = false ∧ flag s rsvB
      RSV_STATUS_STAGING_LOW = false ∧ keyCheck s k = none ∧ present s k.nsid (keyOf k) = some (n, o) ∧ len = min buf
      (o.value.length - offset) ∧ offset ≤ o.value.length ∧ o.damaged = false ∧ tsorted s.pool.segs = true ∧ (cellsOf o (widen
      o.spans offset (offset + len)).1 (widen o.spans offset (offset + len)).2).all (fun x => cellReady s x.1 x.2) = true) :=
  ⟨⟨online, io, key, by decide +kernel⟩,
   ⟨stored, io, key, 2, 1, obj_, by decide +kernel⟩,
   ⟨withObj { obj_ with damaged := true }, io, key, 1, 1, { obj_ with damaged := true }, by decide +kernel⟩,
   ⟨{ stored with pool := { poolState0 with segs := [(3, { seg .clean false with act := 0, reach := 5, slot := 0 })] } }, io, key, 0,
     9, 1, obj_, 1, by decide +kernel⟩⟩

theorem witness_FlushLocksAndDurability :
    (∃ (s : State) (c : _), live s .core = true ∧ fetched s c = true ∧ s.obj.rebuilding = false) ∧
    (∃ (s : State) (c : _) (f : FlushWait), live s .core = true ∧ s.obj.flushes.find? (fun f => decide (f.cmd = c)) = some f ∧
      notDurable s f.ns f.upTo = false) ∧
    (∃ (s : State) (c : _) (f : FlushWait), live s .core = true ∧ s.obj.flushes.find? (fun f => decide (f.cmd = c)) = some f ∧
      notDurable s f.ns f.upTo = true) ∧
    (∃ (s : State) (mark : _), live s .core = true ∧ s.obj.durable < min mark s.obj.commit ∧ s.obj.undo.all (fun u => decide (min
      mark s.obj.commit < u.num) || commitDurable s u) = true) ∧
    (∃ (s : State) (w : Waiting) (c : _) (k : KvKey), live s .core = true ∧ s.obj.waiting = [w] ∧ w.cmd = .exist c k ∧ s.obj.locks
      = [] ∧ s.obj.unadmitted = []) :=
  ⟨⟨online, io, by decide +kernel⟩,
   ⟨{ online with obj := { online.obj with flushes := [⟨io, 1, 0⟩] } }, io, ⟨io, 1, 0⟩, by decide +kernel⟩,
   ⟨{ online with obj := { online.obj with commit := 1, flushes := [⟨io, 1, 1⟩], undo := [⟨1, 1, [1], none⟩] } }, io, ⟨io, 1, 1⟩,
     by decide +kernel⟩,
   ⟨{ online with obj := { online.obj with commit := 2 } }, 2, by decide +kernel⟩,
   ⟨{ online with obj := { online.obj with waiting := [⟨9, .exist io key, 0, 1, [1], false, 0, 1⟩] } },
     ⟨9, .exist io key, 0, 1, [1], false, 0, 1⟩, io, key, by decide +kernel⟩⟩

theorem witness_ImportAndExportStreams :
    (∃ (s : State) (c : Sqe) (chunk : List Byte), live s .core = true ∧ fetched s c = true ∧ s.obj.rebuilding = false ∧ lanesOut s
      = false ∧ chunk.length = 4096 ∧ leAt chunk 0 4 = 0x53584D4C ∧ (leAt chunk 4 2 = 1 ∨ leAt chunk 4 2 = 2) ∧ partCrcOk chunk =
      true) ∧
    (∃ (s : State) (c : Sqe) (chunk : List Byte), live s .core = true ∧ fetched s c = true ∧ s.obj.rebuilding = false ∧ lanesOut s
      = false ∧ chunk.length = 4096 ∧ leAt chunk 0 4 ≠ 0x53584D4C) ∧
    (∃ (s : State) (c : Sqe) (h : Fin 8) (chunk : List Byte) (offset : _) (last : _) (x : _), live s .core = true ∧ fetched s c =
      true ∧ s.obj.rebuilding = false ∧ lanesOut s = false ∧ chunkOk last chunk.length = true ∧ tfind s.obj.imports (streamKey
      c.port.val h.val) = some x ∧ offset ≠ x.bytes.length ∧ now s < x.lastUse + secs 600) ∧
    (∃ (s : State) (c : Sqe) (h : Fin 8) (chunk : List Byte) (offset : _) (last : _) (x : _), live s .core = true ∧ fetched s c =
      true ∧ s.obj.rebuilding = false ∧ lanesOut s = false ∧ chunkOk last chunk.length = true ∧ tfind s.obj.imports (streamKey
      c.port.val h.val) = some x ∧ offset ≠ x.bytes.length ∧ x.lastUse + secs 600 ≤ now s) ∧
    (∃ (s : State) (c : Sqe) (len : _), live s .core = true ∧ fetched s c = true ∧ s.obj.rebuilding = false ∧ lanesOut s = false ∧
      len ≤ 4096) ∧
    (∃ (s : State) (c : Sqe) (h : Fin 8) (x : _), live s .core = true ∧ fetched s c = true ∧ s.obj.rebuilding = false ∧ lanesOut s
      = false ∧ tfind s.obj.imports (streamKey c.port.val h.val) = some x) ∧
    (∃ (s : State) (c : Sqe) (h : Fin 8) (x : _), live s .core = true ∧ fetched s c = true ∧ s.obj.rebuilding = false ∧ lanesOut s
      = false ∧ tfind s.obj.exports (streamKey c.port.val h.val) = some x) :=
  ⟨⟨online, io, goodChunk,
     by decide +kernel, by decide +kernel, by decide +kernel, by decide +kernel, goodChunk_length, by decide +kernel, by decide +kernel, goodChunk_ok⟩,
   ⟨online, io, List.replicate 4096 0, by decide +kernel⟩,
   ⟨{ online with obj := { online.obj with imports := [(streamKey 0 7, { stream0 with isOpen := true })] } }, io, 7, [1], 1, true,
     { stream0 with isOpen := true }, by decide +kernel⟩,
   ⟨{ online with obj := { online.obj with imports := [(streamKey 0 7, { stream0 with isOpen := true })] } } |> at_ (secs 600), io,
     7, [1], 1, true, { stream0 with isOpen := true }, by decide +kernel⟩,
   ⟨online, io, 4096, by decide +kernel⟩,
   ⟨{ online with obj := { online.obj with imports := [(streamKey 0 7, { stream0 with isOpen := true })] } }, io, 7,
     { stream0 with isOpen := true }, by decide +kernel⟩,
   ⟨{ online with obj := { online.obj with exports := [(streamKey 0 7, { stream0 with isOpen := true })] } }, io, 7,
     { stream0 with isOpen := true }, by decide +kernel⟩⟩

theorem witness_ObjectFrame :
    (∃ (s : State) (t : State) (i : Instr), s.obj.unadmitted = [] ∧ exec i s = .next t ∧ ((∃ c k, i = .exist c k) ∨ (∃ c k b, i =
      .list c k b) ∨ (∃ c, i = .flushComplete c) ∨ (∃ h e x, i = .streamIdleTimeout h e x))) ∧
    (∃ (s : State) (t : State) (i : Instr) (c : _) (k : _) (ns : _) (key : _), s.obj.unadmitted = [] ∧ exec i s = .next t ∧ ((∃ v
      o, i = .store c k v o) ∨ (∃ b x d, i = .appendValue c k b x d) ∨ i = .delete c k) ∧ (ns ≠ k.nsid ∨ key ≠ keyOf k)) :=
  ⟨⟨stored, _, .list io key 4096, by decide +kernel, rfl, by simp⟩,
   ⟨stored, _, .delete io key, io, key, 1, [8], by decide +kernel, rfl, by simp, by decide +kernel⟩⟩

theorem witness_AssayTimeMeterAndSeal :
    (∃ (s : State) (h : HostId) (x : _), live s .mgmt = true ∧ bitOf (timeSources s) h.val = true ∧ ptpValid x = false) ∧
    (∃ (s : State) (x : _) (g : _), live s .mgmt = true ∧ bitOf (timeSources s) 0 = true ∧ ptpValid x = true ∧ g = tget []
      s.asy.groups 1 ∧ g.length = 15 ∧ consistent (g ++ [median x.offsets]) = true ∧ 0 < median x.offsets ∧ timeValid s = false ∧
      s.asy.sealed = true) ∧
    (∃ (s : State) (x : _) (g : _), live s .mgmt = true ∧ bitOf (timeSources s) 0 = true ∧ ptpValid x = true ∧ g = tget []
      s.asy.groups 1 ∧ g.length = 15 ∧ consistent (g ++ [median x.offsets]) = true ∧ timeValid s = true ∧ s.asy.slew = none ∧
      atLeastUs (median x.offsets) 1000 = true ∧ atLeastUs (median x.offsets) 100000 = false) ∧
    (∃ (s : State), live s .always = true ∧ bitOf (timeSources s) 4 = true ∧ s.asy.lastPps = none) ∧
    (∃ (s : State) (at_ : _) (last : _), live s .always = true ∧ bitOf (timeSources s) 4 = true ∧ s.asy.lastPps = some last ∧
      (tfind s.asy.lastOffer 1).isSome = true ∧ (((max s.time.assay at_ : Nat) : Int) - last - 2 ^ 24).natAbs * 1000 ≤ 2 ^ 24) ∧
    (∃ (s : State), live s .always = true) ∧
    (∃ (s : State) (mv : _), live s .always = true ∧ mv < 2700) ∧
    (∃ (s : State), flag s asyB ASY_STATUS_SEAL_BROKEN = false) ∧
    (∃ (s : State) (c : _), live s .core = true ∧ fetched s c = true ∧ c.qid = 0 ∧ bitOf (timeSources s) 5 = false) ∧
    (∃ (s : State) (c : _) (ms : Nat) (d : Int), live s .core = true ∧ fetched s c = true ∧ c.qid = 0 ∧ bitOf (timeSources s) 5 =
      true ∧ d = ((ms : Int) + rd s asyB ASY_UTC_TAI_UTC * 1000 - utcBase) * 2 ^ 24 / 1000 - s.time.assay ∧ 0 < d ∧ timeValid s =
      false ∧ s.asy.sealed = true ∧ (∀ p, s.asy.lastPtp = some p → p + secs 600 ≤ s.time.assay)) :=
  ⟨⟨timed, 0, { second 5 with slave := false }, by decide +kernel⟩,
   ⟨{ timed with asy := { assayState0 with groups := [(1, List.replicate 15 9)] } }, second 9, List.replicate 15 9,
     by decide +kernel⟩,
   ⟨{ (timed |> wr asyB ASY_STATUS_TIME_VALID 1) with asy := { assayState0 with groups := [(1, List.replicate 15 (-16778))] } },
     second (-16778), List.replicate 15 (-16778), by decide +kernel⟩,
   ⟨timed, by decide +kernel⟩,
   ⟨{ timed with asy := { assayState0 with lastPps := some 0, lastOffer := [(1, 0)] } }, 2 ^ 24, 0, by decide +kernel⟩,
   ⟨on, by decide +kernel⟩,
   ⟨on, 2699, by decide +kernel⟩,
   ⟨on, by decide +kernel⟩,
   ⟨online, adm, by decide +kernel⟩,
   ⟨hosted, adm, 2000000000000,
     ((2000000000000 : Nat) + rd hosted asyB ASY_UTC_TAI_UTC * 1000 - utcBase) * 2 ^ 24 / 1000 - hosted.time.assay,
     by decide +kernel, by decide +kernel, by decide +kernel, by decide +kernel, rfl, by decide +kernel, by decide +kernel, by decide +kernel, fun _ h => nomatch h⟩⟩

theorem witness_StartAndModuleResets :
    (∃ (s : State), notBegun s = true ∧ s.rst.asserted = none) ∧
    (∃ (s : State), live s .core = true ∧ startDone s = true) ∧
    (∃ (s : State), s.rst.pinLow = none ∧ s.pwr.powered = true ∧ s.pwr.failing = false ∧ service s ≠ 4 ∧ s.rst.asserted = none) ∧
    (∃ (s : State), s.rst.pinLow = none ∧ s.pwr.powered = false) ∧
    (∃ (s : State) (x : _), s.rst.pinLow = some x ∧ s.pwr.powered = true ∧ s.pwr.failing = false ∧ service s ≠ 4 ∧ s.rst.asserted
      = some .warm) ∧
    (∃ (s : State) (p : _), forbidden p 0x10004 = false ∧ accessLive s p 0x10004 = true) ∧
    (∃ (s : State) (p : _), forbidden p 0x10004 = false ∧ accessLive s p 0x10004 = true) ∧
    (∃ (s : State) (cause : _), s.pwr.powered = true ∧ s.pwr.failing = false ∧ service s ≠ 4 ∧ cause ∈ [2, 4, 5, 7, 8] ∧
      s.rst.asserted = none) ∧
    (∃ (s : State) (cause : _), s.pwr.powered = true ∧ s.pwr.failing = false ∧ service s ≠ 4 ∧ cause ∈ [3, 6, 7] ∧ s.rst.asserted
      ≠ some .cold ∧ s.rst.asserted ≠ some .halt) ∧
    (∃ (s : State), s.pwr.powered = true ∧ s.rst.asserted = some .warm ∧ resetMayEnd s = true) ∧
    (∃ (s : State), s.pwr.powered = true ∧ s.rst.asserted = some .cold ∧ resetMayEnd s = true) :=
  ⟨⟨State.reset, by decide +kernel⟩,
   ⟨started, by decide +kernel⟩,
   ⟨on, by decide +kernel⟩,
   ⟨{ on with pwr := { on.pwr with powered := false } }, by decide +kernel⟩,
   ⟨{ on with rst := { on.rst with pinLow := some 0, pinTaken := some ⟨0, 0, 0⟩, asserted := some .warm } }, 0, by decide +kernel⟩,
   ⟨on, .bursar, by decide +kernel⟩,
   ⟨on, .bursar, by decide +kernel⟩,
   ⟨on, 8, by decide +kernel⟩,
   ⟨on, 6, by decide +kernel⟩,
   ⟨{ on with rst := { on.rst with asserted := some .warm } }, by decide +kernel⟩,
   ⟨{ on with rst := { on.rst with asserted := some .cold } }, by decide +kernel⟩⟩

theorem witness_WatchdogBlockResetsAndClocks :
    (∃ (s : State) (p : _), forbidden p 0x10018 = false ∧ accessLive s p 0x10018 = true ∧ flag s rstB RST_WDOG_ENABLE = true) ∧
    (∃ (s : State), s.pwr.powered = true ∧ s.rst.wdogArmed = true ∧ flag s rstB RST_WDOG_ENABLE = true ∧ s.rst.wdogRuns = 0 ∧ flag
      s rstB RST_WDOG_ACTION = false ∧ s.pwr.failing = false ∧ service s ≠ 4 ∧ s.rst.asserted = none) ∧
    (∃ (s : State), s.pwr.powered = true ∧ s.rst.wdogArmed = true ∧ flag s rstB RST_WDOG_ENABLE = true ∧ 2 ≤ s.rst.wdogRuns) ∧
    (∃ (s : State) (p : _) (v : Word), (p = .bursar ∨ ∃ n, p = .teller n) ∧ accessLive s p 0x10020 = true ∧ s.rst.asserted = none
      ∧ service s ≠ 4 ∧ blockNamed (v.toNat % 256) (v.toNat / 256 % 256) = true) ∧
    (∃ (s : State) (p : _) (v : Word), (p = .bursar ∨ ∃ n, p = .teller n) ∧ accessLive s p 0x10020 = true ∧ s.rst.asserted = none
      ∧ service s ≠ 4 ∧ blockNamed (v.toNat % 256) (v.toNat / 256 % 256) = false) ∧
    (∃ (s : State) (c : Sqe) (kind : _) (inst : _), live s .core = true ∧ fetched s c = true ∧ c.qid = 0 ∧ blockNamed kind inst =
      true ∧ (kind ≠ 7 ∨ inst ≠ c.port.val)) ∧
    (∃ (s : State) (c : Sqe), live s .core = true ∧ fetched s c = true ∧ c.qid = 0) ∧
    (∃ (s : State) (b : BlockReset) (timedOut : _) (still : _), live s .core = true ∧ s.rst.blocks = [b] ∧ s.rst.held = [] ∧
      b.kind = 6 ∧ still = false ∧ (timedOut = true ∨ blockIdle s 6 b.inst = true)) ∧
    (∃ (s : State) (p : _) (v : Word), forbidden p 0x10028 = false ∧ accessLive s p 0x10028 = true ∧ blockLocked s (v.toNat % 256)
      (v.toNat / 256 % 256) = true) ∧
    (∃ (s : State) (p : _) (v : Word), forbidden p 0x10028 = false ∧ accessLive s p 0x10028 = true ∧ blockLocked s (v.toNat % 256)
      (v.toNat / 256 % 256) = false) ∧
    (∃ (s : State) (d : _), live s .always = true ∧ lockBit s d = false ∧ s.rst.pllLost.contains (domainIx d) = false) ∧
    (∃ (s : State) (d : _), live s .always = true ∧ lockBit s d = true ∧ s.rst.asserted = none ∧ service s ≠ 4) ∧
    (∃ (s : State), live s .always = true ∧ lockBit s .nand = false ∧ s.rst.asserted = none ∧ service s ≠ 4 ∧ flag s rsvB
      RSV_STATUS_OUT_OF_SERVICE = false ∧ rd s 0x19FC00 FLT_REACT_ACTION = 0) :=
  ⟨⟨on |> wr rstB RST_WDOG_ENABLE 1, .bursar, by decide +kernel⟩,
   ⟨{ (on |> wr rstB RST_WDOG_ENABLE 1) with rst := { on.rst with wdogArmed := true } }, by decide +kernel⟩,
   ⟨{ (on |> wr rstB RST_WDOG_ENABLE 1) with rst := { on.rst with wdogArmed := true, wdogRuns := 2 } }, by decide +kernel⟩,
   ⟨on, .bursar, 0x12F01, by simp, by decide +kernel, by decide +kernel, by decide +kernel, by decide +kernel⟩,
   ⟨on, .bursar, 0x3001, by simp, by decide +kernel, by decide +kernel, by decide +kernel, by decide +kernel⟩,
   ⟨online, adm, 7, 1, by decide +kernel⟩,
   ⟨online, adm, by decide +kernel⟩,
   ⟨{ on with rst := { on.rst with blocks := [⟨6, 31, 9, true, false, none, none⟩] } }, ⟨6, 31, 9, true, false, none, none⟩, false,
     false, by decide +kernel⟩,
   ⟨{ on with rst := { on.rst with held := [(6, 31)] } }, .bursar, 0x1F06, by decide +kernel⟩,
   ⟨on, .bursar, 0x0008, by decide +kernel⟩,
   ⟨on, .act 47, by decide +kernel⟩,
   ⟨on |> wr rstB RST_CLK_LOCK_DDR 1, .ddr, by decide +kernel⟩,
   ⟨on, by decide +kernel⟩⟩

theorem witness_FaultsAndCommits :
    (∃ (s : State), live s .always = true) ∧
    (∃ (s : State) (b : _) (u : _) (status : ReadTry), live s .motion = true ∧ (unitOf s (fbAt b) u).inFault = true ∧
      status.first.isSome = true ∧ (dataPath (fbAt b) = true → now s < (unitOf s (fbAt b) u).quietEnd)) ∧
    (∃ (s : State) (b : _) (u : _), live s .motion = true ∧ (unitOf s (fbAt b) u).inFault = true ∧ dataPath (fbAt b) = true) ∧
    (∃ (s : State) (b : _) (u : _) (x : _), live s .motion = true ∧ (unitOf s (fbAt b) u).inFault = false ∧ (unitOf s (fbAt b)
      u).lastExit = some x) ∧
    (∃ (s : State) (p : _) (b : _) (v : Word), forbidden p (fbAt b + 0xC) = false ∧ accessLive s p (fbAt b + 0xC) = true ∧
      dualRail (fbAt b) = false ∧ wholeIgnored s (fbAt b + 0xC) v.toNat = false) ∧
    (∃ (s : State) (p : _) (b : _) (v : Word), forbidden p (fbAt b + 0xC) = false ∧ accessLive s p (fbAt b + 0xC) = true ∧
      dualRail (fbAt b) = false ∧ wholeIgnored s (fbAt b + 0xC) v.toNat = true) ∧
    (∃ (s : State) (p : _) (b : _), forbidden p (fbAt b + 0x18) = false ∧ accessLive s p (fbAt b + 0x18) = true) ∧
    (∃ (s : State) (p : _) (b : _), forbidden p (fbAt b + 0x1C) = false ∧ accessLive s p (fbAt b + 0x1C) = true ∧ rd s (fbAt b)
      FLT_MEM_SEL_MEM < 16) ∧
    (∃ (s : State), live s .mgmt = true ∧ rd s 0x1DFC00 FLT_REACT_ACTION = 0) ∧
    (∃ (s : State) (c : _) (data : List Byte), live s .core = true ∧ fetched s c = true ∧ c.qid = 0 ∧ s.obj.image = none ∧
      s.cfg.committing = none ∧ data.length % 4 = 0 ∧ data.length ≤ 1048576) ∧
    (∃ (s : State) (c : _) (data : List Byte), live s .core = true ∧ fetched s c = true ∧ c.qid = 0 ∧ s.obj.image = none ∧
      s.cfg.committing = none ∧ data.length % 4 = 0 ∧ data.length ≤ 1048576 ∧ sentOk data = true ∧ rd s cfgB CFG_RUNNING_SEQ ≠
      0xFFFFFFFE) ∧
    (∃ (s : State) (c : _) (data : List Byte), live s .core = true ∧ fetched s c = true ∧ c.qid = 0 ∧ s.obj.image = none ∧
      s.cfg.committing = none ∧ data.length % 4 = 0 ∧ data.length ≤ 1048576 ∧ sentOk data = false) ∧
    (∃ (s : State) (x : _), live s .core = true ∧ s.cfg.committing = some x) :=
  ⟨⟨on, by decide +kernel⟩,
   ⟨faulty, .act 0, 0, ⟨some 0, none⟩, by decide +kernel⟩,
   ⟨faulty, .act 0, 0, by decide +kernel⟩,
   ⟨{ on with flt := { on.flt with units := [(fbAct 0 * 64, { faultUnit0 with r := 2, lastExit := some 0 })] } }, .act 0, 0, 0,
     by decide +kernel⟩,
   ⟨on, .bursar, .act 0, 0xB, by decide +kernel⟩,
   ⟨on, .bursar, .reservoir, 0x8, by decide +kernel⟩,
   ⟨on, .bursar, .act 47, by decide +kernel⟩,
   ⟨on, .bursar, .host 3, by decide +kernel⟩,
   ⟨on |> wr 0x1DFC00 FLT_REACT_ACTION 0, by decide +kernel⟩,
   ⟨online, adm, [1, 2, 3, 4], by decide +kernel⟩,
   ⟨online, adm, image,
     by decide +kernel, by decide +kernel, by decide +kernel, by decide +kernel, by decide +kernel, by rw [image_length], by rw [image_length]; decide, image_ok, by decide +kernel⟩,
   ⟨online, adm, [1, 2, 3, 4], by decide +kernel⟩,
   ⟨{ on with cfg := { loaderState0 with committing := some [] } }, [], by decide +kernel⟩⟩

theorem witness_AssayResetFaultFrame :
    (∃ (s : State) (t : State) (c : Instr), exec c s = .next t ∧ ((∃ h x, c = .ptpOffer h x) ∨ (∃ x, c = .ppsInEdge x) ∨ (∃ x, c =
      .meterIntervalEnd x) ∨ (∃ mv, c = .cellLow mv))) ∧
    (∃ (s : State) (t : State) (c : Instr), exec c s = .next t ∧ ((∃ p, c = .rstCtlWarm p) ∨ (∃ p, c = .rstCtlCold p) ∨ (∃ p v, c
      = .watchdogKick p v))) ∧
    (∃ (s : State) (t : State) (c : Instr), exec c s = .next t ∧ c = .resetNRise) ∧
    (∃ (s : State) (t : State) (c : Instr) (b : Block) (u : _) (p : Path), exec c s = .next t ∧ (c = .backoffReset b u ∨ c =
      .fltHistClear p b ∨ c = .fltMemLogClear p b)) :=
  ⟨⟨on, _, .cellLow 2699, rfl, by simp⟩,
   ⟨on, _, .rstCtlWarm .bursar, rfl, by simp⟩,
   ⟨on, _, .resetNRise, rfl, by decide +kernel⟩,
   ⟨on, _, .fltHistClear .bursar (.act 0), .act 0, 0, .bursar, rfl, by decide +kernel⟩⟩

theorem witness_ForbiddenWritesAreRecorded :
    (∃ (s : State) (p : _) (addr : _), live s .mgmt = true ∧ addrOk addr = true ∧ forbidden p addr = true ∧ blockRecords addr =
      false ∧ rd s 0x3FC00 FLT_HIST_CTL_NEXT < 16) ∧
    (∃ (s : State) (c : _) (addr : _), live s .core = true ∧ fetched s c = true ∧ c.qid = 0 ∧ addrOk addr = true ∧ forbidden
      (.window c.port) addr = true ∧ blockRecords addr = false ∧ rd s 0x3FC00 FLT_HIST_CTL_NEXT < 16) ∧
    (∃ (s : State) (addr : _), live s .mgmt = true ∧ flag s burB BUR_STATUS_RUNNING = true ∧ blockRecords addr = false ∧ rd s
      0x3FC00 FLT_HIST_CTL_NEXT < 16) ∧
    (∃ (s : State) (p : _) (addr : _), live s .mgmt = true ∧ addrOk addr = true ∧ forbidden p addr = true ∧ blockRecords addr =
      true ∧ rd s (recordFb addr) FLT_HIST_CTL_NEXT < 16) :=
  ⟨⟨on, .bursar, 0x1EFFFC, by decide +kernel⟩,
   ⟨online, adm, 0x4077FFFC, by decide +kernel⟩,
   ⟨mgmt, 0x1D0000, by decide +kernel⟩,
   ⟨on, .mi, actBase 0 + 0x660, by decide +kernel⟩⟩

theorem witness_RegisterAccess :
    (∃ (s : State) (addr : _), live s .mgmt = true ∧ addrOk addr = false) ∧
    (∃ (s : State) (p : _), forbidden p 0x19001C = false ∧ accessLive s p 0x19001C = true) ∧
    (∃ (s : State) (p : _) (addr : _), forbidden p addr = false ∧ accessLive s p addr = true ∧ addrOk addr = true ∧ addr <
      0x200000 ∧ findReg addr = none) ∧
    (∃ (s : State) (p : _), readLive s p = true) ∧
    (∃ (s : State) (p : _) (addr : _), readLive s p = true ∧ addrOk addr = false) ∧
    (∃ (s : State) (c : _), live s .core = true ∧ fetched s c = true ∧ c.qid = 0) ∧
    (∃ (s : State) (c : _) (addr : _) (vals : List Word), live s .core = true ∧ fetched s c = true ∧ c.qid = 0 ∧ rangeOk addr
      vals.length = false) ∧
    (∃ (s : State) (c : _), live s .core = true ∧ fetched s c = true ∧ c.qid = 0) ∧
    (∃ (s : State) (c : _) (addr : _) (n : _), live s .core = true ∧ fetched s c = true ∧ c.qid = 0 ∧ rangeOk addr n = false) ∧
    (∃ (s : State), live s .mgmt = true ∧ flag s burB BUR_STATUS_RUNNING = true) ∧
    (∃ (s : State) (addr : _) (n : _), live s .mgmt = true ∧ flag s burB BUR_STATUS_RUNNING = true ∧ rangeOk addr n = false) :=
  ⟨⟨on, 2, by decide +kernel⟩,
   ⟨on, .bursar, by decide +kernel⟩,
   ⟨on, .bursar, 0x60, by decide +kernel⟩,
   ⟨on, .window 0, by decide +kernel⟩,
   ⟨on, .window 0, 3, by decide +kernel⟩,
   ⟨online, adm, by decide +kernel⟩,
   ⟨online, adm, 2, [1], by decide +kernel⟩,
   ⟨online, adm, by decide +kernel⟩,
   ⟨online, adm, 2, 1, by decide +kernel⟩,
   ⟨mgmt, by decide +kernel⟩,
   ⟨mgmt, 2, 1, by decide +kernel⟩⟩

theorem witness_DaybookSensorsAndLinks :
    (∃ (s : State) (c : _), live s .core = true ∧ fetched s c = true ∧ c.qid = 0) ∧
    (∃ (s : State) (c : _), live s .core = true ∧ fetched s c = true ∧ c.qid = 0 ∧ flag s dbB DB_STATUS_FROZEN = true) ∧
    (∃ (s : State), live s .mgmt = true ∧ flag s dbB DB_STATUS_FROZEN = true) ∧
    (∃ (s : State) (p : _) (v : Word), (p = .bursar ∨ ∃ n, p = .teller n) ∧ accessLive s p 0x1C0050 = true ∧ flag s dbB
      DB_STATUS_FROZEN = false ∧ 0x8000 ≤ v.toNat % 65536) ∧
    (∃ (s : State) (q : _) (r : _), live s .mgmt = true ∧ serviceTrue s = true ∧ flag s rsvB RSV_STATUS_OUT_OF_SERVICE = false ∧
      flag s dbB DB_STATUS_FROZEN = false ∧ s.day.pending.find? (fun x => decide (x.dseq = q)) = some r) ∧
    (∃ (s : State) (i : _), live s .mgmt = true ∧ sensorLive s i = true ∧ flag s burB BUR_STATUS_RUNNING = true) ∧
    (∃ (s : State), live s .mgmt = true) ∧
    (∃ (s : State) (h : HostId), live s .core = true ∧ linkAllowed s h = true) ∧
    (∃ (s : State), live s .core = true) ∧
    (∃ (s : State) (h : HostId), live s .core = true ∧ rd s (fbHost h.val) FLT_REACT_ACTION = 0) ∧
    (∃ (s : State) (port : _) (frame : _) (b : _), live s .mgmt = true ∧ addressBlock s port = some b ∧ portListens s port = true
      ∧ answers (ipVersion b) frame = true) ∧
    (∃ (s : State) (port : _) (frame : _) (b : _), live s .mgmt = true ∧ addressBlock s port = some b ∧ portListens s port = true
      ∧ answers (ipVersion b) frame = false ∧ serviceTrue s = true) ∧
    (∃ (s : State), live s .mgmt = true) ∧
    (∃ (s : State), live s .mgmt = true) :=
  ⟨⟨online, adm, by decide +kernel⟩,
   ⟨online |> wr dbB DB_STATUS_FROZEN 1, adm, by decide +kernel⟩,
   ⟨on |> wr dbB DB_STATUS_FROZEN 1, by decide +kernel⟩,
   ⟨on, .bursar, 0x78000, by simp, by decide +kernel, by decide +kernel, by decide +kernel⟩,
   ⟨{ State.reset with day := { dayState0 with pending := [rec] } }, 3, rec, by decide +kernel⟩,
   ⟨mgmt, 11, by decide +kernel⟩,
   ⟨on, by decide +kernel⟩,
   ⟨{ (on |> wr rstB RST_CLK_LOCK_HOST 1 |> wr cfgB CFG_STATUS_STATE 4) with cfg := { loaderState0 with running := netImage } }, 0,
     by decide +kernel⟩,
   ⟨online, by decide +kernel⟩,
   ⟨on, 3, by decide +kernel⟩,
   ⟨listening, some 0, .arp, netImage.drop 0x50, by decide +kernel⟩,
   ⟨listening, some 0, .ndp, netImage.drop 0x50, by decide +kernel⟩,
   ⟨on, by decide +kernel⟩,
   ⟨on, by decide +kernel⟩⟩

theorem witness_ManagementLink :
    (∃ (s : State) (eid : Byte), live s .mgmt = true ∧ flag s burB BUR_STATUS_RUNNING = true ∧ eid ≠ 0 ∧ eid ≠ 0xFF) ∧
    (∃ (s : State), live s .mgmt = true ∧ flag s burB BUR_STATUS_RUNNING = true) ∧
    (∃ (s : State) (ty : _), live s .mgmt = true ∧ flag s burB BUR_STATUS_RUNNING = true ∧ msgTypeOk ty = true) ∧
    (∃ (s : State) (id : _), live s .mgmt = true ∧ flag s burB BUR_STATUS_RUNNING = true ∧ 1 ≤ id ∧ id ≤ 3) ∧
    (∃ (s : State) (ty : _), live s .mgmt = true ∧ flag s burB BUR_STATUS_RUNNING = true ∧ (ty = 0 ∨ ty = 2)) ∧
    (∃ (s : State) (i : _), live s .mgmt = true ∧ flag s burB BUR_STATUS_RUNNING = true ∧ sensorListed i = true) ∧
    (∃ (s : State), live s .mgmt = true ∧ flag s burB BUR_STATUS_RUNNING = true) ∧
    (∃ (s : State) (c : Instr) (t : _), live s .mgmt = true ∧ flag s burB BUR_STATUS_RUNNING = true ∧ exec c s = .next t ∧ ((∃ e,
      c = .setEndpointId e) ∨ c = .getEndpointId ∨ (∃ x, c = .getMctpVersionSupport x) ∨ c = .getMessageTypeSupport ∨ (∃ x, c =
      .readNvmeMiDataStructure x) ∨ c = .nvmSubsystemHealthStatusPoll ∨ (∃ h, c = .controllerHealthStatusPoll h) ∨ (∃ x, c =
      .configurationGet x) ∨ (∃ x y, c = .vpdRead x y) ∨ c = .getTid ∨ (∃ x, c = .getPldmVersion x) ∨ c = .getPldmTypes ∨ (∃ x, c
      = .getPldmCommands x) ∨ (∃ x, c = .getPdr x) ∨ (∃ x, c = .getSensorReading x) ∨ (∃ x, c = .setEventReceiver x))) :=
  ⟨⟨mgmt, 0xFE, by decide +kernel⟩,
   ⟨mgmt, by decide +kernel⟩,
   ⟨mgmt, 4, by decide +kernel⟩,
   ⟨mgmt, 3, by decide +kernel⟩,
   ⟨mgmt, 2, by decide +kernel⟩,
   ⟨mgmt, 11, by decide +kernel⟩,
   ⟨mgmt, by decide +kernel⟩,
   ⟨mgmt, .getTid, _, by decide +kernel, by decide +kernel, rfl, by simp⟩⟩

theorem witness_EmptyQueueIsATick :
    (∃ (s : State), s.pending = [] ∧ serviceTrue s = true ∧ s.asy.slew = none ∧ s.asy.rateAcc.natAbs < 10 ^ 9) :=
  ⟨State.reset, by decide +kernel⟩

theorem witness_ServiceStateStaysTrue :
    (∃ (s : State) (t : State), serviceTrue s = true ∧ step s = .next t) :=
  ⟨State.reset, _, by decide +kernel, rfl⟩

theorem witness_UnpoweredModuleDoesNothing :
    (∃ (c : Instr) (s : State), s.pwr.powered = false ∧ (∀ f x y z w, c ≠ .powerOn f x y z w) ∧ c ≠ .resetNLow ∧ c ≠ .resetNRise ∧
      c ≠ .sealBreach ∧ (∀ p, c ≠ .stampTakeLoRead p)) :=
  ⟨.slowStop 0, { on with pwr := { on.pwr with powered := false } }, by decide +kernel, by simp, by decide +kernel,
  by decide +kernel, by decide +kernel, by simp⟩

theorem witness_PoolReadsWhatWasWritten :
    (∃ (s : State), twf 0 s.pool.mem = true) ∧
    (∃ (a : Nat) (bs : List Byte) (x : _), (x < a ∨ a + bs.length ≤ x)) :=
  ⟨⟨on, by decide +kernel⟩,
   ⟨5, [1], 6, by decide +kernel⟩⟩

theorem witness_ShortStampsExtend :
    (∃ (short : Nat) (ref : Nat), short < 2 ^ 32 ∧ ref < 2 ^ 64 ∧ short ≤ ref % 2 ^ 32) ∧
    (∃ (short : Nat) (ref : Nat), short < 2 ^ 32 ∧ ref < 2 ^ 64 ∧ ref % 2 ^ 32 < short) ∧
    (∃ (short : Nat) (ref : Nat) (time : _), short < 2 ^ 32 ∧ ref < 2 ^ 64 ∧ time ≤ ref) :=
  ⟨⟨5, 5, by decide +kernel⟩,
   ⟨6, 5, by decide +kernel⟩,
   ⟨6, 2 ^ 64 - 1, 2 ^ 64 - 2 ^ 32, by decide +kernel⟩⟩

theorem witness_StampsAreOrdered :
    (∃ (a : Stamp) (b : Stamp), a.seq < 65536 ∧ b.seq < 65536 ∧ a.time ≠ b.time) ∧
    (∃ (a : Stamp) (b : Stamp), a.seq < 65536 ∧ b.seq < 65536 ∧ a.time = b.time ∧ a.src ≠ b.src) ∧
    (∃ (a : Stamp) (b : Stamp), a.seq < 65536 ∧ b.seq < 65536 ∧ a.time = b.time ∧ a.src = b.src) ∧
    (∃ (a : Stamp) (b : Stamp), a.seq < 65536 ∧ b.seq < 65536 ∧ a ≠ b ∧ (a.time ≠ b.time ∨ a.src ≠ b.src ∨ ((b.seq : Int) - a.seq)
      % 65536 ≤ 15 ∨ ((a.seq : Int) - b.seq) % 65536 ≤ 15)) :=
  ⟨⟨⟨1, 5, 0⟩, ⟨2, 0, 0⟩, by decide +kernel⟩,
   ⟨⟨1, 5, 0⟩, ⟨1, 4, 0⟩, by decide +kernel⟩,
   ⟨⟨1, 5, 65535⟩, ⟨1, 5, 32766⟩, by decide +kernel⟩,
   ⟨⟨1, 5, 65535⟩, ⟨1, 5, 14⟩, by decide +kernel⟩⟩

end Sys2Proof.Tests
end

/-!
PROOFS of the family 00_scope.md: extending a short stamp (R11), and the state after reset (R2, R28).
-/
namespace Sys2Proof.Machine
open Reg

/-! ### Extending a short stamp (R11) -/

/-- R11's first case, for a reference of 64 bits. -/
theorem extendShort_of_le {short ref : Nat} (href : ref < 2 ^ 64) (h : short ≤ ref % 2 ^ 32) :
    extendShort short ref = ref / 2 ^ 32 * 2 ^ 32 + short := by
  have hhigh : ref / 2 ^ 32 % 2 ^ 32 = ref / 2 ^ 32 := Nat.mod_eq_of_lt (by omega)
  simp only [extendShort, if_pos h, hhigh]

/-- R11's second case: the reference's upper half minus 1, as a 32-bit number. -/
theorem extendShort_of_lt {short ref : Nat} (h : ref % 2 ^ 32 < short) :
    extendShort short ref = (ref / 2 ^ 32 % 2 ^ 32 + (2 ^ 32 - 1)) % 2 ^ 32 * 2 ^ 32 + short := by
  simp only [extendShort, if_neg (Nat.not_le.mpr h)]

/-- An extended stamp has the short stamp as its lower half. -/
theorem extendShort_mod {short : Nat} (ref : Nat) (hs : short < 2 ^ 32) : extendShort short ref % 2 ^ 32 = short := by
  rw [extendShort]
  split <;> omega

/-- Where the short stamp is greater, the upper half is the reference's minus 1, modulo 2^32. -/
theorem extendShort_div_of_lt {short ref : Nat} (hs : short < 2 ^ 32) (h : ref % 2 ^ 32 < short) :
    (extendShort short ref / 2 ^ 32 : Int) % 2 ^ 32 = ((ref / 2 ^ 32 : Int) - 1) % 2 ^ 32 := by
  rw [extendShort_of_lt h]
  omega

/-- The short stamp of a time not after the reference extends to that time exactly within one period of the short stamp, 256 s.
A time whose lower half is above the reference's lies in an earlier period, so there the upper half minus 1 does not wrap. -/
theorem extendShort_eq_iff {time ref : Nat} (href : ref < 2 ^ 64) (hle : time ≤ ref) :
    extendShort (time % 2 ^ 32) ref = time ↔ ref - time < 2 ^ 32 := by
  rcases Nat.lt_or_ge (ref % 2 ^ 32) (time % 2 ^ 32) with h | h
  · have hpos : 0 < ref / 2 ^ 32 := by omega
    rw [extendShort_of_lt h]
    omega
  · rw [extendShort_of_le href h]
    omega

/-- Settles O58: the two cases of R11, and the 256 s within which the result is the event's time. -/
theorem shortStampsExtend : Obligations.ShortStampsExtend := by
  intro short ref hs href
  exact ⟨extendShort_of_le href, fun h => ⟨extendShort_mod ref hs, extendShort_div_of_lt hs h⟩,
    fun time hle => extendShort_eq_iff href hle⟩

/-! ### The state after reset -/

/-- Right after reset every register field but PWR_STATUS.FEEDA_GOOD reads its reset value. -/
theorem rd_reset (b : Nat) (f : Field) (h : resetFeedKey ≠ fieldKey b f) : rd State.reset b f = resetOf b f := by
  simp only [rd, State.reset, tget, if_neg h]

/-- The module is in Starting. -/
theorem service_reset : service State.reset = 0 :=
  rd_reset idB GLB_SERVICE_STATE (by decide)

/-- The Reservoir is in service, and GLB_SERVICE says so. -/
theorem reservoirOut_reset : flag State.reset idB GLB_SERVICE_RESERVOIR_OUT = flag State.reset rsvB RSV_STATUS_OUT_OF_SERVICE := by
  simp only [flag, rd_reset idB GLB_SERVICE_RESERVOIR_OUT (by decide), rd_reset rsvB RSV_STATUS_OUT_OF_SERVICE (by decide)]
  decide

/-- No HDA is being rebuilt, and GLB_SERVICE counts none. -/
theorem hdaRebuilding_reset :
    rd State.reset idB GLB_SERVICE_HDA_REBUILDING = popCount 24 (rd State.reset srB SR_REBUILD_STATUS_PORTS) := by
  rw [rd_reset idB GLB_SERVICE_HDA_REBUILDING (by decide), rd_reset srB SR_REBUILD_STATUS_PORTS (by decide)]
  decide

/-- GLB_SERVICE agrees with the module after reset: in Starting R28 asks nothing of HDA_MISSING and of the degraded conditions. -/
theorem serviceTrue_reset : serviceTrue State.reset = true := by
  simp [serviceTrue, service_reset, reservoirOut_reset, hdaRebuilding_reset]

/-- The register at address 0 is ID_PART: its three fields. -/
theorem regValue_idPart (s : State) :
    regValue s 0 = rd s idB ID_PART_PART_NUMBER * 2 ^ 16 + (rd s idB ID_PART_STEP_LETTER * 2 ^ 8 + rd s idB ID_PART_STEP_NUMBER * 2 ^ 0) :=
  rfl

/-- ID_PART shows part number 0x2448 and step A1 (R2). -/
theorem regValue_idPart_reset : regValue State.reset 0 = 0x24484101 := by
  rw [regValue_idPart, rd_reset idB ID_PART_PART_NUMBER (by decide), rd_reset idB ID_PART_STEP_LETTER (by decide),
    rd_reset idB ID_PART_STEP_NUMBER (by decide)]
  decide

/-- Settles O55: what R28 compares are reset values of registers, and Starting asks nothing more; the lists of State.reset are empty. -/
theorem resetStateIsTrue : Obligations.ResetStateIsTrue :=
  ⟨serviceTrue_reset, rfl, rfl, rfl, service_reset, regValue_idPart_reset, rd_reset pwrB PWR_IB_SET_TARGET (by decide)⟩

end Sys2Proof.Machine

/-!
PROOFS of the family 02_contacts_and_feeds.md: the feeds, converters and switch-over (R41-R46), the set-points, marks, hold-up store
and feed exercise (R43, R47-R53), the frame of the power block's commands, and the module without power (R50, R362, R367).
-/
namespace Sys2Proof.Machine
open Reg

/-! ### What an update keeps of the power block -/

/-- The fields of a list, as registers of the power block. -/
def powerFields (fs : List Field) (a lo : Nat) : Bool := fs.any (fun f => decide (a = pwrB + f.off) && decide (lo = f.lo))

/-- A write of a listed field of the power block. -/
theorem keptRegs_powerFields {fs : List Field} {f : Field} (v : Nat) (s : State) (hlo : f.lo < 32) (hf : f ∈ fs) :
    keptRegs (powerFields fs) s (wr pwrB f v s) :=
  keptRegs_wr pwrB f v s hlo (.inr (List.any_eq_true.2 ⟨f, hf, by simp⟩))

/-- Fewer fields are kept where more may be written. -/
theorem keptRegs_more {fs gs : List Field} {s t : State} (h : keptRegs (powerFields fs) s t) (hsub : fs ⊆ gs := by decide) :
    keptRegs (powerFields gs) s t := by
  refine keptRegs_mono (fun a lo hg => ?_) h
  simp only [powerFields, List.any_eq_false] at hg ⊢
  exact fun f hf => hg f (hsub hf)

theorem Quiet.keptRegs {own : Nat → Nat → Bool} {s t : State} (q : Quiet s t) : keptRegs own s t :=
  keptRegs_mono (fun _ _ _ => rfl) q.regs

theorem Quiet.pwr {s t : State} (q : Quiet s t) : t.pwr = s.pwr := kept_mem (p := .pwr) q.parts (by decide)

section
variable {own : Nat → Nat → Bool} {s t : State} (h : keptRegs own s t)
include h

theorem flag_kept (f : Field) (hf : f.lo < 32 ∧ svcReg (pwrB + f.off) f.lo = false ∧ own (pwrB + f.off) f.lo = false := by decide) :
    flag t pwrB f = flag s pwrB f := by
  obtain ⟨hlo, hsvc, hown⟩ := hf
  exact flag_congr (h pwrB f hlo hsvc hown)

theorem activeFeed_kept (hown : own 0x20000 2 = false := by decide) : activeFeed t = activeFeed s := by
  rw [activeFeed, activeFeed, flag_kept h PWR_STATUS_ACTIVE ⟨by decide, by decide, hown⟩]

theorem standbyFeed_kept (hown : own 0x20000 2 = false := by decide) : standbyFeed t = standbyFeed s := by
  rw [standbyFeed, standbyFeed, activeFeed_kept h hown]

theorem feedGood_kept (f : Feed) (hown : own 0x20000 (goodField f).lo = false) : feedGood t f = feedGood s f := by
  cases f
  · exact flag_kept h _ ⟨by decide, by decide, hown⟩
  · exact flag_kept h _ ⟨by decide, by decide, hown⟩

theorem convFailed_kept (f : Feed) (hown : own 0x20000 (failedField f).lo = false) : convFailed t f = convFailed s f := by
  cases f
  · exact flag_kept h _ ⟨by decide, by decide, hown⟩
  · exact flag_kept h _ ⟨by decide, by decide, hown⟩
end

/-! ### The power block's operations -/

@[simp] theorem modFeed_regs (f : Feed) (g : FeedState → FeedState) (s : State) : (modFeed f g s).regs = s.regs := by
  cases f <;> rfl

@[simp] theorem modFeed_failing (f : Feed) (g : FeedState → FeedState) (s : State) : (modFeed f g s).pwr.failing = s.pwr.failing := by
  cases f <;> rfl

theorem keptRegs_modFeed {own : Nat → Nat → Bool} (f : Feed) (g : FeedState → FeedState) (s : State) : keptRegs own s (modFeed f g s) :=
  keptRegs_of_regs (modFeed_regs f g s)

theorem quiet_feedRecord (s : State) : Quiet s (feedRecord s) := quiet_dayEvent _ _ _ _ _ _ _ s

theorem keptRegs_endExercise (s : State) : keptRegs (powerFields [PWR_STATUS_EXERCISE_ON]) s (endExercise s) :=
  keptRegs_powerFields _ s (by decide) (by decide)

theorem exerciseOn_endExercise (s : State) : flag (endExercise s) pwrB PWR_STATUS_EXERCISE_ON = false := flag_setF_same _ _ _ s rfl

theorem keptRegs_syncStandby (s : State) : keptRegs (powerFields [PWR_STATUS_STANDBY_READY]) s (syncStandby s) :=
  keptRegs_powerFields _ s (by decide) (by decide)

/-- STANDBY_READY says that the standby's feed is good and its converter not marked (R44, R47). -/
def standbyTrue (s : State) : Prop :=
  flag s pwrB PWR_STATUS_STANDBY_READY = (feedGood s (standbyFeed s) && !convFailed s (standbyFeed s))

theorem standbyTrue_syncStandby (s : State) : standbyTrue (syncStandby s) := by
  have h := keptRegs_syncStandby s
  rw [standbyTrue, standbyFeed_kept h, feedGood_kept h _ (by cases standbyFeed s <;> decide),
    convFailed_kept h _ (by cases standbyFeed s <;> decide)]
  exact flag_setF_same _ _ _ s rfl

theorem standbyTrue_kept {s t : State} (h : keptRegs noReg s t) (hs : standbyTrue s) : standbyTrue t := by
  rw [standbyTrue, flag_kept h PWR_STATUS_STANDBY_READY, standbyFeed_kept h, feedGood_kept h _ rfl, convFailed_kept h _ rfl]
  exact hs

/-! ### The switch-over (R45, R46) -/

/-- The fields that a switch-over writes. -/
def swapFields : List Field := [PWR_STATUS_ACTIVE, PWR_STATUS_SWAPPED, PWR_SWAP_COUNT_SWAPS, PWR_STATUS_STANDBY_READY]

/-- A switch-over up to its record, with the flow of the two feeds and of STANDBY_READY left out. -/
def swapRegs (s : State) : State :=
  incF pwrB PWR_SWAP_COUNT_SWAPS (wr pwrB PWR_STATUS_SWAPPED 1 (setF pwrB PWR_STATUS_ACTIVE (decide (standbyFeed s = .b)) s))

theorem keptRegs_switchOver_swapRegs (bus : Bool) (s : State) :
    keptRegs (powerFields [PWR_STATUS_STANDBY_READY]) (swapRegs s) (switchOver bus s) := by
  unfold switchOver
  refine keptRegs_trans ?_ (quiet_feedRecord _).keptRegs
  refine keptRegs_trans ?_ (keptRegs_syncStandby _)
  refine keptRegs_trans ?_ (keptRegs_modFeed _ _ _)
  exact keptRegs_trans (keptRegs_of_regs rfl) (keptRegs_modFeed _ _ _)

theorem keptRegs_swapRegs (s : State) : keptRegs (powerFields swapFields) s (swapRegs s) := by
  refine keptRegs_trans ?_ (keptRegs_powerFields _ _ (by decide) (by decide))
  refine keptRegs_trans ?_ (keptRegs_powerFields _ _ (by decide) (by decide))
  exact keptRegs_powerFields _ s (by decide) (by decide)

theorem keptRegs_switchOver (bus : Bool) (s : State) : keptRegs (powerFields swapFields) s (switchOver bus s) :=
  keptRegs_trans (keptRegs_swapRegs s) (keptRegs_more (keptRegs_switchOver_swapRegs bus s))

/-- The standby becomes the active feed. -/
theorem activeFeed_switchOver (bus : Bool) (s : State) : activeFeed (switchOver bus s) = standbyFeed s := by
  have hactive : flag (swapRegs s) pwrB PWR_STATUS_ACTIVE = decide (standbyFeed s = .b) := by
    rw [swapRegs, flag_congr (rd_incF_ne _ (by decide)), flag_congr (rd_wr_ne _ _ (by decide)), flag_setF_same _ _ _ s rfl]
  rw [activeFeed_kept (keptRegs_switchOver_swapRegs bus s), activeFeed, hactive]
  cases standbyFeed s <;> rfl

theorem swapped_switchOver (bus : Bool) (s : State) : rd (switchOver bus s) pwrB PWR_STATUS_SWAPPED = 1 := by
  rw [keptRegs_switchOver_swapRegs bus s _ _ (by decide) (by decide) (by decide), swapRegs, rd_incF_ne _ (by decide), rd_wr_same]
  rfl

/-! ### A marked converter (R44) -/

theorem keptRegs_markFailed (f : Feed) (s : State) :
    keptRegs (powerFields [failedField f, PWR_STATUS_STANDBY_READY]) s (markFailed f s) := by
  unfold markFailed
  refine keptRegs_trans ?_ (quiet_earlyWarn _ _ _ _ _).keptRegs
  refine keptRegs_trans ?_ (keptRegs_more (keptRegs_syncStandby _) (by simp))
  refine keptRegs_trans ?_ (keptRegs_modFeed _ _ _)
  exact keptRegs_powerFields _ s (by cases f <;> decide) (by simp)

theorem convFailed_setF (f : Feed) (v : Bool) (s : State) : convFailed (setF pwrB (failedField f) v s) f = v :=
  flag_setF_same _ _ v s (by cases f <;> rfl)

theorem convFailed_markFailed (f : Feed) (s : State) : convFailed (markFailed f s) f = true := by
  have hready (u : State) : convFailed (syncStandby u) f = convFailed u f :=
    convFailed_kept (keptRegs_syncStandby u) f (by cases f <;> decide)
  unfold markFailed
  rw [convFailed_kept (quiet_earlyWarn _ _ _ _ _).regs f rfl, hready, convFailed_kept (keptRegs_modFeed (own := noReg) _ _ _) f rfl,
    convFailed_setF]

/-! ### What leaves the power block alone

The power-fail sequence (R49) and a charged store (R48) reach into blocks above the power block; `powerBlock` is what stays. -/

/-- The power block: its own state and its registers. -/
def powerBlock (s : State) : PowerState × (Field → Nat) :=
  (s.pwr, fun f => if f.off < 0x10000 ∧ f.lo < 32 then rd s pwrB f else 0)

theorem pwr_of_powerBlock {s t : State} (h : powerBlock t = powerBlock s) : t.pwr = s.pwr := congrArg Prod.fst h

theorem rd_of_powerBlock {s t : State} (h : powerBlock t = powerBlock s) (f : Field)
    (hf : f.off < 0x10000 ∧ f.lo < 32 := by decide) : rd t pwrB f = rd s pwrB f := by
  have heq := congrFun (congrArg Prod.snd h) f
  simpa only [powerBlock, if_pos hf] using heq

theorem powerBlock_of_eq {s t : State} (hp : t.pwr = s.pwr) (hr : ∀ f : Field, f.off < 0x10000 → f.lo < 32 → rd t pwrB f = rd s pwrB f) :
    powerBlock t = powerBlock s := by
  unfold powerBlock
  congr 1
  funext f
  split
  · next hf => exact hr f hf.1 hf.2
  · rfl

theorem powerBlock_congr {s t : State} (hp : t.pwr = s.pwr) (hr : t.regs = s.regs) : powerBlock t = powerBlock s :=
  powerBlock_of_eq hp (fun f _ _ => rd_congr hr pwrB f)

theorem Quiet.powerBlock {s t : State} (q : Quiet s t) : powerBlock t = powerBlock s := by
  refine powerBlock_of_eq q.pwr (fun f hoff hlo => q.rd hlo ?_)
  have hpwr : pwrB = 0x20000 := rfl
  simp only [svcReg, Bool.or_eq_false_iff, Bool.and_eq_false_iff, decide_eq_false_iff_not]
  omega

@[simp] theorem powerBlock_wr {b : Nat} (f : Field) (v : Nat) (s : State) (hb : 0x30000 ≤ b) :
    powerBlock (wr b f v s) = powerBlock s := by
  refine powerBlock_of_eq rfl (fun g hoff hlo => rd_wr_ne v s ?_)
  have hpwr : pwrB = 0x20000 := rfl
  have := tyCode_lt (tyAt pwrB g)
  unfold fieldKey
  omega

@[simp] theorem powerBlock_setF {b : Nat} (f : Field) (v : Bool) (s : State) (hb : 0x30000 ≤ b) :
    powerBlock (setF b f v s) = powerBlock s := powerBlock_wr f _ s hb

@[simp] theorem powerBlock_incF {b : Nat} (f : Field) (s : State) (hb : 0x30000 ≤ b) :
    powerBlock (incF b f s) = powerBlock s := powerBlock_wr f _ s hb

/-! The bases of the blocks above it. -/

@[simp] theorem le_actBase (a : Nat) : 0x30000 ≤ actBase a := by unfold actBase; omega
@[simp] theorem le_portBase (n : Nat) : 0x30000 ≤ portBase n := by unfold portBase; omega
@[simp] theorem le_hostBase (h : Nat) : 0x30000 ≤ hostBase h := by unfold hostBase; omega
@[simp] theorem le_leBase (i : Nat) : 0x30000 ≤ leBase i := by unfold leBase actBase portBase; split <;> omega
@[simp] theorem le_slB : 0x30000 ≤ slB := by decide
@[simp] theorem le_ledB : 0x30000 ≤ ledB := by decide
@[simp] theorem le_qeB : 0x30000 ≤ qeB := by decide
@[simp] theorem le_cfgB : 0x30000 ≤ cfgB := by decide
@[simp] theorem le_asyB : 0x30000 ≤ asyB := by decide

@[simp] theorem powerBlock_modAct (a : Nat) (f : Act → Act) (s : State) : powerBlock (modAct a f s) = powerBlock s := rfl
@[simp] theorem powerBlock_modPort (n : Nat) (f : Port → Port) (s : State) : powerBlock (modPort n f s) = powerBlock s := rfl
@[simp] theorem powerBlock_modLoop (i : Nat) (f : LoopSt → LoopSt) (s : State) : powerBlock (modLoop i f s) = powerBlock s := rfl
@[simp] theorem powerBlock_modCtrl (h : Nat) (f : Ctrl → Ctrl) (s : State) : powerBlock (modCtrl h f s) = powerBlock s := rfl

theorem powerBlock_sluice (q : SluiceState) (s : State) : powerBlock { s with sluice := q } = powerBlock s := rfl
theorem powerBlock_obj (o : ObjectState) (s : State) : powerBlock { s with obj := o } = powerBlock s := rfl
theorem powerBlock_rsv (r : RsvState) (s : State) : powerBlock { s with rsv := r } = powerBlock s := rfl

theorem powerBlock_when {c : Bool} {f : State → State} {s : State} (h : powerBlock (f s) = powerBlock s) :
    powerBlock (when c f s) = powerBlock s := by
  cases c
  · rfl
  · exact h

theorem powerBlock_forEach {α : Type} (l : List α) {f : α → State → State} (h : ∀ x s, powerBlock (f x s) = powerBlock s) (s : State) :
    powerBlock (forEach l f s) = powerBlock s := by
  induction l generalizing s with
  | nil => rfl
  | cons x l ih => exact (ih (f x s)).trans (h x s)

/-! An actuator: its rewrite queue, its gate, its tune, its retract. -/

@[simp] theorem powerBlock_bump (f : Field) (was is : Bool) (s : State) : powerBlock (bump f was is s) = powerBlock s := by
  unfold bump
  split
  · rfl
  · simp

@[simp] theorem powerBlock_setEntry (a r : Nat) (e : LedEntry) (s : State) : powerBlock (setEntry a r e s) = powerBlock s := by
  simp only [setEntry, ledDirty, powerBlock_setF _ _ _ le_ledB]
  refine Eq.trans (powerBlock_congr rfl rfl) ((powerBlock_bump _ _ _ _).trans ((powerBlock_bump _ _ _ _).trans ?_))
  exact powerBlock_forEach _ (fun _ _ => powerBlock_bump _ _ _ _) s

@[simp] theorem powerBlock_pauseIfFull (a : Nat) (s : State) : powerBlock (pauseIfFull a s) = powerBlock s := by
  unfold pauseIfFull
  split
  · split <;> simp
  · rfl

@[simp] theorem powerBlock_rewriteAdd (a reach : Nat) (w : Rewrite) (s : State) : powerBlock (rewriteAdd a reach w s) = powerBlock s := by
  simp [rewriteAdd, modEntry]

@[simp] theorem powerBlock_cutSector (a : Nat) (s : State) : powerBlock (cutSector a s) = powerBlock s := by
  simp only [cutSector]
  split
  · split
    · split <;> simp
    · rfl
  · rfl

@[simp] theorem powerBlock_gateUpdate (a : Nat) (s : State) : powerBlock (gateUpdate a s) = powerBlock s := by
  simp only [gateUpdate]
  split
  · exact (powerBlock_setF _ _ _ (le_actBase a)).trans (powerBlock_when (powerBlock_modAct _ _ s))
  · simp only [powerBlock_modAct, powerBlock_cutSector, powerBlock_setF _ _ _ (le_actBase a)]
    exact powerBlock_when (powerBlock_modAct _ _ s)

@[simp] theorem powerBlock_setGates (a : Nat) (f : Gates → Gates) (s : State) : powerBlock (setGates a f s) = powerBlock s := by
  simp [setGates]

@[simp] theorem powerBlock_raiseOff (a : Nat) (s : State) : powerBlock (raiseOff a s) = powerBlock s := by
  simpa [raiseOff] using powerBlock_when (powerBlock_incF _ s (le_actBase a))

@[simp] theorem powerBlock_tuneAbort (i cause : Nat) (s : State) : powerBlock (tuneAbort i cause s) = powerBlock s := by
  unfold tuneAbort
  split
  · rfl
  · exact (powerBlock_when (powerBlock_raiseOff _ _)).trans (by simp)

@[simp] theorem powerBlock_retract (a : Nat) (s : State) : powerBlock (retract a s) = powerBlock s := by
  simp only [retract]
  split
  · rfl
  · have hfail (c : Bool) (u : State) :
        powerBlock (when c (fun s => incF (actBase a) SV_COUNTS_C_LOAD_FAILS (wr (actBase a) SV_EVENTS_LOAD_FAIL 1 s)) u) = powerBlock u :=
      powerBlock_when (by simp)
    simp [hfail]

/-! A spindle: its bridge, its grant, the Sluice. -/

@[simp] theorem powerBlock_showLoop (i : Nat) (s : State) : powerBlock (showLoop i s) = powerBlock s := by
  simpa [showLoop] using powerBlock_when (powerBlock_modAct i _ s)

@[simp] theorem powerBlock_bridgeOff (n : Nat) (s : State) : powerBlock (bridgeOff n s) = powerBlock s := by
  simp [bridgeOff, setDemand]

@[simp] theorem powerBlock_syncSluice (s : State) : powerBlock (syncSluice s) = powerBlock s := by
  simp [syncSluice]

@[simp] theorem powerBlock_releaseGrant (n : Nat) (s : State) : powerBlock (releaseGrant n s) = powerBlock s := by
  rw [releaseGrant, powerBlock_syncSluice]
  exact (powerBlock_sluice _ (setGrant n 0 s)).trans (by simp [setGrant])

@[simp] theorem powerBlock_railSpindle (n : Nat) (s : State) : powerBlock (railSpindle n s) = powerBlock s := by
  simp only [railSpindle]
  split <;> simp

/-! The hosts' connections. -/

@[simp] theorem powerBlock_syncLocks (s : State) : powerBlock (syncLocks s) = powerBlock s := by simp [syncLocks]

@[simp] theorem powerBlock_abortOn (h : Nat) (q : Option Nat) (s : State) : powerBlock (abortOn h q s) = powerBlock s :=
  powerBlock_syncLocks _

@[simp] theorem powerBlock_dropAssociation (h : Nat) (s : State) : powerBlock (dropAssociation h s) = powerBlock s := by
  have hclose (o : ObjectState) (u : State) : powerBlock { closeStreams h u with obj := o } = powerBlock u := rfl
  simp [dropAssociation, ctrlReset, syncConn, hclose]

theorem powerBlock_dropHosts (s : State) : powerBlock (dropHosts s) = powerBlock s :=
  powerBlock_forEach _ (fun h s => by simp) s

/-! A commit and a reset in progress. -/

theorem powerBlock_cutCommit (s : State) : powerBlock (cutCommit s) = powerBlock s := by
  unfold cutCommit
  split
  · rfl
  · simp only [powerBlock_wr _ _ _ le_cfgB]
    exact powerBlock_congr rfl rfl


theorem powerBlock_below {b : Nat} {f : Field} (v : Nat) (s : State) (hb : b + f.off < 0x20000) (hlo : f.lo < 32) :
    powerBlock (wr b f v s) = powerBlock s := by
  have hpwr : pwrB = 0x20000 := rfl
  refine powerBlock_of_eq rfl (fun g hoff hg => rd_wr_addr v s hlo hg ?_)
  omega

theorem powerBlock_countAt (t : Stamp) (cause : Nat) (s : State) : powerBlock (countAt t cause s) = powerBlock s := by
  simp only [countAt]
  refine (quiet_dayRecord _ _ _ _ _ _ _ _).powerBlock.trans ((quiet_pairSet _ _ _).powerBlock.trans ?_)
  rw [powerBlock_below _ _ (by decide) (by decide), powerBlock_below _ _ (by decide) (by decide)]
  simp only [powerBlock_wr _ _ _ le_asyB]

theorem powerBlock_settlePin (s : State) : powerBlock (settlePin s) = powerBlock s := by
  unfold settlePin
  split
  · exact (powerBlock_countAt _ _ _).trans rfl
  · rfl

/-! ### The start of the power-fail sequence (R49) -/

/-- What the power-fail sequence does once it is marked as running. -/
def failEffects (s : State) : State :=
  let s := when (decide (s.obj.durable < s.obj.commit)) (fun s => { s with obj := { s.obj with unsafeDowns := s.obj.unsafeDowns + 1 } }) s
  let s := forEach (List.range 48) (fun a s => retract a (setGates a (fun g => { g with power := true }) s)) (dropHosts s)
  journalRecord (forEach (List.range 24) railSpindle s)

theorem powerFail_eq (s : State) (h : s.pwr.failing = false) :
    powerFail s = failEffects { settlePin (cutCommit s) with pwr := { (settlePin (cutCommit s)).pwr with failing := true, gap := false } } := by
  rw [powerFail, if_neg (by simp [h])]
  rfl

theorem powerBlock_failEffects (s : State) : powerBlock (failEffects s) = powerBlock s := by
  simp only [failEffects]
  refine (powerBlock_rsv _ _).trans ((powerBlock_forEach _ (fun n s => powerBlock_railSpindle n s) _).trans ?_)
  refine (powerBlock_forEach _ (fun a s => by simp) _).trans ((powerBlock_dropHosts _).trans ?_)
  exact powerBlock_when (powerBlock_obj _ s)

theorem powerFail_failing (s : State) : (powerFail s).pwr.failing = true := by
  cases h : s.pwr.failing with
  | true => rw [powerFail, if_pos h, h]
  | false => rw [powerFail_eq s h, pwr_of_powerBlock (powerBlock_failEffects _)]

theorem rd_powerFail (s : State) (f : Field) (hf : f.off < 0x10000 ∧ f.lo < 32 := by decide) :
    rd (powerFail s) pwrB f = rd s pwrB f := by
  cases h : s.pwr.failing with
  | true => rw [powerFail, if_pos h]
  | false =>
    rw [powerFail_eq s h, rd_of_powerBlock (powerBlock_failEffects _) f hf]
    exact rd_of_powerBlock ((powerBlock_settlePin _).trans (powerBlock_cutCommit s)) f hf

theorem feedGood_powerFail (f : Feed) (s : State) : feedGood (powerFail s) f = feedGood s f := by
  cases f
  · exact flag_congr (rd_powerFail s _)
  · exact flag_congr (rd_powerFail s _)

/-! ### What an outcome shows of the power block -/

theorem settleUp_pwr (f : State → State) (s : State) : (settleUp f s).pwr = (f s).pwr :=
  kept_mem (p := .pwr) (settleUp_parts f s) (by decide)

theorem feedGood_settleUp (g : State → State) (s : State) (f : Feed) : feedGood (settleUp g s) f = feedGood (g s) f :=
  feedGood_kept (settleUp_keptRegs g s) f rfl

theorem convFailed_settleUp (g : State → State) (s : State) (f : Feed) : convFailed (settleUp g s) f = convFailed (g s) f :=
  convFailed_kept (settleUp_keptRegs g s) f rfl

theorem activeFeed_settleUp (g : State → State) (s : State) : activeFeed (settleUp g s) = activeFeed (g s) :=
  activeFeed_kept (settleUp_keptRegs g s)

/-- A field of the power block reads after the command as after its own effect. -/
theorem rd_power_settleUp (g : State → State) (s : State) (f : Field)
    (hf : f.lo < 32 ∧ svcReg (pwrB + f.off) f.lo = false := by decide) : rd (settleUp g s) pwrB f = rd (g s) pwrB f :=
  rd_settleUp g s hf.1 hf.2

/-- The outcome of an accepted register write is the register's own effect. -/
theorem runWrite_accepted {p : Path} {addr : Nat} (v : Nat) (act : State → State) {s : State} (hok : addrOk addr = true)
    (hf : forbidden p addr = false) (hl : accessLive s p addr = true) : runWrite p addr v act s = .next (settleUp act s) := by
  have hmgmt : live s .mgmt = true := by
    simp only [accessLive, Bool.and_eq_true] at hl
    obtain ⟨⟨⟨hpow, hcold⟩, -⟩, -⟩ := hl
    simp only [live, hpow, hcold, Bool.and_self]
  have hact : byPath p addr v act s = act s := by
    simp [byPath, hok, hf, hl]
  rw [runWrite, run_live hmgmt, settleUp, settleUp, hact]

/-! ### Feeds that turn good or bad (R41, R45, R49) -/

/-- R41: the feed is good, and STANDBY_READY follows. -/
theorem feedGoodOp_spec {f : Feed} {s : State} (h : feedGood s f = false) :
    feedGood (feedGoodOp f s) f = true ∧ standbyTrue (feedGoodOp f s) := by
  simp only [feedGoodOp, h, Bool.false_eq_true, if_false]
  refine ⟨?_, standbyTrue_syncStandby _⟩
  rw [feedGood_kept (keptRegs_syncStandby _) f (by cases f <;> decide), feedGood_kept (own := noReg) (keptRegs_modFeed _ _ _) f rfl]
  exact flag_setF_same _ _ _ s (by cases f <;> rfl)

/-- A feed that is not good any more, STANDBY_READY and the early-warning that follow. -/
def feedDropped (f : Feed) (s : State) : State :=
  let s := setF pwrB (goodField f) false s
  let s := modFeed f (fun x => { x with badSince := some (now s), goodSince := none, cleanSince := none }) s
  earlyWarn 0 4 (feedIx f) 0 (syncStandby s)

/-- R45, R49, R53: what the loss of a good feed leads to. -/
theorem feedBadOp_eq {f : Feed} {s : State} (hgood : feedGood s f = true) (hfail : s.pwr.failing = false) :
    feedBadOp f s =
      if f = activeFeed s then
        if flag s pwrB PWR_STATUS_STANDBY_READY then switchOver false (endExercise (feedDropped f s))
        else powerFail (endExercise (feedDropped f s))
      else endExercise (feedDropped f s) := by
  have hfail' : (feedDropped f s).pwr.failing = false := by
    simpa only [feedDropped, earlyWarn_pwr, syncStandby, setF_pwr, modFeed_failing] using hfail
  simp only [feedBadOp, hgood, Bool.not_true, Bool.false_eq_true, if_false]
  exact if_neg (by rw [← feedDropped, hfail']; decide)

theorem keptRegs_feedDropped (f : Feed) (s : State) :
    keptRegs (powerFields [goodField f, PWR_STATUS_STANDBY_READY]) s (feedDropped f s) := by
  unfold feedDropped
  refine keptRegs_trans ?_ (quiet_earlyWarn _ _ _ _ _).keptRegs
  refine keptRegs_trans ?_ (keptRegs_more (keptRegs_syncStandby _) (by simp))
  refine keptRegs_trans ?_ (keptRegs_modFeed _ _ _)
  exact keptRegs_powerFields _ s (by cases f <;> decide) (by simp)

theorem feedGood_feedDropped (f : Feed) (s : State) : feedGood (feedDropped f s) f = false := by
  unfold feedDropped
  rw [feedGood_kept (quiet_earlyWarn _ _ _ _ _).regs f rfl, feedGood_kept (keptRegs_syncStandby _) f (by cases f <;> decide),
    feedGood_kept (own := noReg) (keptRegs_modFeed _ _ _) f rfl]
  exact flag_setF_same _ _ _ s (by cases f <;> rfl)

theorem standbyTrue_feedDropped (f : Feed) (s : State) : standbyTrue (feedDropped f s) :=
  standbyTrue_kept (quiet_earlyWarn _ _ _ _ _).regs (standbyTrue_syncStandby _)

theorem feedGood_endExercise (f : Feed) (s : State) : feedGood (endExercise s) f = feedGood s f :=
  feedGood_kept (keptRegs_endExercise s) f (by cases f <;> decide)

theorem feedGood_switchOver (bus : Bool) (f : Feed) (s : State) : feedGood (switchOver bus s) f = feedGood s f :=
  feedGood_kept (keptRegs_switchOver bus s) f (by cases f <;> decide)

theorem activeFeed_endExercise (s : State) : activeFeed (endExercise s) = activeFeed s := activeFeed_kept (keptRegs_endExercise s)

theorem activeFeed_feedDropped (f : Feed) (s : State) : activeFeed (feedDropped f s) = activeFeed s :=
  activeFeed_kept (keptRegs_feedDropped f s) (by cases f <;> decide)

theorem standbyFeed_ne_activeFeed (s : State) : standbyFeed s ≠ activeFeed s := by
  unfold standbyFeed
  cases activeFeed s <;> decide

/-- R45: the active feed goes, and the standby takes over. -/
theorem feedBadOp_active_ready {s : State} (hfail : s.pwr.failing = false) (hgood : feedGood s (activeFeed s) = true)
    (hready : flag s pwrB PWR_STATUS_STANDBY_READY = true) :
    feedGood (feedBadOp (activeFeed s) s) (activeFeed s) = false ∧ activeFeed (feedBadOp (activeFeed s) s) = standbyFeed s ∧
      rd (feedBadOp (activeFeed s) s) pwrB PWR_STATUS_SWAPPED = 1 := by
  rw [feedBadOp_eq hgood hfail, if_pos rfl, if_pos hready]
  refine ⟨?_, ?_, swapped_switchOver _ _⟩
  · rw [feedGood_switchOver, feedGood_endExercise, feedGood_feedDropped]
  · rw [activeFeed_switchOver, standbyFeed, activeFeed_endExercise, activeFeed_feedDropped, standbyFeed]

/-- R49: the active feed goes with no standby ready, and the power-fail sequence starts. -/
theorem feedBadOp_active_alone {s : State} (hfail : s.pwr.failing = false) (hgood : feedGood s (activeFeed s) = true)
    (hready : flag s pwrB PWR_STATUS_STANDBY_READY = false) :
    feedGood (feedBadOp (activeFeed s) s) (activeFeed s) = false ∧ (feedBadOp (activeFeed s) s).pwr.failing = true := by
  rw [feedBadOp_eq hgood hfail, if_pos rfl, if_neg (by rw [hready]; decide)]
  refine ⟨?_, powerFail_failing _⟩
  rw [feedGood_powerFail, feedGood_endExercise, feedGood_feedDropped]

/-- R45: the standby's feed goes: no switch-over, and none is possible. -/
theorem feedBadOp_standby {s : State} (hfail : s.pwr.failing = false) (hgood : feedGood s (standbyFeed s) = true) :
    feedGood (feedBadOp (standbyFeed s) s) (standbyFeed s) = false ∧ activeFeed (feedBadOp (standbyFeed s) s) = activeFeed s ∧
      flag (feedBadOp (standbyFeed s) s) pwrB PWR_STATUS_STANDBY_READY = false := by
  rw [feedBadOp_eq hgood hfail, if_neg (standbyFeed_ne_activeFeed s)]
  refine ⟨?_, ?_, ?_⟩
  · rw [feedGood_endExercise, feedGood_feedDropped]
  · rw [activeFeed_endExercise, activeFeed_feedDropped]
  · have hstandby : standbyFeed (feedDropped (standbyFeed s) s) = standbyFeed s := by
      rw [standbyFeed, activeFeed_feedDropped, standbyFeed]
    rw [flag_kept (keptRegs_endExercise _) PWR_STATUS_STANDBY_READY, standbyTrue_feedDropped, hstandby, feedGood_feedDropped,
      Bool.false_and]

/-! ### Converters out of their window, the bus too low (R44) -/

theorem feedGood_of_both {s : State} (ha : feedGood s .a = true) (hb : feedGood s .b = true) (f : Feed) : feedGood s f = true := by
  cases f
  · exact ha
  · exact hb

/-- R47: a condition of R44's table starts the standby's clean time afresh. -/
def standbyUnclean (s : State) : State :=
  modFeed (standbyFeed s) (fun x => { x with cleanSince := some (now s) }) s

/-- R44's table with both feeds good and no power-fail sequence. -/
theorem converterOp_eq {s : State} (hfail : s.pwr.failing = false) (ha : feedGood s .a = true) (hb : feedGood s .b = true)
    (am sm : Nat) :
    converterOp am sm s =
      if inBusWindow s am then
        if inBusWindow s sm then
          if busDiffer s am sm then feedRecord (wr pwrB PWR_STATUS_MISMATCH 1 (standbyUnclean s)) else s
        else markFailed (standbyFeed s) (endExercise (standbyUnclean s))
      else if inBusWindow s sm then
        if flag s pwrB PWR_STATUS_STANDBY_READY then markFailed (activeFeed s) (switchOver false (endExercise (standbyUnclean s)))
        else powerFail (markFailed (activeFeed s) (standbyUnclean s))
      else markFailed (standbyFeed s) (markFailed (activeFeed s) (endExercise (standbyUnclean s))) := by
  have hready : flag (standbyUnclean s) pwrB PWR_STATUS_STANDBY_READY = flag s pwrB PWR_STATUS_STANDBY_READY :=
    flag_kept (own := noReg) (keptRegs_modFeed _ _ _) _
  rw [standbyUnclean] at hready
  -- The table's columns: the active output, the standby's output, their difference.
  cases ham : inBusWindow s am <;> cases hsm : inBusWindow s sm <;> cases hd : busDiffer s am sm <;>
    simp [converterOp, standbyUnclean, hfail, feedGood_of_both ha hb, ham, hsm, hd, when, hready]

theorem keptRegs_standbyUnclean {own : Nat → Nat → Bool} (s : State) : keptRegs own s (standbyUnclean s) := keptRegs_modFeed _ _ _

theorem activeFeed_standbyUnclean (s : State) : activeFeed (standbyUnclean s) = activeFeed s :=
  activeFeed_kept (own := noReg) (keptRegs_standbyUnclean s)

theorem standbyFeed_standbyUnclean (s : State) : standbyFeed (standbyUnclean s) = standbyFeed s :=
  standbyFeed_kept (own := noReg) (keptRegs_standbyUnclean s)

theorem activeFeed_markFailed (f : Feed) (s : State) : activeFeed (markFailed f s) = activeFeed s :=
  activeFeed_kept (keptRegs_markFailed f s) (by cases f <;> decide)

theorem swapped_markFailed (f : Feed) (s : State) : rd (markFailed f s) pwrB PWR_STATUS_SWAPPED = rd s pwrB PWR_STATUS_SWAPPED :=
  keptRegs_markFailed f s _ _ (by decide) (by decide) (by cases f <;> decide)

/-- The standby is now the active feed, the old active converter is marked, and SWAPPED says so (R44, R45). -/
def swappedFrom (s t : State) : Prop :=
  activeFeed t = standbyFeed s ∧ convFailed t (activeFeed s) = true ∧ rd t pwrB PWR_STATUS_SWAPPED = 1

theorem swappedFrom_switchOver (bus : Bool) (s : State) :
    swappedFrom s (markFailed (activeFeed s) (switchOver bus (endExercise s))) := by
  refine ⟨?_, convFailed_markFailed _ _, ?_⟩
  · rw [activeFeed_markFailed, activeFeed_switchOver, standbyFeed_kept (keptRegs_endExercise s)]
  · rw [swapped_markFailed, swapped_switchOver]

theorem swappedFrom_settleUp {g : State → State} {s : State} (h : swappedFrom s (g s)) : swappedFrom s (settleUp g s) := by
  obtain ⟨hact, hconv, hswap⟩ := h
  exact ⟨(activeFeed_settleUp g s).trans hact, (convFailed_settleUp g s _).trans hconv, (rd_power_settleUp g s _).trans hswap⟩

section
variable {s : State} {am sm : Nat} (hfail : s.pwr.failing = false) (ha : feedGood s .a = true) (hb : feedGood s .b = true)
include hfail ha hb

theorem converterOp_activeOut (ham : inBusWindow s am = false) (hsm : inBusWindow s sm = true)
    (hready : flag s pwrB PWR_STATUS_STANDBY_READY = true) : swappedFrom s (converterOp am sm s) := by
  have h := swappedFrom_switchOver false (standbyUnclean s)
  rw [swappedFrom, activeFeed_standbyUnclean, standbyFeed_standbyUnclean] at h
  simpa only [swappedFrom, converterOp_eq hfail ha hb, ham, hsm, hready, Bool.false_eq_true, if_true, if_false] using h

theorem converterOp_standbyOut (ham : inBusWindow s am = true) (hsm : inBusWindow s sm = false) :
    activeFeed (converterOp am sm s) = activeFeed s ∧ convFailed (converterOp am sm s) (standbyFeed s) = true := by
  simp only [converterOp_eq hfail ha hb, ham, hsm, Bool.false_eq_true, if_true, if_false]
  refine ⟨?_, convFailed_markFailed _ _⟩
  rw [activeFeed_markFailed, activeFeed_endExercise, activeFeed_standbyUnclean]

theorem converterOp_mismatch (ham : inBusWindow s am = true) (hsm : inBusWindow s sm = true) (hd : busDiffer s am sm = true) :
    activeFeed (converterOp am sm s) = activeFeed s ∧ rd (converterOp am sm s) pwrB PWR_STATUS_MISMATCH = 1 := by
  simp only [converterOp_eq hfail ha hb, ham, hsm, hd, if_true]
  have hmark : keptRegs (powerFields [PWR_STATUS_MISMATCH]) (standbyUnclean s) (wr pwrB PWR_STATUS_MISMATCH 1 (standbyUnclean s)) :=
    keptRegs_powerFields _ _ (by decide) (by decide)
  constructor
  · rw [activeFeed_kept (quiet_feedRecord _).regs, activeFeed_kept hmark, activeFeed_standbyUnclean]
  · rw [(quiet_feedRecord _).rd (by decide) (by decide), rd_wr_same]
    rfl

theorem converterOp_normal (ham : inBusWindow s am = true) (hsm : inBusWindow s sm = true) (hd : busDiffer s am sm = false) :
    converterOp am sm s = s := by
  simp only [converterOp_eq hfail ha hb, ham, hsm, hd, Bool.false_eq_true, if_true, if_false]

end

/-- R44: a low bus with a standby that can carry it. -/
theorem undervoltageOp_swap {s : State} {bm sm : Nat} (hfail : s.pwr.failing = false) (hlow : busLow bm = true)
    (hin : inBusWindow s sm = true) (hready : flag s pwrB PWR_STATUS_STANDBY_READY = true) :
    swappedFrom s (undervoltageOp bm sm s) := by
  have h := swappedFrom_switchOver true s
  simpa [undervoltageOp, hfail, hlow, hin, hready] using h

/-- R44, R49: a low bus with none. -/
theorem undervoltageOp_fail {s : State} {bm sm : Nat} (hfail : s.pwr.failing = false) (hlow : busLow bm = true)
    (hno : (inBusWindow s sm && flag s pwrB PWR_STATUS_STANDBY_READY) = false) : undervoltageOp bm sm s = powerFail s := by
  simp [undervoltageOp, hfail, hlow, hno]

/-- R46: the end of the gap with a bus that is not low. -/
theorem gapEndOp_eq {s : State} {bm : Nat} (hgap : s.pwr.gap = true) (hlow : busLow bm = false) :
    gapEndOp bm s = { s with pwr := { s.pwr with gap := false, gapForced := false, allPhasesUntil := now s + msecs 10 } } := by
  simp [gapEndOp, hgap, hlow, when]

/-- R45, R53: a forced swap that can be made. -/
theorem forceSwapOp_swap {s : State} (hfail : s.pwr.failing = false) (hready : flag s pwrB PWR_STATUS_STANDBY_READY = true) :
    activeFeed (forceSwapOp s) = standbyFeed s ∧ rd (forceSwapOp s) pwrB PWR_STATUS_SWAPPED = 1 := by
  have hop : forceSwapOp s = switchOver false (endExercise s) := by simp [forceSwapOp, hfail, hready]
  rw [hop, activeFeed_switchOver, standbyFeed_kept (keptRegs_endExercise s)]
  exact ⟨rfl, swapped_switchOver _ _⟩

/-- Settles O1: each clause is what the command's own operation does to PWR_STATUS and the power block's state, and bringing
GLB_SERVICE up to date leaves both. -/
theorem feedsAndConverters : Obligations.FeedsAndConverters := by
  intro s hlive
  refine ⟨fun f hbad => ?good, fun hfail hgood hready => ?activeBad, fun hfail hgood => ?standbyBad,
    fun hfail ha hb hready am sm ham hsm => ?activeOut,
    fun hfail ha hb am sm ham => ⟨fun hsm => ?standbyOut, fun hsm hd => ?mismatch, fun hsm hd => ?normal⟩,
    fun hfail hgood hready => ?alone, fun hfail bm sm hlow => ⟨fun hsm hready => ?lowSwap, fun hno => ?lowFail⟩,
    fun bm hgap hlow => ?gap, fun p hf hl hfail hready => ?forced⟩
  case good =>
    obtain ⟨hg, hs⟩ := feedGoodOp_spec hbad
    exact ⟨_, run_live hlive _, (feedGood_settleUp _ s f).trans hg, standbyTrue_kept (settleUp_keptRegs _ s) hs⟩
  case activeBad =>
    obtain ⟨hg, hact, hswap⟩ := feedBadOp_active_ready hfail hgood hready
    exact ⟨_, run_live hlive _, (feedGood_settleUp _ s _).trans hg, (activeFeed_settleUp _ s).trans hact,
      (rd_power_settleUp _ s _).trans hswap⟩
  case standbyBad =>
    obtain ⟨hg, hact, hr⟩ := feedBadOp_standby hfail hgood
    exact ⟨_, run_live hlive _, (feedGood_settleUp _ s _).trans hg, (activeFeed_settleUp _ s).trans hact,
      (flag_congr (rd_power_settleUp _ s _)).trans hr⟩
  case activeOut => exact ⟨_, run_live hlive _, swappedFrom_settleUp (converterOp_activeOut hfail ha hb ham hsm hready)⟩
  case standbyOut =>
    obtain ⟨hact, hconv⟩ := converterOp_standbyOut hfail ha hb ham hsm
    exact ⟨_, run_live hlive _, (activeFeed_settleUp _ s).trans hact, (convFailed_settleUp _ s _).trans hconv⟩
  case mismatch =>
    obtain ⟨hact, hmis⟩ := converterOp_mismatch hfail ha hb ham hsm hd
    exact ⟨_, run_live hlive _, (activeFeed_settleUp _ s).trans hact, (rd_power_settleUp _ s _).trans hmis⟩
  case normal =>
    have hop := converterOp_normal hfail ha hb ham hsm hd
    exact ⟨_, run_live hlive _, (activeFeed_settleUp _ s).trans (congrArg activeFeed hop),
      (settleUp_pwr _ s).trans (congrArg State.pwr hop)⟩
  case alone =>
    obtain ⟨hg, hdown⟩ := feedBadOp_active_alone hfail hgood hready
    exact ⟨_, run_live hlive _, (feedGood_settleUp _ s _).trans hg, (congrArg _ (settleUp_pwr _ s)).trans hdown⟩
  case lowSwap => exact ⟨_, run_live hlive _, swappedFrom_settleUp (undervoltageOp_swap hfail hlow hsm hready)⟩
  case lowFail =>
    refine ⟨_, run_live hlive _, ?_⟩
    rw [settleUp_pwr, undervoltageOp_fail hfail hlow hno, powerFail_failing]
  case gap =>
    refine ⟨_, run_live hlive _, ?_⟩
    rw [settleUp_pwr, gapEndOp_eq hgap hlow]
    exact ⟨rfl, rfl⟩
  case forced =>
    obtain ⟨hact, hswap⟩ := forceSwapOp_swap hfail hready
    exact ⟨_, runWrite_accepted _ _ (by decide) hf hl, (activeFeed_settleUp _ s).trans hact, (rd_power_settleUp _ s _).trans hswap⟩

/-! ### The set-points (R43) -/

theorem clampTo_zero (mx v : Nat) : clampTo 0 mx v = min mx v := by
  simp only [clampTo, Nat.not_lt_zero, if_false]
  split <;> omega

theorem findReg_pwrIbSet : findReg 0x20008 = some (pwrB, ⟨0x8, 1, 0, [PWR_IB_SET_TARGET, PWR_IB_SET_ILIMIT]⟩) := by decide

/-- A write of PWR_IB_SET sets its two fields at the nearer limit. -/
theorem plainWrite_pwrIbSet (v : Nat) (s : State) :
    plainWrite 0x20008 v s =
      wr pwrB PWR_IB_SET_ILIMIT (min 18 (v / 256 % 256)) (wr pwrB PWR_IB_SET_TARGET (min 24 (v % 256)) s) := by
  rw [plainWrite, findReg_pwrIbSet, ← clampTo_zero, ← clampTo_zero]
  simp [writeFields, writeField, PWR_IB_SET_TARGET, PWR_IB_SET_ILIMIT, bitsOf]

theorem ibSetOp_target (v : Nat) (s : State) : rd (ibSetOp v s) pwrB PWR_IB_SET_TARGET = min 24 (v % 256) := by
  show rd (plainWrite 0x20008 v s) pwrB PWR_IB_SET_TARGET = min 24 (v % 256)
  rw [plainWrite_pwrIbSet, rd_wr_ne _ _ (by decide), rd_wr_same]
  exact Nat.mod_eq_of_lt (Nat.lt_of_le_of_lt (Nat.min_le_left _ _) (by decide))

theorem ibSetOp_limit (v : Nat) (s : State) : rd (ibSetOp v s) pwrB PWR_IB_SET_ILIMIT = min 18 (v / 256 % 256) := by
  show rd (plainWrite 0x20008 v s) pwrB PWR_IB_SET_ILIMIT = min 18 (v / 256 % 256)
  rw [plainWrite_pwrIbSet, rd_wr_same]
  exact Nat.mod_eq_of_lt (Nat.lt_of_le_of_lt (Nat.min_le_left _ _) (by decide))

/-- Both converters hold what the register reads. -/
theorem ibSetOp_pwr (v : Nat) (s : State) :
    (ibSetOp v s).pwr.convTarget = rd (ibSetOp v s) pwrB PWR_IB_SET_TARGET ∧
      (ibSetOp v s).pwr.convLimit = rd (ibSetOp v s) pwrB PWR_IB_SET_ILIMIT := ⟨rfl, rfl⟩

/-! ### Time that passes (R66) -/

/-- STAMP_STATUS, which moving the clock may write. -/
def stampStatus : Nat → Nat → Bool := atAddr 0x30034

theorem keptRegs_when {own : Nat → Nat → Bool} {c : Bool} {f : State → State} {s : State} (h : keptRegs own s (f s)) :
    keptRegs own s (when c f s) := by
  cases c
  · exact keptRegs_refl own s
  · exact h

theorem keptRegs_setAssay (t : Nat) (s : State) : keptRegs stampStatus s (setAssay t s) := by
  simp only [setAssay]
  refine keptRegs_trans ?_ (keptRegs_when (keptRegs_wr fabB STAMP_STATUS_HELD _ _ (by decide) (.inr (by decide))))
  refine keptRegs_trans ?_ (keptRegs_wr fabB STAMP_STATUS_HOLDING _ _ (by decide) (.inr (by decide)))
  exact keptRegs_of_regs rfl

theorem setAssay_pwr (t : Nat) (s : State) : (setAssay t s).pwr = s.pwr := by
  simp [setAssay, when, apply_ite State.pwr]

theorem now_setAssay (t : Nat) (s : State) : now (setAssay t s) = max (now s) t := by
  simp [setAssay, when, now, apply_ite State.time]

theorem keptRegs_reach (t : Nat) (s : State) : keptRegs stampStatus s (reach t s) := keptRegs_when (keptRegs_setAssay t s)

theorem reach_pwr (t : Nat) (s : State) : (reach t s).pwr = s.pwr := by
  simp [reach, when, apply_ite State.pwr, setAssay_pwr]

theorem le_now_reach (t : Nat) (s : State) : t ≤ now (reach t s) := by
  unfold reach when
  split
  · rw [now_setAssay]
    exact Nat.le_max_right _ _
  · next h => exact Nat.le_of_not_lt (fun hlt => h (decide_eq_true hlt))

/-! ### A converter's mark clears (R47) -/

/-- The mark goes at `t`, and the exercise's schedule starts again (R52). -/
def markCleared (f : Feed) (t : Nat) (s : State) : State :=
  let s := setF pwrB (failedField f) false (reach t s)
  let s := modFeed f (fun x => { x with cycled := false }) s
  syncStandby { s with pwr := { s.pwr with exerBase := max s.pwr.exerBase (now s), exerHalted := false } }

theorem markClearOp_eq {s : State} {f : Feed} {x : Nat} (hclean : (feedOf s f).cleanSince = some x) (hconv : convFailed s f = true)
    (hcyc : (feedOf s f).cycled = true) (hgood : feedGood s f = true) (hst : standbyFeed s = f) :
    markClearOp f s = markCleared f (x + secs 10) s := by
  rw [markClearOp, hclean]
  exact if_pos (by simp [hconv, hcyc, hgood, hst])

theorem convFailed_markCleared (f : Feed) (t : Nat) (s : State) : convFailed (markCleared f t s) f = false := by
  unfold markCleared
  rw [convFailed_kept (keptRegs_syncStandby _) f (by cases f <;> decide)]
  exact (convFailed_kept (own := noReg) (keptRegs_of_regs (modFeed_regs f _ _)) f rfl).trans (convFailed_setF f false (reach t s))

theorem le_now_markCleared (f : Feed) (t : Nat) (s : State) : t ≤ now (markCleared f t s) := by
  cases f
  · exact le_now_reach t s
  · exact le_now_reach t s

/-! ### The hold-up store (R48, R51) -/

/-- The store is charged, and the Sluice knows it. -/
def storeCharged (s : State) : State := syncSluice { s with pwr := { s.pwr with charged := true } }

theorem storeCharged_pwr (s : State) : (storeCharged s).pwr = { s.pwr with charged := true } :=
  pwr_of_powerBlock (powerBlock_syncSluice { s with pwr := { s.pwr with charged := true } })

theorem chargedOp_none (s : State) : chargedOp none s = storeCharged s := rfl

/-- A measured capacitance, and whether it is low. -/
def capMeasured (c : Nat) (s : State) : State := setF pwrB PWR_STATUS_HOLDUP_LOW (decide (c < 5200)) (wr pwrB PWR_HOLDUP_CAP_UF c s)

/-- The warnings that a low capacitance raises leave what was measured. -/
theorem quiet_chargedOp_some (c : Nat) (s : State) : Quiet (capMeasured c (storeCharged s)) (chargedOp (some c) s) := by
  unfold chargedOp capMeasured storeCharged
  exact quiet_when _ ((quiet_earlyWarn _ _ _ _ _).trans (quiet_critWarn _ _ _))

theorem capMeasured_spec (c : Nat) (s : State) :
    rd (capMeasured c s) pwrB PWR_HOLDUP_CAP_UF = c % 2 ^ 16 ∧
      flag (capMeasured c s) pwrB PWR_STATUS_HOLDUP_LOW = decide (c < 5200) := by
  refine ⟨?_, flag_setF_same _ _ _ _ rfl⟩
  rw [capMeasured, rd_setF_ne _ _ (by decide), rd_wr_same]
  rfl

theorem chargedOp_some_spec (c : Nat) (s : State) :
    (chargedOp (some c) s).pwr.charged = true ∧ rd (chargedOp (some c) s) pwrB PWR_HOLDUP_CAP_UF = c % 2 ^ 16 ∧
      flag (chargedOp (some c) s) pwrB PWR_STATUS_HOLDUP_LOW = decide (c < 5200) := by
  have q := quiet_chargedOp_some c s
  obtain ⟨hcap, hlow⟩ := capMeasured_spec c (storeCharged s)
  refine ⟨?_, (q.rd (by decide) (by decide)).trans hcap, (flag_kept q.regs _).trans hlow⟩
  rw [q.pwr, capMeasured, setF_pwr, wr_pwr, storeCharged_pwr]

/-! ### The feed exercise (R52, R53) -/

/-- R52: the exercise that can start does, with a switch-over. -/
theorem exerStart_spec (s : State) :
    flag (exerStart s) pwrB PWR_STATUS_EXERCISE_ON = true ∧ activeFeed (exerStart s) = standbyFeed s := by
  have hon : keptRegs (powerFields [PWR_STATUS_EXERCISE_ON]) s (setF pwrB PWR_STATUS_EXERCISE_ON true s) :=
    keptRegs_powerFields _ s (by decide) (by decide)
  unfold exerStart
  refine ⟨?_, ?_⟩
  · exact (flag_kept (keptRegs_switchOver _ _) _).trans (flag_setF_same pwrB PWR_STATUS_EXERCISE_ON true s rfl)
  · exact (activeFeed_switchOver _ _).trans (standbyFeed_kept hon)

theorem exerDueOp_spec {s : State} (hen : flag s pwrB PWR_EXERCISE_ENABLE = true) (hhalt : s.pwr.exerHalted = false)
    (hdef : s.pwr.deferFrom = none) (hfail : s.pwr.failing = false) (hon : flag s pwrB PWR_STATUS_EXERCISE_ON = false)
    (hready : flag s pwrB PWR_STATUS_STANDBY_READY = true) (hno : exerDefer (reach (exerDueAt s) s) = false) :
    flag (exerDueOp s) pwrB PWR_STATUS_EXERCISE_ON = true ∧ activeFeed (exerDueOp s) = standbyFeed s := by
  have hready' := (flag_kept (keptRegs_reach (exerDueAt s) s) PWR_STATUS_STANDBY_READY).trans hready
  have hop : exerDueOp s = exerStart (reach (exerDueAt s) s) := by
    simp [exerDueOp, exerTry, hen, hhalt, hdef, hfail, hon, hready', hno]
  obtain ⟨h1, h2⟩ := exerStart_spec (reach (exerDueAt s) s)
  rw [hop]
  exact ⟨h1, h2.trans (standbyFeed_kept (keptRegs_reach _ s))⟩

/-- The window is over and counted, before the switch-over back. -/
def windowOver (s : State) : State := incF pwrB PWR_SWAP_COUNT_EXERCISES (endExercise (reach s.pwr.exerEnd s))

theorem keptRegs_exerciseCount (s : State) :
    keptRegs (powerFields [PWR_SWAP_COUNT_EXERCISES]) s (incF pwrB PWR_SWAP_COUNT_EXERCISES s) :=
  keptRegs_powerFields _ s (by decide) (by decide)

theorem windowOver_pwr (s : State) : (windowOver s).pwr = s.pwr := reach_pwr _ s

theorem activeFeed_windowOver (s : State) : activeFeed (windowOver s) = activeFeed s := by
  rw [windowOver, activeFeed_kept (keptRegs_exerciseCount _), activeFeed_endExercise, activeFeed_kept (keptRegs_reach _ s)]

theorem windowOver_spec (s : State) :
    flag (windowOver s) pwrB PWR_STATUS_EXERCISE_ON = false ∧
      flag (windowOver s) pwrB PWR_STATUS_STANDBY_READY = flag s pwrB PWR_STATUS_STANDBY_READY ∧
      rd (windowOver s) pwrB PWR_SWAP_COUNT_EXERCISES = satInc 0xFFFF (rd s pwrB PWR_SWAP_COUNT_EXERCISES) % 2 ^ 16 := by
  unfold windowOver
  refine ⟨?_, ?_, ?_⟩
  · rw [flag_kept (keptRegs_exerciseCount _) PWR_STATUS_EXERCISE_ON, exerciseOn_endExercise]
  · rw [flag_kept (keptRegs_exerciseCount _) PWR_STATUS_STANDBY_READY, flag_kept (keptRegs_endExercise _) PWR_STATUS_STANDBY_READY,
      flag_kept (keptRegs_reach _ s) PWR_STATUS_STANDBY_READY]
  · rw [incF, rd_wr_same, keptRegs_endExercise _ _ _ (by decide) (by decide) (by decide),
      keptRegs_reach _ s _ _ (by decide) (by decide) (by decide)]
    rfl

/-- R52, R53: a window that ends away from the home feed switches back and counts. -/
theorem exerEndOp_spec {s : State} (hon : flag s pwrB PWR_STATUS_EXERCISE_ON = true) (hfail : s.pwr.failing = false)
    (hready : flag s pwrB PWR_STATUS_STANDBY_READY = true) (haway : activeFeed s ≠ s.pwr.exerHome) :
    flag (exerEndOp s) pwrB PWR_STATUS_EXERCISE_ON = false ∧ activeFeed (exerEndOp s) = standbyFeed s ∧
      rd (exerEndOp s) pwrB PWR_SWAP_COUNT_EXERCISES = satInc 0xFFFF (rd s pwrB PWR_SWAP_COUNT_EXERCISES) % 2 ^ 16 := by
  obtain ⟨hover, hready', hcount⟩ := windowOver_spec s
  have hop : exerEndOp s = switchOver false (windowOver s) := by
    have hback : (flag (windowOver s) pwrB PWR_STATUS_STANDBY_READY && decide (activeFeed (windowOver s) ≠ (windowOver s).pwr.exerHome))
        = true := by
      simp [hready', hready, activeFeed_windowOver, windowOver_pwr, haway]
    simp only [exerEndOp, hon, hfail, Bool.not_false, Bool.and_self, if_true]
    exact if_pos hback
  rw [hop]
  refine ⟨(flag_kept (keptRegs_switchOver _ _) _).trans hover, ?_, ?_⟩
  · rw [activeFeed_switchOver, standbyFeed, activeFeed_windowOver, standbyFeed]
  · rw [keptRegs_switchOver _ _ _ _ (by decide) (by decide) (by decide), hcount]

/-- R53: a deferral of 3,600 s is missed. -/
theorem exerRetryOp_spec {s : State} {x : Nat} (hen : flag s pwrB PWR_EXERCISE_ENABLE = true) (hdef : s.pwr.deferFrom = some x)
    (hlate : x + secs 3600 ≤ now s) :
    rd (exerRetryOp s) pwrB PWR_STATUS_EXERCISE_MISSED = 1 ∧ (exerRetryOp s).pwr.deferFrom = none ∧
      (exerRetryOp s).pwr.exerBase = x := by
  have hen' : flag (pass (secs 60) s) pwrB PWR_EXERCISE_ENABLE = true := (flag_kept (keptRegs_setAssay _ s) _).trans hen
  have hlate' : x + secs 3600 ≤ now (pass (secs 60) s) :=
    Nat.le_trans hlate ((now_setAssay _ s).symm ▸ Nat.le_max_left _ _)
  simp only [exerRetryOp, hdef]
  rw [if_neg (by rw [hen']; decide), if_pos hlate', (quiet_feedRecord _).pwr, (quiet_feedRecord _).rd (by decide) (by decide), rd_wr_same]
  exact ⟨rfl, rfl, rfl⟩

/-! ### The power-down (R50) -/

theorem powerDownOp_powered (s : State) : (powerDownOp s).pwr.powered = false := rfl

theorem downOp_powered {s : State} (h : s.pwr.failing = true) : (downOp s).pwr.powered = false := by
  rw [downOp, if_pos h, powerDownOp_powered]

/-- Settles O2: each clause is what the command's own operation does to the power block, and bringing GLB_SERVICE up to date leaves
the power block's state and registers. -/
theorem setPointsMarksAndExercise : Obligations.SetPointsMarksAndExercise := by
  intro s
  refine ⟨fun p v hf hl => ?setPoints, fun f x hlive hclean hconv hcyc hgood hst => ?mark, fun hlive => ?charged, fun c hlive => ?measured,
    fun hlive hen hhalt hdef hfail hon hready hno => ?due, fun hlive hon hfail hready haway => ?windowEnd,
    fun x hlive hen hdef hlate => ?missed, fun hpow hfail => ?down⟩
  case setPoints =>
    obtain ⟨hct, hcl⟩ := ibSetOp_pwr v.toNat s
    rw [ibSetOp_target] at hct
    rw [ibSetOp_limit] at hcl
    refine ⟨_, runWrite_accepted _ _ (by decide) hf hl, ?_⟩
    rw [rd_power_settleUp _ _ PWR_IB_SET_TARGET, rd_power_settleUp _ _ PWR_IB_SET_ILIMIT, settleUp_pwr]
    exact ⟨ibSetOp_target _ s, ibSetOp_limit _ s, hct, hcl⟩
  case mark =>
    have hop := markClearOp_eq hclean hconv hcyc hgood hst
    refine ⟨_, run_live hlive _, ?_, ?_⟩
    · rw [convFailed_settleUp, hop, convFailed_markCleared]
    · rw [now, settleUp_unit, hop]
      exact le_now_markCleared f _ s
  case charged =>
    refine ⟨_, run_live hlive _, ?_⟩
    rw [settleUp_pwr, chargedOp_none, storeCharged_pwr]
  case measured =>
    obtain ⟨hch, hcap, hlow⟩ := chargedOp_some_spec c s
    exact ⟨_, run_live hlive _, (congrArg _ (settleUp_pwr _ s)).trans hch, (rd_power_settleUp _ s _).trans hcap,
      (flag_congr (rd_power_settleUp _ s _)).trans hlow⟩
  case due =>
    obtain ⟨hstart, hact⟩ := exerDueOp_spec hen hhalt hdef hfail hon hready hno
    exact ⟨_, run_live hlive _, (flag_congr (rd_power_settleUp _ s _)).trans hstart, (activeFeed_settleUp _ s).trans hact⟩
  case windowEnd =>
    obtain ⟨hover, hact, hcount⟩ := exerEndOp_spec hon hfail hready haway
    exact ⟨_, run_live hlive _, (flag_congr (rd_power_settleUp _ s _)).trans hover, (activeFeed_settleUp _ s).trans hact,
      (rd_power_settleUp _ s _).trans hcount⟩
  case missed =>
    obtain ⟨hmiss, hnone, hbase⟩ := exerRetryOp_spec hen hdef hlate
    exact ⟨_, run_live hlive _, (rd_power_settleUp _ s _).trans hmiss, (congrArg _ (settleUp_pwr _ s)).trans hnone,
      (congrArg _ (settleUp_pwr _ s)).trans hbase⟩
  case down =>
    refine ⟨settleUp downOp s, ?_, ?_⟩
    · show runIf s.pwr.powered downOp s = .next (settleUp downOp s)
      rw [hpow, runIf_true]
    · rw [settleUp_pwr, downOp_powered hfail]

/-! ### The frame of the power block's commands (R41, R43, R45, R47, R52)

A write that R26 forbids is recorded in the fabric's history queue, at the slot that FLT_HIST_CTL.NEXT names. The frame holds while
NEXT is one of the queue's 16 slots; a state whose table lists a larger number has the record written beyond the fabric block. -/

/-- A state whose register table lists 24 for the four bits of the fabric's FLT_HIST_CTL.NEXT. -/
def overrunQueue : State := { State.reset with regs := [(fieldKey 0x3FC00 FLT_HIST_CTL_NEXT, 24)] }

/-- There the address that a forbidden write's record names lands on SLUICE_STATUS. -/
theorem sluiceActive_overrunQueue :
    rd (byPath .mi 0x20004 2 forceSwapOp overrunQueue) slB SLUICE_STATUS_ACTIVE = 0x20004 := by decide +kernel

/-- Refutes O3: the statement is about every state, also one whose FLT_HIST_CTL.NEXT is no slot of the queue. A FORCE_SWAP on the
management link, which R25 forbids, then records past the fabric block and changes SLUICE_STATUS.ACTIVE from 0. -/
theorem not_powerFrame : ¬ Obligations.PowerFrame := by
  intro h
  have hrun : exec (.forceSwap .mi) overrunQueue = .next (settleUp (byPath .mi 0x20004 2 forceSwapOp) overrunQueue) :=
    run_live (d := .mgmt) (by decide) _
  obtain ⟨-, hregs⟩ := h _ _ (.forceSwap .mi) (by simp) hrun
  have hactive := hregs slB SLUICE_STATUS_ACTIVE (by decide) (by decide) (by decide)
  rw [rd_settleUp _ _ (by decide) (by decide), sluiceActive_overrunQueue] at hactive
  exact absurd hactive (by decide)

/-- The addresses of the power block and of the fabric and stamp unit. -/
def powerRange (a _ : Nat) : Bool := decide (0x20000 ≤ a ∧ a < 0x40000)

/-- Only the power block's state and the registers of the power and fabric blocks changed, beside what records may change. -/
structure PowerOnly (s t : State) : Prop where
  parts : kept (butFor svcParts [.pwr]) s t
  regs : keptRegs powerRange s t

theorem PowerOnly.refl (s : State) : PowerOnly s s := ⟨kept_refl _ s, keptRegs_refl _ s⟩

theorem PowerOnly.trans {s t u : State} (h : PowerOnly s t) (h' : PowerOnly t u) : PowerOnly s u :=
  ⟨kept_trans h.parts h'.parts, keptRegs_trans h.regs h'.regs⟩

theorem kept_butFor {l drop : List Part} {s t : State} (h : kept l s t) : kept (butFor l drop) s t := by
  induction l with
  | nil => trivial
  | cons p l ih =>
    obtain ⟨hp, hl⟩ := h
    rw [butFor, List.filter_cons]
    split
    · exact ⟨hp, ih hl⟩
    · exact ih hl

theorem Quiet.powerOnly {s t : State} (q : Quiet s t) : PowerOnly s t := ⟨kept_butFor q.parts, q.keptRegs⟩

theorem powerOnly_wr {b : Nat} {f : Field} (v : Nat) (s : State) (hlo : f.lo < 32) (hb : powerRange (b + f.off) 0 = true) :
    PowerOnly s (wr b f v s) :=
  ⟨kept_butFor (by simp [svcParts, kept, samePart]), keptRegs_wr b f v s hlo (.inr hb)⟩

theorem powerOnly_pwr (p : PowerState) (s : State) : PowerOnly s { s with pwr := p } :=
  ⟨by simp [butFor, svcParts, kept, samePart], keptRegs_of_regs rfl⟩

theorem powerOnly_time (t : TimeState) (s : State) : PowerOnly s { s with time := t } :=
  ⟨by simp [butFor, svcParts, kept, samePart], keptRegs_of_regs rfl⟩

theorem powerOnly_when {c : Bool} {f : State → State} {s : State} (h : PowerOnly s (f s)) : PowerOnly s (when c f s) := by
  cases c
  · exact .refl s
  · exact h

theorem powerOnly_setAssay (t : Nat) (s : State) : PowerOnly s (setAssay t s) := by
  simp only [setAssay]
  refine PowerOnly.trans ?_ (powerOnly_when (powerOnly_wr _ _ (by decide) (by decide)))
  exact (powerOnly_time _ s).trans (powerOnly_wr _ _ (by decide) (by decide))

theorem powerOnly_reach (t : Nat) (s : State) : PowerOnly s (reach t s) := powerOnly_when (powerOnly_setAssay t s)

theorem powerOnly_modFeed (f : Feed) (g : FeedState → FeedState) (s : State) : PowerOnly s (modFeed f g s) := by
  cases f
  · exact powerOnly_pwr _ s
  · exact powerOnly_pwr _ s

theorem powerOnly_syncStandby (s : State) : PowerOnly s (syncStandby s) := powerOnly_wr _ s (by decide) (by decide)

theorem powerOnly_endExercise (s : State) : PowerOnly s (endExercise s) := powerOnly_wr _ s (by decide) (by decide)

theorem powerOnly_swapRegs (s : State) : PowerOnly s (swapRegs s) :=
  ((powerOnly_wr _ s (by decide) (by decide)).trans (powerOnly_wr _ _ (by decide) (by decide))).trans
    (powerOnly_wr _ _ (by decide) (by decide))

theorem powerOnly_switchOver (bus : Bool) (s : State) : PowerOnly s (switchOver bus s) := by
  unfold switchOver
  refine PowerOnly.trans ?_ (quiet_feedRecord _).powerOnly
  refine PowerOnly.trans ?_ (powerOnly_syncStandby _)
  refine PowerOnly.trans ?_ (powerOnly_modFeed _ _ _)
  refine PowerOnly.trans ?_ (powerOnly_modFeed _ _ _)
  refine PowerOnly.trans ?_ (powerOnly_pwr _ _)
  exact (powerOnly_swapRegs s).trans (quiet_pairSet _ _ _).powerOnly

/-! Each command's own operation. -/

theorem powerOnly_feedGoodOp (f : Feed) (s : State) : PowerOnly s (feedGoodOp f s) := by
  unfold feedGoodOp
  split
  · exact .refl s
  · refine PowerOnly.trans ?_ (powerOnly_syncStandby _)
    exact (powerOnly_wr _ s (by cases f <;> decide) (by cases f <;> decide)).trans (powerOnly_modFeed _ _ _)

theorem powerOnly_gapEndOp {bm : Nat} (s : State) (hlow : busLow bm = false) : PowerOnly s (gapEndOp bm s) := by
  cases hgap : s.pwr.gap with
  | true =>
    rw [gapEndOp_eq hgap hlow]
    exact powerOnly_pwr _ s
  | false =>
    rw [gapEndOp, hgap]
    exact .refl s

theorem powerOnly_forceSwapOp (s : State) : PowerOnly s (forceSwapOp s) := by
  unfold forceSwapOp
  split
  · exact (powerOnly_endExercise s).trans (powerOnly_switchOver _ _)
  · exact powerOnly_wr _ s (by decide) (by decide)

theorem powerOnly_ibSetOp (v : Nat) (s : State) : PowerOnly s (ibSetOp v s) := by
  rw [ibSetOp, plainWrite_pwrIbSet]
  refine PowerOnly.trans ?_ (powerOnly_pwr _ _)
  exact (powerOnly_wr _ s (by decide) (by decide)).trans (powerOnly_wr _ _ (by decide) (by decide))

theorem powerOnly_markClearOp (f : Feed) (s : State) : PowerOnly s (markClearOp f s) := by
  unfold markClearOp
  split
  · exact .refl s
  · split
    · refine PowerOnly.trans ?_ (powerOnly_syncStandby _)
      refine PowerOnly.trans ?_ (powerOnly_pwr _ _)
      refine PowerOnly.trans ?_ (powerOnly_modFeed _ _ _)
      exact (powerOnly_reach _ s).trans (powerOnly_wr _ _ (by cases f <;> decide) (by cases f <;> decide))
    · exact .refl s

theorem powerOnly_exerTry (s : State) : PowerOnly s (exerTry s) := by
  unfold exerTry
  split
  · exact powerOnly_pwr _ s
  · split
    · exact powerOnly_pwr _ s
    · refine PowerOnly.trans ?_ (powerOnly_switchOver _ _)
      exact (powerOnly_wr _ s (by decide) (by decide)).trans (powerOnly_pwr _ _)

theorem powerOnly_exerDueOp (s : State) : PowerOnly s (exerDueOp s) := by
  unfold exerDueOp
  split
  · exact (powerOnly_reach _ s).trans (powerOnly_exerTry _)
  · exact .refl s

theorem powerOnly_windowOver (s : State) : PowerOnly s (windowOver s) :=
  ((powerOnly_reach _ s).trans (powerOnly_endExercise _)).trans (powerOnly_wr _ _ (by decide) (by decide))

theorem powerOnly_exerEndOp (s : State) : PowerOnly s (exerEndOp s) := by
  unfold exerEndOp
  split
  · simp only
    split
    · exact (powerOnly_windowOver s).trans (powerOnly_switchOver _ _)
    · exact powerOnly_windowOver s
  · exact .refl s

theorem powerOnly_exerRetryOp (s : State) : PowerOnly s (exerRetryOp s) := by
  unfold exerRetryOp
  split
  · exact .refl s
  · simp only
    split
    · exact (powerOnly_setAssay _ s).trans (powerOnly_pwr _ _)
    · split
      · refine PowerOnly.trans ?_ (quiet_feedRecord _).powerOnly
        refine PowerOnly.trans ?_ (powerOnly_wr _ _ (by decide) (by decide))
        exact (powerOnly_setAssay _ s).trans (powerOnly_pwr _ _)
      · exact (powerOnly_setAssay _ s).trans (powerOnly_exerTry _)

/-! A forbidden write's record. -/

/-- A slot of the fabric's queue lies in the fabric's block. -/
theorem powerOnly_histField {i : Nat} (hi : i < 16) {f : Field} (v : Nat) (s : State) (hlo : f.lo < 32)
    (hf : f.off < 0x200 ∧ f.stride = 32) : PowerOnly s (wr 0x3FC00 (f.ix i) v s) := by
  refine powerOnly_wr v s hlo (decide_eq_true ?_)
  obtain ⟨hoff, hstride⟩ := hf
  simp only [Field.ix, hstride]
  omega

theorem powerOnly_histSlot {i : Nat} (hi : i < 16) (st : Stamp) (h : HistArgs) (s : State) :
    PowerOnly s (histSlot 0x3FC00 i st h s) := by
  unfold histSlot
  iterate 11 refine PowerOnly.trans ?_ (powerOnly_histField hi _ _ (by decide) (by decide))
  exact powerOnly_histField hi _ _ (by decide) (by decide)

theorem histSource_fabric (s : State) (u : Nat) : histSource s 0x3FC00 u = (srcReset, s) := by
  simp [histSource, fbSource]

/-- The bit that an entry's code sets is one of FLT_STATUS. -/
theorem histBit_spec {c : Nat} {f : Field} (h : histBit c = some f) : f.lo < 32 ∧ f.off < 0x400 := by
  unfold histBit at h
  repeat' split at h
  all_goals cases h <;> decide

theorem powerOnly_hist (h : HistArgs) (s : State) (hi : rd s 0x3FC00 FLT_HIST_CTL_NEXT < 16) : PowerOnly s (hist 0x3FC00 h s) := by
  have hwr (f : Field) (v : Nat) (u : State) (hf : f.lo < 32 ∧ f.off < 0x400) : PowerOnly u (wr 0x3FC00 f v u) :=
    powerOnly_wr v u hf.1 (decide_eq_true (by omega))
  simp only [hist, histSource_fabric]
  refine PowerOnly.trans ?_ (quiet_dayRecord _ _ _ _ _ _ _ _).powerOnly
  have hevent : PowerOnly s (wr 0x3FC00 FLT_STATUS_EVENT 1 (incF 0x3FC00 FLT_HIST_CTL_TOTAL (wr 0x3FC00 FLT_HIST_CTL_NEXT
      (rd s 0x3FC00 FLT_HIST_CTL_NEXT + 1) (histSlot 0x3FC00 (rd s 0x3FC00 FLT_HIST_CTL_NEXT) (stamp srcReset s).1 h
        (stamp srcReset s).2)))) := by
    refine PowerOnly.trans ?_ (hwr _ _ _ (by decide))
    refine PowerOnly.trans ?_ (hwr _ _ _ (by decide))
    refine PowerOnly.trans ?_ (hwr _ _ _ (by decide))
    exact (quiet_stamp srcReset s).powerOnly.trans (powerOnly_histSlot hi _ _ _)
  split
  · next f hf => exact hevent.trans (hwr f 1 _ (histBit_spec hf))
  · exact hevent

/-- A register write of the power block on any path: refused and recorded, without effect, or the register's own effect. -/
theorem powerOnly_byPath {addr : Nat} (p : Path) (v : Nat) {act : State → State} {s : State} (hok : addrOk addr = true)
    (hblock : blockRecords addr = false) (hi : rd s 0x3FC00 FLT_HIST_CTL_NEXT < 16) (hact : PowerOnly s (act s)) :
    PowerOnly s (byPath p addr v act s) := by
  simp only [byPath, hok, recordForbidden, hblock, Bool.not_true, Bool.false_eq_true, if_false]
  split
  · exact powerOnly_hist _ s hi
  · split
    · exact hact
    · exact .refl s

theorem powerOnly_run {d : Dom} {f : State → State} {s t : State} (hf : PowerOnly s (f s)) (h : run d f s = .next t) :
    PowerOnly s t := by
  cases hl : live s d with
  | true =>
    rw [run_live hl] at h
    injection h with h
    subst h
    exact hf.trans ⟨kept_butFor (settleUp_parts f s), keptRegs_mono (fun _ _ _ => rfl) (settleUp_keptRegs f s)⟩
  | false =>
    rw [run_dead hl] at h
    injection h with h
    exact h ▸ .refl s

/-- What O3 says, of every state whose FLT_HIST_CTL.NEXT is a slot of the fabric's queue. -/
theorem powerFrame_of_histNext {s t : State} {c : Instr} (hi : rd s 0x3FC00 FLT_HIST_CTL_NEXT < 16)
    (hc : (∃ f, c = .feedGood f) ∨ (∃ bm, busLow bm = false ∧ c = .switchOverGapEnd bm) ∨ (∃ p, c = .forceSwap p) ∨
      (∃ p v, c = .pwrIbSetWrite p v) ∨ (∃ f, c = .failedMarkClear f) ∨ c = .feedExerciseDue ∨ c = .exerciseWindowEnd ∨
      c = .exerciseRetry) (h : exec c s = .next t) : PowerOnly s t := by
  obtain ⟨f, rfl⟩ | ⟨bm, hlow, rfl⟩ | ⟨p, rfl⟩ | ⟨p, v, rfl⟩ | ⟨f, rfl⟩ | rfl | rfl | rfl := hc
  · exact powerOnly_run (powerOnly_feedGoodOp f s) h
  · exact powerOnly_run (powerOnly_gapEndOp s hlow) h
  · exact powerOnly_run (powerOnly_byPath p _ (by decide) (by decide) hi (powerOnly_forceSwapOp s)) h
  · exact powerOnly_run (powerOnly_byPath p _ (by decide) (by decide) hi (powerOnly_ibSetOp _ s)) h
  · exact powerOnly_run (powerOnly_markClearOp f s) h
  · exact powerOnly_run (powerOnly_exerDueOp s) h
  · exact powerOnly_run (powerOnly_exerEndOp s) h
  · exact powerOnly_run (powerOnly_exerRetryOp s) h

/-! ### An unpowered module -/

/-- Every domain needs power. -/
theorem live_of_unpowered {s : State} (h : s.pwr.powered = false) (d : Dom) : live s d = false := by
  cases d <;> simp [live, h]

theorem run_of_unpowered {s : State} (h : s.pwr.powered = false) (d : Dom) (f : State → State) : run d f s = .next s :=
  run_dead (live_of_unpowered h d) f

/-- No read acts without power. -/
theorem readLive_of_unpowered {s : State} (h : s.pwr.powered = false) (p : Path) : readLive s p = false := by
  simp [readLive, h]

theorem runIf_of_eq_false {c : Bool} (h : c = false) (f : State → State) (s : State) : runIf c f s = .next s :=
  h ▸ runIf_false f s

/-- Settles O56: a command runs in a domain, each of which needs power (R50, R362), or asks for the power itself. The five commands
that the statement excepts are those that act without power. -/
theorem unpoweredModuleDoesNothing : Obligations.UnpoweredModuleDoesNothing := by
  intro c s h hon hlow hrise hseal htake
  cases c with
  | powerOn f flash tile carried bankOk => exact absurd rfl (hon f flash tile carried bankOk)
  | resetNLow => exact absurd rfl hlow
  | resetNRise => exact absurd rfl hrise
  | sealBreach => exact absurd rfl hseal
  | stampTakeLoRead p => exact absurd rfl (htake p)
  | powerDown => exact runIf_of_eq_false h _ s
  | latchingLowHalfRead p addr => exact runIf_of_eq_false h _ s
  | asDoneRead p a => exact runIf_of_eq_false (readLive_of_unpowered h p) _ s
  | getLogPage c lid lsp rae offset len =>
    show execGetLogPage c lid lsp rae offset len s = .next s
    unfold execGetLogPage
    split
    · exact run_of_unpowered h _ _
    · exact run_of_unpowered h _ _
  | _ => exact run_of_unpowered h _ _

end Sys2Proof.Machine

/-!
PROOFS of the family 03_fabric_and_stamps.md: the pace index, the governor and FAB_GOV_CTL (R56-R60), falling behind (R61), the stamp
unit's time (R66), and the order of stamps (R68).
-/
namespace Sys2Proof.Machine
open Reg

/-! ### Frames of one field, and of a history queue -/

/-- One field of the registers at `b`. -/
def fieldAt (b : Nat) (f : Field) (a lo : Nat) : Bool := decide (a = b + f.off ∧ lo = f.lo)

theorem keptRegs_fieldAt (b : Nat) (f : Field) (v : Nat) (s : State) (hlo : f.lo < 32 := by decide) :
    keptRegs (fieldAt b f) s (wr b f v s) :=
  keptRegs_wr b f v s hlo (.inr (decide_eq_true ⟨rfl, rfl⟩))

theorem rd_incF (b : Nat) (f : Field) (s : State) :
    rd (incF b f s) b f = satInc (2 ^ f.len - 1) (rd s b f) % 2 ^ f.len := rd_wr_same _ _ _ _

theorem keptRegs_settleUp {own : Nat → Nat → Bool} {g : State → State} {s : State} (h : keptRegs own s (g s)) :
    keptRegs own s (settleUp g s) :=
  keptRegs_trans h (keptRegs_mono (fun _ _ _ => rfl) (settleUp_keptRegs g s))

theorem kept_settleUp {drop : List Part} {g : State → State} {s : State} (h : kept (butFor svcParts drop) s (g s)) :
    kept (butFor svcParts drop) s (settleUp g s) :=
  kept_trans h (kept_butFor (settleUp_parts g s))

theorem rd_fabric_kept {own : Nat → Nat → Bool} {s t : State} (h : keptRegs own s t) (f : Field)
    (hf : f.lo < 32 ∧ svcReg (fabB + f.off) f.lo = false ∧ own (fabB + f.off) f.lo = false := by decide) :
    rd t fabB f = rd s fabB f := by
  obtain ⟨hlo, hsvc, hown⟩ := hf
  exact h fabB f hlo hsvc hown

/-- A field of the fabric block reads after the command as after its own effect. -/
theorem rd_fabric_settleUp (g : State → State) (s : State) (f : Field)
    (hf : f.lo < 32 ∧ svcReg (fabB + f.off) f.lo = false ∧ noReg (fabB + f.off) f.lo = false := by decide) :
    rd (settleUp g s) fabB f = rd (g s) fabB f := rd_fabric_kept (settleUp_keptRegs g s) f hf

/-- The addresses from `b` on. -/
def fromAddr (b a _ : Nat) : Bool := decide (b ≤ a)

theorem keptRegs_fromAddr (b : Nat) (f : Field) (v : Nat) (s : State) (hlo : f.lo < 32 := by decide) :
    keptRegs (fromAddr b) s (wr b f v s) :=
  keptRegs_wr b f v s hlo (.inr (decide_eq_true (Nat.le_add_right b f.off)))

theorem keptRegs_histSlot (fb i : Nat) (st : Stamp) (h : HistArgs) (s : State) : keptRegs (fromAddr fb) s (histSlot fb i st h s) := by
  have hfield (f : Field) (v : Nat) (u : State) (hlo : f.lo < 32 := by decide) : keptRegs (fromAddr fb) u (wr fb (f.ix i) v u) :=
    keptRegs_fromAddr fb (f.ix i) v u hlo
  simp only [histSlot]
  iterate 11 refine keptRegs_trans ?_ (hfield _ _ _)
  exact hfield _ _ s

theorem histSource_regs (s : State) (fb u : Nat) : (histSource s fb u).2.regs = s.regs := by
  unfold histSource
  split
  · split <;> rfl
  · split <;> rfl

/-- A record writes no register below its fault register set, whatever slot NEXT names. -/
theorem keptRegs_hist (fb : Nat) (h : HistArgs) (s : State) : keptRegs (fromAddr fb) s (hist fb h s) := by
  have hstamp : keptRegs (fromAddr fb) s (stamp (histSource s fb h.unit).1 (histSource s fb h.unit).2).2 :=
    keptRegs_trans (keptRegs_of_regs (histSource_regs s fb h.unit)) (quiet_stamp _ _).keptRegs
  have hentry (i : Nat) (st : Stamp) (u : State) : keptRegs (fromAddr fb) u (wr fb FLT_STATUS_EVENT 1 (incF fb FLT_HIST_CTL_TOTAL
      (wr fb FLT_HIST_CTL_NEXT (i + 1) (histSlot fb i st h u)))) := by
    refine keptRegs_trans ?_ (keptRegs_fromAddr fb _ _ _)
    refine keptRegs_trans ?_ (keptRegs_fromAddr fb _ _ _)
    exact keptRegs_trans (keptRegs_histSlot fb i st h u) (keptRegs_fromAddr fb _ _ _)
  simp only [hist]
  refine keptRegs_trans ?_ (quiet_dayRecord _ _ _ _ _ _ _ _).keptRegs
  split
  · next f hf => exact keptRegs_trans (keptRegs_trans hstamp (hentry _ _ _)) (keptRegs_fromAddr fb f 1 _ (histBit_spec hf).1)
  · exact keptRegs_trans hstamp (hentry _ _ _)

/-! ### The pace index (R56, R60) -/

/-- A new reading, before its warning. -/
def paceShown (p : Nat) (s : State) : State :=
  let s := setF fabB FAB_PACE_BELOW_FLOOR (decide (p < 256)) (wr fabB FAB_PACE_INDEX p s)
  { s with fab := { s.fab with seen := true, low := match s.fab.low with | some q => some (min q p) | none => some p } }

/-- The warning of a pace index below 256, with its mark. -/
def paceWarned (p : Nat) (s : State) : State := earlyWarn 2 5 0 p (wr fabB FAB_PACE_PACE_LOW 1 s)

/-- The index that a list of ring readings gives: the slowest ring's, at most 4,095. -/
theorem paceOp_cons (r : Nat) (rs : List Nat) (s : State) :
    paceOp (r :: rs) s =
      when (decide (min 4095 (rs.foldl min r) < 256) && !(s.fab.seen && flag s fabB FAB_PACE_BELOW_FLOOR))
        (paceWarned (min 4095 (rs.foldl min r))) (paceShown (min 4095 (rs.foldl min r)) s) := rfl

theorem keptRegs_paceWarned (p : Nat) (s : State) : keptRegs (fieldAt fabB FAB_PACE_PACE_LOW) s (paceWarned p s) :=
  keptRegs_trans (keptRegs_fieldAt _ _ _ s) (quiet_earlyWarn _ _ _ _ _).keptRegs

theorem paceLow_paceWarned (p : Nat) (s : State) : rd (paceWarned p s) fabB FAB_PACE_PACE_LOW = 1 := by
  rw [paceWarned, rd_earlyWarn _ _ _ _ _ (by decide) (by decide), rd_wr_same]
  rfl

theorem index_paceShown {p : Nat} (hp : p < 4096) (s : State) : rd (paceShown p s) fabB FAB_PACE_INDEX = p := by
  show rd (setF fabB FAB_PACE_BELOW_FLOOR _ (wr fabB FAB_PACE_INDEX p s)) fabB FAB_PACE_INDEX = p
  rw [rd_setF_ne _ _ (by decide), rd_wr_same]
  exact Nat.mod_eq_of_lt hp

theorem belowFloor_paceShown (p : Nat) (s : State) : flag (paceShown p s) fabB FAB_PACE_BELOW_FLOOR = decide (p < 256) :=
  flag_setF_same _ _ _ (wr fabB FAB_PACE_INDEX p s) rfl

/-- R56, R60: what a reading of the rings leaves in FAB_PACE. -/
theorem paceOp_spec (r : Nat) (rs : List Nat) (s : State) :
    rd (paceOp (r :: rs) s) fabB FAB_PACE_INDEX = min 4095 (rs.foldl min r) ∧
      flag (paceOp (r :: rs) s) fabB FAB_PACE_BELOW_FLOOR = decide (min 4095 (rs.foldl min r) < 256) ∧
      ((min 4095 (rs.foldl min r) < 256 ∧ (s.fab.seen = false ∨ flag s fabB FAB_PACE_BELOW_FLOOR = false)) →
        rd (paceOp (r :: rs) s) fabB FAB_PACE_PACE_LOW = 1) := by
  have hp : min 4095 (rs.foldl min r) < 4096 := by omega
  rw [paceOp_cons]
  generalize min 4095 (rs.foldl min r) = p at hp ⊢
  have hkept : keptRegs (fieldAt fabB FAB_PACE_PACE_LOW) (paceShown p s)
      (when (decide (p < 256) && !(s.fab.seen && flag s fabB FAB_PACE_BELOW_FLOOR)) (paceWarned p) (paceShown p s)) :=
    keptRegs_when (keptRegs_paceWarned p _)
  refine ⟨?_, ?_, fun ⟨hlow, hfell⟩ => ?_⟩
  · rw [rd_fabric_kept hkept FAB_PACE_INDEX, index_paceShown hp]
  · rw [flag_congr (rd_fabric_kept hkept FAB_PACE_BELOW_FLOOR), belowFloor_paceShown]
  · have hnot : (s.fab.seen && flag s fabB FAB_PACE_BELOW_FLOOR) = false := Bool.and_eq_false_iff.2 hfell
    rw [hnot, decide_eq_true hlow]
    exact paceLow_paceWarned p _

/-! ### The governor (R58, R59) -/

/-- R58's run of evaluations at TARGET + 24 or above, this one included; 100 of them are enough for a step down. -/
def nextHighRun (s : State) : Nat :=
  if rd s fabB FAB_GOV_CTL_TARGET + 24 ≤ govPace s then min 100 (s.fab.highRun + 1) else 0

/-- The core voltage measured. -/
def measured (mv : Nat) (s : State) : State := wr fabB FAB_VCORE_MEAS_MV mv s

/-- An evaluation's tally: the lowest pace index is taken, and the run counted. -/
def tallied (s : State) : State := { s with fab := { s.fab with low := none, highRun := nextHighRun s } }

theorem rd_measured (mv : Nat) (s : State) {f : Field} (hf : fieldKey fabB f ≠ fieldKey fabB FAB_VCORE_MEAS_MV) :
    rd (measured mv s) fabB f = rd s fabB f := rd_wr_ne mv s hf

theorem govPace_measured (mv : Nat) (s : State) : govPace (measured mv s) = govPace s := by
  rw [govPace, govPace, rd_measured mv s (by decide)]
  rfl

theorem nextHighRun_measured (mv : Nat) (s : State) : nextHighRun (measured mv s) = nextHighRun s := by
  rw [nextHighRun, nextHighRun, rd_measured mv s (by decide), govPace_measured]
  rfl

/-- The policy reads no field that the measurement writes. -/
theorem governorOp_eq (mv : Nat) (s : State) :
    governorOp mv s =
      if flag s fabB FAB_GOV_CTL_ENABLE then
        if govPace s < rd s fabB FAB_GOV_CTL_TARGET ∧ rd s fabB FAB_VCORE_CODE < rd s fabB FAB_GOV_CTL_VMAX then
          wr fabB FAB_VCORE_CODE (rd s fabB FAB_VCORE_CODE + 1) (tallied (measured mv s))
        else if 100 ≤ nextHighRun s ∧ rd s fabB FAB_GOV_CTL_VMIN < rd s fabB FAB_VCORE_CODE then
          wr fabB FAB_VCORE_CODE (rd s fabB FAB_VCORE_CODE - 1) (tallied (measured mv s))
        else tallied (measured mv s)
      else wr fabB FAB_VCORE_CODE (rd s fabB FAB_VCORE_MANUAL_CODE)
        { measured mv s with fab := { s.fab with low := none } } := by
  have hrd (f : Field) (hf : fieldKey fabB f ≠ fieldKey fabB FAB_VCORE_MEAS_MV) := rd_measured mv s hf
  rw [flag, ← hrd FAB_GOV_CTL_ENABLE (by decide), ← hrd FAB_GOV_CTL_TARGET (by decide), ← hrd FAB_VCORE_CODE (by decide),
    ← hrd FAB_GOV_CTL_VMAX (by decide), ← hrd FAB_GOV_CTL_VMIN (by decide), ← hrd FAB_VCORE_MANUAL_CODE (by decide),
    ← govPace_measured mv s, ← nextHighRun_measured mv s]
  rfl

/-- R58: below TARGET the governor steps up. -/
theorem governorOp_up {s : State} (mv : Nat) (hen : flag s fabB FAB_GOV_CTL_ENABLE = true)
    (hpace : govPace s < rd s fabB FAB_GOV_CTL_TARGET) (hmax : rd s fabB FAB_VCORE_CODE < rd s fabB FAB_GOV_CTL_VMAX) :
    rd (governorOp mv s) fabB FAB_VCORE_CODE = (rd s fabB FAB_VCORE_CODE + 1) % 32 ∧
      rd (governorOp mv s) fabB FAB_VCORE_MEAS_MV = mv % 65536 := by
  rw [governorOp_eq, if_pos hen, if_pos ⟨hpace, hmax⟩]
  have hmeas : rd (tallied (measured mv s)) fabB FAB_VCORE_MEAS_MV = mv % 65536 := rd_wr_same fabB FAB_VCORE_MEAS_MV mv s
  exact ⟨rd_wr_same _ _ _ _, (rd_wr_ne _ _ (by decide)).trans hmeas⟩

/-- R58: the 100th evaluation in a row at TARGET + 24 or above steps down. -/
theorem governorOp_down {s : State} (mv : Nat) (hen : flag s fabB FAB_GOV_CTL_ENABLE = true)
    (hpace : rd s fabB FAB_GOV_CTL_TARGET + 24 ≤ govPace s) (hrun : 99 ≤ s.fab.highRun)
    (hmin : rd s fabB FAB_GOV_CTL_VMIN < rd s fabB FAB_VCORE_CODE) :
    rd (governorOp mv s) fabB FAB_VCORE_CODE = (rd s fabB FAB_VCORE_CODE - 1) % 32 := by
  have hnext : 100 ≤ nextHighRun s := by
    rw [nextHighRun, if_pos hpace]
    omega
  rw [governorOp_eq, if_pos hen, if_neg (by omega), if_pos ⟨hnext, hmin⟩]
  exact rd_wr_same _ _ _ _

/-- R59: the core runs at MANUAL_CODE while ENABLE is clear. -/
theorem governorOp_manual {s : State} (mv : Nat) (hen : flag s fabB FAB_GOV_CTL_ENABLE = false) :
    rd (governorOp mv s) fabB FAB_VCORE_CODE = rd s fabB FAB_VCORE_MANUAL_CODE % 32 := by
  rw [governorOp_eq, hen, if_neg (by decide)]
  exact rd_wr_same _ _ _ _

/-! ### FAB_GOV_CTL (R60) -/

theorem clampTo_le {mn mx : Nat} (h : mn ≤ mx) (v : Nat) : clampTo mn mx v ≤ mx := by
  unfold clampTo
  split
  · exact h
  · split <;> omega

theorem findReg_fabGovCtl :
    findReg 0x30004 = some (fabB, ⟨0x4, 1, 0, [FAB_GOV_CTL_TARGET, FAB_GOV_CTL_VMIN, FAB_GOV_CTL_VMAX, FAB_GOV_CTL_ENABLE]⟩) := by
  decide

/-- A write of FAB_GOV_CTL sets its four fields at the nearer limit. -/
theorem plainWrite_fabGovCtl (v : Nat) (s : State) :
    plainWrite 0x30004 v s =
      wr fabB FAB_GOV_CTL_ENABLE (min 1 (v / 2 ^ 31 % 2)) (wr fabB FAB_GOV_CTL_VMAX (min 30 (v / 2 ^ 24 % 32))
        (wr fabB FAB_GOV_CTL_VMIN (min 30 (v / 2 ^ 16 % 32)) (wr fabB FAB_GOV_CTL_TARGET (clampTo 256 512 (v % 4096)) s))) := by
  rw [plainWrite, findReg_fabGovCtl, ← clampTo_zero, ← clampTo_zero, ← clampTo_zero]
  simp [writeFields, writeField, FAB_GOV_CTL_TARGET, FAB_GOV_CTL_VMIN, FAB_GOV_CTL_VMAX, FAB_GOV_CTL_ENABLE, bitsOf]

theorem keptRegs_syncManual (s : State) : keptRegs (fieldAt fabB FAB_VCORE_CODE) s (syncManual s) := by
  unfold syncManual
  split
  · exact keptRegs_refl _ s
  · exact keptRegs_fieldAt _ _ _ s

/-- VMIN as it would be stored is above VMAX as it would be stored (notes/assumptions/20.md). -/
def limitsCrossed (v : Nat) : Prop := min 30 (v / 2 ^ 24 % 32) < min 30 (v / 2 ^ 16 % 32)

theorem govCtlOp_stored (p : Path) {v : Nat} (h : ¬ limitsCrossed v) (s : State) :
    rd (govCtlOp p v s) fabB FAB_GOV_CTL_TARGET = clampTo 256 512 (v % 4096) ∧
      rd (govCtlOp p v s) fabB FAB_GOV_CTL_VMIN = min 30 (v / 2 ^ 16 % 32) ∧
      rd (govCtlOp p v s) fabB FAB_GOV_CTL_VMAX = min 30 (v / 2 ^ 24 % 32) := by
  have hop : govCtlOp p v s = syncManual (plainWrite 0x30004 v s) := if_neg h
  have hsync := keptRegs_syncManual (plainWrite 0x30004 v s)
  have hfit (n : Nat) : min 30 n < 2 ^ 5 := by omega
  rw [hop]
  refine ⟨?_, ?_, ?_⟩
  · rw [rd_fabric_kept hsync FAB_GOV_CTL_TARGET, plainWrite_fabGovCtl, rd_wr_ne _ _ (by decide), rd_wr_ne _ _ (by decide),
      rd_wr_ne _ _ (by decide), rd_wr_same]
    exact Nat.mod_eq_of_lt (Nat.lt_of_le_of_lt (clampTo_le (by decide) _) (by decide))
  · rw [rd_fabric_kept hsync FAB_GOV_CTL_VMIN, plainWrite_fabGovCtl, rd_wr_ne _ _ (by decide), rd_wr_ne _ _ (by decide),
      rd_wr_same]
    exact Nat.mod_eq_of_lt (hfit _)
  · rw [rd_fabric_kept hsync FAB_GOV_CTL_VMAX, plainWrite_fabGovCtl, rd_wr_ne _ _ (by decide), rd_wr_same]
    exact Nat.mod_eq_of_lt (hfit _)

/-- A write whose limits cross is recorded and changes no register below the fabric's fault registers. -/
theorem keptRegs_govCtlOp_crossed (p : Path) {v : Nat} (h : limitsCrossed v) (s : State) :
    keptRegs (fromAddr 0x3FC00) s (govCtlOp p v s) := by
  have hop : govCtlOp p v s = recordIgnored 0x3FC00 0x30004 p s := if_pos h
  rw [hop]
  exact keptRegs_hist _ _ s

/-- Settles O4: each clause is what the command's own operation does to the fabric's registers. FAB_GOV_CTL's limits are compared as
stored, which is the design choice of notes/assumptions/20.md. -/
theorem paceAndGovernor : Obligations.PaceAndGovernor := by
  intro s
  refine ⟨fun r rs hlive => ?pace, fun mv hlive hen hpace hmax => ?up, fun mv hlive hen hpace hrun hmin => ?down,
    fun mv hlive hen => ?manual, fun p v hf hl hle => ?stored, fun p v hf hl hlt => ?crossed⟩
  case pace =>
    obtain ⟨hindex, hfloor, hlow⟩ := paceOp_spec r rs s
    exact ⟨_, run_live hlive _, (rd_fabric_settleUp _ s _).trans hindex, (flag_congr (rd_fabric_settleUp _ s _)).trans hfloor,
      fun h => (rd_fabric_settleUp _ s _).trans (hlow h)⟩
  case up =>
    obtain ⟨hcode, hmeas⟩ := governorOp_up mv hen hpace hmax
    exact ⟨_, run_live hlive _, (rd_fabric_settleUp _ s _).trans hcode, (rd_fabric_settleUp _ s _).trans hmeas⟩
  case down => exact ⟨_, run_live hlive _, (rd_fabric_settleUp _ s _).trans (governorOp_down mv hen hpace hrun hmin)⟩
  case manual => exact ⟨_, run_live hlive _, (rd_fabric_settleUp _ s _).trans (governorOp_manual mv hen)⟩
  case stored =>
    obtain ⟨htarget, hvmin, hvmax⟩ := govCtlOp_stored p (Nat.not_lt.2 hle) s
    exact ⟨_, runWrite_accepted _ _ (by decide) hf hl, (rd_fabric_settleUp _ s _).trans htarget,
      (rd_fabric_settleUp _ s _).trans hvmin, (rd_fabric_settleUp _ s _).trans hvmax⟩
  case crossed =>
    have hkept := keptRegs_settleUp (keptRegs_govCtlOp_crossed p hlt s)
    refine ⟨_, runWrite_accepted _ _ (by decide) hf hl, fun f hmem => ?_⟩
    refine rd_fabric_kept hkept f ?_
    revert f
    decide

/-! ### Falling behind (R61) -/

theorem actOf_modAct_same (a : Nat) (f : Act → Act) (s : State) : actOf (modAct a f s) a = f (actOf s a) :=
  tget_tmod_same _ _ _ _

theorem actOf_modAct_ne {a b : Nat} (f : Act → Act) (s : State) (h : b ≠ a) : actOf (modAct a f s) b = actOf s b :=
  tget_tmod_ne _ _ _ _ h

theorem actOf_settleUp (g : State → State) (s : State) (a : Nat) : actOf (settleUp g s) a = actOf (g s) a :=
  congrArg (fun t => tget act0 t a) (kept_mem (p := .acts) (settleUp_parts g s) (by decide))

/-- What a cut does to one actuator, after its counter field `f` of FAB_CUTS. -/
def cutOp (f : Field) (a : Nat) (g : Act → Act) (s : State) : State := modAct a g (incF fabB f s)

/-- A cut reaches its counter and its actuator, and nothing else. -/
theorem cutOp_frame (f : Field) (a : Nat) (g : Act → Act) (s : State) (hlo : f.lo < 32 := by decide) :
    actOf (cutOp f a g s) a = g (actOf s a) ∧ (∀ b, b ≠ a → actOf (cutOp f a g s) b = actOf s b) ∧
      kept (butFor svcParts [.acts]) s (cutOp f a g s) ∧ keptRegs (fieldAt fabB f) s (cutOp f a g s) := by
  refine ⟨actOf_modAct_same _ _ _, fun b hb => actOf_modAct_ne _ _ hb, ?_, ?_⟩
  · simp [cutOp, butFor, svcParts, kept, samePart]
  · exact keptRegs_trans (keptRegs_fieldAt fabB f _ s hlo) (keptRegs_of_regs rfl)

/-- R61: the run stops at a sector boundary. -/
def readCutAct (x : Act) : Act := { x with run := match x.run with | some r => some { r with paused := true } | none => none }

/-- R61: the write output ends, and the run is marked as cut. -/
def writeCutAct (x : Act) : Act :=
  { x with writing := false, run := match x.run with | some r => some { r with wasCut := true } | none => none }

theorem readCutAct_run (x : Act) : (readCutAct x).run = x.run.map (fun r => { r with paused := true }) := by
  unfold readCutAct
  cases x.run <;> rfl

theorem writeCutAct_run (x : Act) : (writeCutAct x).run = x.run.map (fun r => { r with wasCut := true }) := by
  unfold writeCutAct
  cases x.run <;> rfl

theorem readCutOp_eq (a : Nat) (s : State) : readCutOp a s = cutOp FAB_CUTS_READ_CUTS a readCutAct s := rfl

theorem writeCutOp_eq (a : Nat) (s : State) : writeCutOp a s = cutOp FAB_CUTS_WRITE_CUTS a writeCutAct s := rfl

theorem mem_shrunk_shrinkOp (h : Nat) (s : State) : h ∈ (shrinkOp h s).fab.shrunk := by
  simp only [shrinkOp]
  split
  · next hin => exact List.contains_iff_mem.1 hin
  · exact List.mem_cons_self

theorem shrinkOp_kept (h : Nat) (s : State) : kept (butFor svcParts [.fab]) s (shrinkOp h s) := by
  simp [shrinkOp, butFor, svcParts, kept, samePart]

/-- RX_DROPS is no register of the service state. -/
theorem svcReg_rxDrops {h : Nat} (hh : h < 4) : svcReg (hostBase h + HP_ERRS_RX_DROPS.off) HP_ERRS_RX_DROPS.lo = false := by
  have hbase : hostBase h = 0x1A0000 + h * 0x4000 := rfl
  have hoff : HP_ERRS_RX_DROPS.off = 8 := rfl
  have hlo : HP_ERRS_RX_DROPS.lo = 0 := rfl
  simp only [svcReg, Bool.or_eq_false_iff, Bool.and_eq_false_iff, decide_eq_false_iff_not]
  omega

/-- Settles O5: each operation's own counter and mark, with its frame, which bringing GLB_SERVICE up to date keeps. -/
theorem fallingBehind : Obligations.FallingBehind := by
  intro s hlive
  refine ⟨fun a => ?read, fun a => ?write, fun h => ?shrink, fun h => ?drop⟩
  case read =>
    obtain ⟨hact, hother, hparts, hregs⟩ := cutOp_frame FAB_CUTS_READ_CUTS a.val readCutAct s
    refine ⟨_, run_live hlive _, ?_, ?_, fun b hb => (actOf_settleUp _ s b).trans (hother b hb), kept_settleUp hparts,
      keptRegs_settleUp hregs⟩
    · exact (rd_fabric_settleUp _ s _).trans (rd_incF fabB FAB_CUTS_READ_CUTS s)
    · rw [actOf_settleUp, readCutOp_eq, hact, readCutAct_run]
  case write =>
    obtain ⟨hact, hother, hparts, hregs⟩ := cutOp_frame FAB_CUTS_WRITE_CUTS a.val writeCutAct s
    refine ⟨_, run_live hlive _, ?_, ?_, ?_, fun b hb => (actOf_settleUp _ s b).trans (hother b hb), kept_settleUp hparts,
      keptRegs_settleUp hregs⟩
    · exact (rd_fabric_settleUp _ s _).trans (rd_incF fabB FAB_CUTS_WRITE_CUTS s)
    · rw [actOf_settleUp, writeCutOp_eq, hact]
      rfl
    · rw [actOf_settleUp, writeCutOp_eq, hact, writeCutAct_run]
  case shrink =>
    refine ⟨_, run_live hlive _, ?_, kept_settleUp (shrinkOp_kept _ s), keptRegs_settleUp (keptRegs_of_regs rfl)⟩
    have hfab : (settleUp (shrinkOp h.val) s).fab = (shrinkOp h.val s).fab := kept_mem (p := .fab) (settleUp_parts _ s) (by decide)
    rw [hfab]
    exact mem_shrunk_shrinkOp _ s
  case drop =>
    refine ⟨_, run_live hlive _, ?_, kept_trans ?_ (settleUp_parts _ s), keptRegs_settleUp (keptRegs_fieldAt _ HP_ERRS_RX_DROPS _ s)⟩
    · exact (rd_settleUp _ s (by decide) (svcReg_rxDrops h.isLt)).trans (rd_incF _ HP_ERRS_RX_DROPS s)
    · simp [rxDropOp, svcParts, kept, samePart]

/-! ### The stamp unit's time (R66) -/

theorem setAssay_time (x : Nat) (s : State) : (setAssay x s).time = { s.time with assay := x, unit := max s.time.unit x } := by
  simp [setAssay, when, apply_ite State.time]

/-- A hold begins when the Assay time falls behind the unit's, and lasts until the Assay time has passed it. -/
theorem holding_setAssay (x : Nat) (s : State) :
    flag (setAssay x s) fabB STAMP_STATUS_HOLDING =
      if flag s fabB STAMP_STATUS_HOLDING then decide (x ≤ s.time.unit) else decide (x < s.time.unit) := by
  have hheld (c : Bool) (u : State) :
      flag (when c (setF fabB STAMP_STATUS_HELD true) u) fabB STAMP_STATUS_HOLDING = flag u fabB STAMP_STATUS_HOLDING :=
    flag_congr (rd_fabric_kept (keptRegs_when (keptRegs_fieldAt fabB STAMP_STATUS_HELD _ u)) STAMP_STATUS_HOLDING)
  rw [setAssay, hheld, flag_setF_same _ _ _ _ rfl]

theorem held_setAssay {x : Nat} {s : State} (hx : x < s.time.unit) (hnot : flag s fabB STAMP_STATUS_HOLDING = false) :
    flag (setAssay x s) fabB STAMP_STATUS_HELD = true := by
  simp only [setAssay, hnot, Bool.false_eq_true, if_false, decide_eq_true hx, Bool.not_false, Bool.and_self]
  exact flag_setF_same _ _ _ _ rfl

/-- Settles O8: the unit's time is the later of the two, and HOLDING is R66's condition on the times and on whether a hold lasts. -/
theorem unitTimeHolds : Obligations.UnitTimeHolds := by
  intro s x
  rw [setAssay_time, holding_setAssay]
  refine ⟨rfl, rfl, fun hx => ?_, held_setAssay, fun hx => ?_, fun hon hx => ?_⟩
  · split
    · exact decide_eq_true (Nat.le_of_lt hx)
    · exact decide_eq_true hx
  · split
    · exact decide_eq_false (Nat.not_le.2 hx)
    · exact decide_eq_false (Nat.lt_asymm hx)
  · rw [if_pos hon]
    exact decide_eq_true (Nat.le_of_eq hx)

/-! ### The order of stamps (R68) -/

theorem stampLt_of_time_ne {a b : Stamp} (h : a.time ≠ b.time) : stampLt a b = true ↔ a.time < b.time := by
  simp [stampLt, h]

theorem stampLt_of_src_ne {a b : Stamp} (ht : a.time = b.time) (h : a.src ≠ b.src) : stampLt a b = true ↔ a.src < b.src := by
  simp [stampLt, ht, h]

/-- R68's third rule, in integers as the spec writes it. -/
theorem stampLt_of_seq {a b : Stamp} (ha : a.seq < 65536) (ht : a.time = b.time) (hs : a.src = b.src) :
    stampLt a b = true ↔ 1 ≤ ((b.seq : Int) - a.seq) % 65536 ∧ ((b.seq : Int) - a.seq) % 65536 ≤ 32767 := by
  have hrule : stampLt a b = decide (1 ≤ (b.seq + 65536 - a.seq) % 65536 ∧ (b.seq + 65536 - a.seq) % 65536 ≤ 32767) := by
    simp [stampLt, ht, hs]
  rw [hrule, decide_eq_true_eq]
  omega

theorem seq_ne_of_ne {a b : Stamp} (h : a ≠ b) (ht : a.time = b.time) (hs : a.src = b.src) : a.seq ≠ b.seq := by
  intro hq
  cases a
  cases b
  cases ht
  cases hs
  cases hq
  exact h rfl

/-- Settles O59: the three rules in turn; two different sequences at most 15 apart lie within 32,767 on exactly one side. -/
theorem stampsAreOrdered : Obligations.StampsAreOrdered := by
  intro a b ha hb
  refine ⟨stampLt_of_time_ne, stampLt_of_src_ne, stampLt_of_seq ha, fun hne hnear => ?_⟩
  rw [← Bool.not_eq_true]
  by_cases ht : a.time = b.time
  · by_cases hs : a.src = b.src
    · have hseq := seq_ne_of_ne hne ht hs
      rw [stampLt_of_seq ha ht hs, stampLt_of_seq hb ht.symm hs.symm]
      omega
    · rw [stampLt_of_src_ne ht hs, stampLt_of_src_ne ht.symm (Ne.symm hs)]
      omega
  · rw [stampLt_of_time_ne ht, stampLt_of_time_ne (Ne.symm ht)]
    omega

end Sys2Proof.Machine

/-!
PROOFS of the family 05_read_channel.md: sectors sampled, the lanes of the decode pool, the ends of their jobs (R99, R105-R107, R111,
R114), DP_LANE_EN and DP_CTL (R107, R112).
-/
namespace Sys2Proof.Machine
open Reg

/-! ### What the decode pool's statements look at

Sampling a sector and ending a job reach the ledger, the Pool, the movers and the sequencers too; `decodeView` is what those leave. -/

/-- The waiting first-pass jobs, the lanes, the fetches' state, and per actuator the result that CH_LAST_SECTOR shows and FLIP_LIMIT. -/
structure DecodeView where
  first : List Job
  lanes : Table Job
  str : StripeState
  result : Nat → Nat
  flipLimit : Nat → Nat

def decodeView (s : State) : DecodeView where
  first := s.dec.first
  lanes := s.dec.lanes
  str := s.str
  result a := if a < 48 then rd s (actBase a) CH_LAST_SECTOR_RESULT else 0
  flipLimit a := if a < 48 then rd s (actBase a) CH_RAW_CFG_FLIP_LIMIT else 0

/-- A result shown by an actuator. -/
def DecodeView.showing (v : DecodeView) (a code : Nat) : DecodeView :=
  { v with result := fun b => if b = a then code % 16 else v.result b }

theorem result_decodeView (s : State) {a : Nat} (ha : a < 48) : (decodeView s).result a = rd s (actBase a) CH_LAST_SECTOR_RESULT :=
  if_pos ha

theorem flipLimit_decodeView (s : State) {a : Nat} (ha : a < 48) :
    (decodeView s).flipLimit a = rd s (actBase a) CH_RAW_CFG_FLIP_LIMIT := if_pos ha

theorem result_showing (v : DecodeView) (a code : Nat) : (v.showing a code).result a = code % 16 := if_pos rfl

theorem fetchOf_congr {s t : State} (h : t.str = s.str) (tag : Nat) : fetchOf t tag = fetchOf s tag := by
  rw [fetchOf, fetchOf, h]

theorem decodeView_of_eq {s t : State} (hdec : t.dec = s.dec) (hstr : t.str = s.str)
    (hres : ∀ a, a < 48 → rd t (actBase a) CH_LAST_SECTOR_RESULT = rd s (actBase a) CH_LAST_SECTOR_RESULT)
    (hlim : ∀ a, a < 48 → rd t (actBase a) CH_RAW_CFG_FLIP_LIMIT = rd s (actBase a) CH_RAW_CFG_FLIP_LIMIT) :
    decodeView t = decodeView s := by
  simp only [decodeView, hdec, hstr, DecodeView.mk.injEq, true_and]
  exact ⟨funext fun a => ite_congr rfl (hres a) (fun _ => rfl), funext fun a => ite_congr rfl (hlim a) (fun _ => rfl)⟩

theorem decodeView_congr {s t : State} (hdec : t.dec = s.dec) (hstr : t.str = s.str) (hregs : t.regs = s.regs) :
    decodeView t = decodeView s := decodeView_of_eq hdec hstr (fun _ _ => rd_congr hregs _ _) (fun _ _ => rd_congr hregs _ _)

theorem decodeView_of_kept {s t : State} (parts : kept svcParts s t) (regs : keptRegs noReg s t) : decodeView t = decodeView s := by
  have hact {a : Nat} (ha : a < 48) {off : Nat} (hoff : off < 0x1000) (lo : Nat) : svcReg (actBase a + off) lo = false := by
    have hbase : actBase a = 0x100000 + a * 0x1000 := rfl
    simp only [svcReg, Bool.or_eq_false_iff, Bool.and_eq_false_iff, decide_eq_false_iff_not]
    omega
  exact decodeView_of_eq (kept_mem (p := .dec) parts (by decide)) (kept_mem (p := .str) parts (by decide))
    (fun a ha => regs _ _ (by decide) (hact ha (by decide) _) rfl) (fun a ha => regs _ _ (by decide) (hact ha (by decide) _) rfl)

theorem decodeView_settleUp (f : State → State) (s : State) : decodeView (settleUp f s) = decodeView (f s) :=
  decodeView_of_kept (settleUp_parts f s) (settleUp_keptRegs f s)

/-! Writes of other registers. -/

/-- A field of an actuator's block that `decodeView` does not read. -/
def besideView (f : Field) : Bool :=
  decide (f.off < 0x1000 ∧ f.lo < 32 ∧ (f.off = CH_LAST_SECTOR_RESULT.off → f.lo ≠ CH_LAST_SECTOR_RESULT.lo) ∧
    f.off ≠ CH_RAW_CFG_FLIP_LIMIT.off)

theorem rd_wr_act_ne {f g : Field} (a b v : Nat) (s : State) (hf : f.off < 0x1000 ∧ f.lo < 32) (hg : g.off < 0x1000 ∧ g.lo < 32)
    (hne : g.off = f.off → g.lo ≠ f.lo) : rd (wr (actBase b) f v s) (actBase a) g = rd s (actBase a) g := by
  obtain ⟨hfo, hfl⟩ := hf
  obtain ⟨hgo, hgl⟩ := hg
  refine rd_wr_ne v s ?_
  by_cases hoff : g.off = f.off
  · exact fieldKey_ne_lo hfl hgl (hne hoff)
  · refine fieldKey_ne_addr hfl hgl ?_
    unfold actBase
    omega

theorem rd_wr_above {b : Nat} {f g : Field} (v : Nat) (s : State) {a : Nat} (hb : 0x130000 ≤ b) (ha : a < 48)
    (hg : g.off < 0x1000 ∧ g.lo < 32) : rd (wr b f v s) (actBase a) g = rd s (actBase a) g := by
  refine rd_wr_ne v s ?_
  have hbase : actBase a = 0x100000 + a * 0x1000 := rfl
  have := tyCode_lt (tyAt (actBase a) g)
  unfold fieldKey
  omega

theorem view_wr_act (a : Nat) {f : Field} (v : Nat) (s : State) (hf : besideView f = true) :
    decodeView (wr (actBase a) f v s) = decodeView s := by
  obtain ⟨hoff, hlo, hres, hlim⟩ := of_decide_eq_true hf
  exact decodeView_of_eq rfl rfl (fun _ _ => rd_wr_act_ne _ _ v s ⟨hoff, hlo⟩ (by decide) (fun h => (hres h.symm).symm))
    (fun _ _ => rd_wr_act_ne _ _ v s ⟨hoff, hlo⟩ (by decide) (fun h => absurd h.symm hlim))

theorem view_wr_above {b : Nat} (f : Field) (v : Nat) (s : State) (hb : 0x130000 ≤ b) :
    decodeView (wr b f v s) = decodeView s :=
  decodeView_of_eq rfl rfl (fun _ ha => rd_wr_above v s hb ha (by decide)) (fun _ ha => rd_wr_above v s hb ha (by decide))

theorem view_wr_mover (c : Nat) (f : Field) (v : Nat) (s : State) : decodeView (wr (moverBase c) f v s) = decodeView s :=
  view_wr_above f v s (by unfold moverBase; omega)

theorem view_modAct (a : Nat) (f : Act → Act) (s : State) : decodeView (modAct a f s) = decodeView s := rfl
theorem view_modChan (c : Nat) (f : Chan → Chan) (s : State) : decodeView (modChan c f s) = decodeView s := rfl
theorem view_pairAdd (x v : Nat) (s : State) : decodeView (pairAdd x v s) = decodeView s := rfl
theorem view_send (r : Response) (s : State) : decodeView (send r s) = decodeView s := rfl

theorem view_when {c : Bool} {f : State → State} {s : State} (h : decodeView (f s) = decodeView s) :
    decodeView (when c f s) = decodeView s := by
  cases c
  · rfl
  · exact h

theorem view_forEach {α : Type} (l : List α) {f : α → State → State} (h : ∀ x s, decodeView (f x s) = decodeView s) (s : State) :
    decodeView (forEach l f s) = decodeView s := by
  induction l generalizing s with
  | nil => rfl
  | cons x l ih => exact (ih (f x s)).trans (h x s)

/-! ### The decode pool's registers and a sector's result -/

theorem view_syncDecode (a : Nat) (s : State) : decodeView (syncDecode a s) = decodeView s := by
  simp (disch := decide) only [syncDecode, view_wr_act, view_wr_above]

theorem view_countResult (a code : Nat) (s : State) : decodeView (countResult a code s) = decodeView s := by
  simp only [countResult]
  repeat' split
  all_goals simp (disch := decide) only [incF, view_wr_act, view_wr_above]

theorem view_wr_result {a : Nat} (ha : a < 48) (code : Nat) (s : State) :
    decodeView (wr (actBase a) CH_LAST_SECTOR_RESULT code s) = (decodeView s).showing a code := by
  simp only [decodeView, DecodeView.showing, DecodeView.mk.injEq, wr_dec, wr_str, true_and]
  refine ⟨funext fun b => ?_, funext fun b => ?_⟩
  · by_cases hb : b = a
    · subst hb
      rw [if_pos rfl, if_pos ha, rd_wr_same]
      rfl
    · rw [if_neg hb]
      refine ite_congr rfl (fun _ => rd_wr_addr code s (by decide) (by decide) ?_) (fun _ => rfl)
      unfold actBase
      omega
  · exact ite_congr rfl (fun _ => rd_wr_act_ne _ _ _ _ (by decide) (by decide) (by decide)) (fun _ => rfl)

/-- CH_LAST_SECTOR shows the result. -/
theorem view_showSector {j : Job} (hact : j.act < 48) (code : Nat) (s : State) :
    decodeView (showSector j code s) = (decodeView s).showing j.act code := by
  simp (disch := decide) only [showSector, setF, view_wr_act, view_wr_result hact]

theorem view_runResult (a tag sector code : Nat) (s : State) : decodeView (runResult a tag sector code s) = decodeView s := rfl

theorem view_itemCode (a tag sector code : Nat) (s : State) : decodeView (itemCode a tag sector code s) = decodeView s := rfl

theorem view_mapByte (a tag sector code : Nat) (s : State) : decodeView (mapByte a tag sector code s) = decodeView s := by
  unfold mapByte
  split
  · split <;> rfl
  · rfl

theorem view_readCode (j : Job) (code : Nat) (s : State) : decodeView (readCode j code s) = decodeView s := by
  have hown (u : State) : decodeView (itemCode j.act j.tag j.sector code (mapByte j.act j.tag j.sector code
      (runResult j.act j.tag j.sector code u))) = decodeView u := by
    rw [view_itemCode, view_mapByte, view_runResult]
  simp only [readCode]
  split
  · exact hown s
  · split
    · exact (hown _).trans (view_runResult ..)
    · exact view_runResult ..

/-! A mover request that feeds the Pool. -/

theorem view_syncChan (c : Nat) (s : State) : decodeView (syncChan c s) = decodeView s := by
  unfold syncChan
  simp only
  split <;> simp (disch := decide) only [setF, view_wr_mover, view_wr_above]

theorem view_chanOutcome (c last left : Nat) (s : State) : decodeView (chanOutcome c last left s) = decodeView s := by
  unfold chanOutcome
  refine (view_when (view_send _ _)).trans ((view_when (view_wr_mover _ _ _ _)).trans ?_)
  split <;> simp only [view_wr_mover]

theorem view_ownerError (owner : Nat) (s : State) : decodeView (ownerError owner s) = decodeView s := by
  unfold ownerError
  split <;> rfl

theorem view_chanEnd (c last : Nat) (s : State) : decodeView (chanEnd c last s) = decodeView s := by
  unfold chanEnd
  split
  · rfl
  · rw [view_syncChan, view_chanOutcome, view_modChan]
    exact view_when (view_ownerError _ s)

theorem view_moverFeed (a n : Nat) (s : State) : decodeView (moverFeed a n s) = decodeView s := by
  unfold moverFeed
  split
  · rfl
  · simp only
    split
    · split
      · split
        · exact (view_chanEnd _ _ _).trans rfl
        · exact (view_syncChan _ _).trans rfl
      · rfl
    · rfl

theorem view_toPool (j : Job) (p : List Byte) (code : Nat) (s : State) : decodeView (toPool j p code s) = decodeView s := by
  unfold toPool
  split
  · split
    · refine (view_moverFeed _ _ _).trans ?_
      split <;> rfl
    · rfl
  · rfl

/-! ### Results (R111) -/

/-- A sector's result reaches no fetch where none has the TAG. -/
theorem fetchResult_none {tag : Nat} {s : State} (h : fetchOf s tag = none) (a reach slot code : Nat) (spent late : Bool) :
    fetchResult a tag reach slot code spent late s = s := by
  rw [fetchResult, h]

/-- R111: a read sector's result is shown; of an item that no fetch started, nothing else follows in the view. -/
theorem view_readResult {j : Job} {s : State} (hact : j.act < 48) (hfetch : fetchOf s j.tag = none) (code : Nat) (p : List Byte) :
    decodeView (readResult j code p s) = (decodeView s).showing j.act code := by
  have hshow : decodeView (readCode j code (syncDecode j.act (showSector j code (countResult j.act code s)))) =
      (decodeView s).showing j.act code := by
    rw [view_readCode, view_syncDecode, view_showSector hact, view_countResult]
  have hpool := (view_toPool j p code _).trans hshow
  have hnone := (fetchOf_congr (congrArg DecodeView.str hpool) j.tag).trans hfetch
  simp only [readResult, fetchResult_none hnone]
  split
  · exact hpool
  · split
    · exact hpool
    · exact hshow

theorem lanes_readResult {j : Job} {s : State} (hact : j.act < 48) (hfetch : fetchOf s j.tag = none) (code : Nat) (p : List Byte) :
    (readResult j code p s).dec.lanes = s.dec.lanes := congrArg DecodeView.lanes (view_readResult hact hfetch code p)

/-- The same after a change that left the fetches alone. -/
theorem lanes_readResult_of {j : Job} {s u : State} (hact : j.act < 48) (hfetch : fetchOf s j.tag = none) (hstr : u.str = s.str)
    (hlanes : u.dec.lanes = s.dec.lanes) (code : Nat) (p : List Byte) : (readResult j code p u).dec.lanes = s.dec.lanes :=
  (lanes_readResult hact ((fetchOf_congr hstr _).trans hfetch) code p).trans hlanes

theorem view_bump (f : Field) (was is : Bool) (s : State) : decodeView (bump f was is s) = decodeView s := by
  unfold bump
  split
  · rfl
  · exact view_wr_above f _ s (by decide)

theorem view_setEntry (a r : Nat) (e : LedEntry) (s : State) : decodeView (setEntry a r e s) = decodeView s := by
  simp only [setEntry, ledDirty]
  refine (view_wr_above _ _ _ (by decide)).trans (Eq.trans (decodeView_congr rfl rfl rfl) ((view_bump _ _ _ _).trans ?_))
  exact (view_bump _ _ _ _).trans (view_forEach _ (fun _ _ => view_bump _ _ _ _) s)

theorem view_pauseIfFull (a : Nat) (s : State) : decodeView (pauseIfFull a s) = decodeView s := by
  unfold pauseIfFull
  split
  · split
    · simp (disch := decide) only [incF, setF, view_wr_act, view_modAct]
    · rfl
  · rfl

theorem view_rewriteAdd (a reach : Nat) (w : Rewrite) (s : State) : decodeView (rewriteAdd a reach w s) = decodeView s := by
  simp (disch := decide) only [rewriteAdd, modEntry, incF, view_pauseIfFull, view_wr_act, view_modAct, view_setEntry]

theorem view_syncAct (a : Nat) (s : State) : decodeView (syncAct a s) = decodeView s := by
  simp (disch := decide) only [syncAct, setF, view_wr_act]

/-- R114: a verify job's result, of a sector written at its own slot. -/
theorem view_verifyResult {j : Job} (hact : j.act < 48) (hslot : j.slot = j.sector) (code : Nat) (s : State) :
    decodeView (verifyResult j code s) = (decodeView s).showing j.act code := by
  have hshow : decodeView (runResult j.act j.tag j.slot code (syncDecode j.act (showSector j code (countResult j.act code s)))) =
      (decodeView s).showing j.act code := by
    rw [view_runResult, view_syncDecode, view_showSector hact, view_countResult]
  simp only [verifyResult, if_pos hslot]
  split
  · exact hshow
  · rw [view_syncAct, view_rewriteAdd, hshow]

theorem view_reportWithdrawn {j : Job} (hact : j.act < 48) (s : State) :
    decodeView (reportWithdrawn j s) = (decodeView s).showing j.act 13 := by
  have hshow : decodeView (incF dpB DP_COUNTS_B_WITHDRAWN (showSector j 13 s)) = (decodeView s).showing j.act 13 :=
    (view_wr_above _ _ _ (by decide)).trans (view_showSector hact 13 s)
  simp only [reportWithdrawn]
  split
  · rw [view_syncAct, view_rewriteAdd, view_runResult, hshow]
  · rw [view_readCode, hshow]

/-! ### A sector sampled (R99) -/

theorem view_showChannel (a : Nat) (s : State) : decodeView (showChannel a s) = decodeView s := by
  simp (disch := decide) only [showChannel, view_wr_act]

theorem view_keepPath (a : Nat) (p : ReaderPath) (x : PathRead) (s : State) : decodeView (keepPath a p x s) = decodeView s := by
  cases p <;> simp (disch := decide) only [keepPath, addF, setF, view_showChannel, view_modAct, view_wr_act]

theorem view_led (l : LedgerState) (s : State) : decodeView { s with led := l } = decodeView s := rfl

theorem view_showCursor (a reach sector : Nat) (s : State) : decodeView (showCursor a reach sector s) = decodeView s := by
  unfold showCursor
  simp only
  split <;> simp (disch := decide) only [view_wr_act, view_modAct]

theorem view_kindSector (a r kind : Nat) (user : List Byte) (s : State) : decodeView (kindSector a r kind user s) = decodeView s := by
  simp only [kindSector, wpAdvance, modEntry]
  rw [view_when (view_showCursor _ _ _ _), view_setEntry, slotOut, view_send]

theorem view_journalSector (a r : Nat) (s : State) : decodeView (journalSector a r s) = decodeView s := by
  have hheader : decodeView (headerFirst a r s) = decodeView s := by
    simp only [headerFirst]
    split
    · exact view_kindSector _ _ _ _ s
    · rfl
  simp only [journalSector, journalOut]
  split
  · exact (view_kindSector _ _ _ _ _).trans ((view_led _ _).trans hheader)
  · exact hheader

theorem view_addJournal (a r : Nat) (j : JEntry) (s : State) : decodeView (addJournal a r j s) = decodeView s := by
  simp only [addJournal]
  split
  · exact (view_journalSector _ _ _).trans rfl
  · rfl

theorem view_defectAdd (d : Defect) (s : State) : decodeView (defectAdd d s) = decodeView s := by
  have hsync (u : State) : decodeView (syncDefects u) = decodeView u := by
    simp (disch := decide) only [syncDefects, ledDirty, setF, view_wr_above]
  simp only [defectAdd]
  split
  · rfl
  · split
    · exact view_wr_above _ _ s (by decide)
    · split
      · exact (view_addJournal _ _ _ _).trans ((hsync _).trans (view_led _ s))
      · exact (hsync _).trans (view_led _ s)

theorem view_noteAsperities (a reach slot : Nat) (tas : List (Nat × Nat)) (s : State) :
    decodeView (noteAsperities a reach slot tas s) = decodeView s := by
  refine view_forEach _ (fun t u => ?_) s
  simp only
  split
  · rfl
  · split
    · exact view_defectAdd _ u
    · rfl

theorem view_readTaken (a : Nat) (s : State) : decodeView (readTaken a s) = decodeView s := by
  unfold readTaken
  split
  · split
    · exact (view_showCursor _ _ _ _).trans rfl
    · rfl
  · rfl

theorem softAdd_nil (w : List Int) : softAdd w [] = w := by
  unfold softAdd
  split
  · next hw => exact hw.symm
  · exact if_pos rfl

/-- What a sampled sector of a plain read leads to: a job of the present item, in the queue where it is framed, over at once where not. -/
theorem primarySampled_read {s : State} {a : Nat} {r : SecRun} {l sl : Nat} (x : SectorIn) (chk : Option SectorIn)
    (hdual : flag s (actBase a) CH_CTL_DUAL_READ = false) (hrun : (actOf s a).run = some r) (hnext : nextRead r = some (l, sl))
    (hop : r.op = 1) (hcomb : r.combine = false) (hfree : softUsed s a < 8) :
    ∃ (j : Job) (u : State), (j.act = a ∧ j.tag = ((actOf s a).cur.getD noItem).tag ∧ j.sector = l ∧ j.slot = sl ∧ j.cls = .first) ∧
      decodeView u = decodeView s ∧
      primarySampled a x chk s =
        if (samplePath s a .primary markAt x (slotWindows r sl)).word = [] then readResult j 8 [] u
        else syncDecode a { u with dec := { u.dec with first := u.dec.first ++ [j] } } := by
  have hgo : ¬ (r.op ≠ 1 ∨ 8 ≤ softUsed s a) := by omega
  simp only [primarySampled, hrun, hnext, hdual, hcomb, if_neg hgo, Bool.false_and, Bool.false_eq_true, if_false, softAdd_nil]
  refine ⟨_, _, ⟨rfl, rfl, rfl, rfl, rfl⟩, ?_, rfl⟩
  rw [view_readTaken, view_noteAsperities, view_keepPath]

/-- R99: a sampled sector of a plain read waits for a lane where it is framed, and shows result 8 where it is not. -/
theorem sampledOp_read {s : State} {a : Nat} {r : SecRun} {l sl : Nat} (x : SectorIn) (chk : Option SectorIn) (ha : a < 48)
    (hon : flag s (actBase a) CH_CTL_PRI_ON = true) (hdual : flag s (actBase a) CH_CTL_DUAL_READ = false)
    (hrun : (actOf s a).run = some r) (hnext : nextRead r = some (l, sl)) (hop : r.op = 1) (hcomb : r.combine = false)
    (hfree : softUsed s a < 8) :
    ((samplePath s a .primary markAt x (slotWindows r sl)).word ≠ [] →
      ∃ j, (sampledOp a .primary x chk s).dec.first = s.dec.first ++ [j] ∧ j.act = a ∧ j.sector = l ∧ j.slot = sl ∧ j.cls = .first) ∧
    ((samplePath s a .primary markAt x (slotWindows r sl)).word = [] → fetchOf s ((actOf s a).cur.getD noItem).tag = none →
      rd (sampledOp a .primary x chk s) (actBase a) CH_LAST_SECTOR_RESULT = 8) := by
  obtain ⟨j, u, ⟨hact, htag, hsector, hslot, hcls⟩, hu, hsampled⟩ := primarySampled_read x chk hdual hrun hnext hop hcomb hfree
  simp only [sampledOp, hon, if_true, hsampled]
  refine ⟨fun hword => ⟨j, ?_, hact, hsector, hslot, hcls⟩, fun hword hnone => ?_⟩
  · rw [if_neg hword]
    exact congrArg (· ++ [j]) (congrArg DecodeView.first hu)
  · have hfetch : fetchOf u j.tag = none := by
      rw [fetchOf_congr (congrArg DecodeView.str hu), htag, hnone]
    rw [if_pos hword, ← result_decodeView _ ha, view_readResult (hact ▸ ha) hfetch, hact, result_showing]

/-! ### A lane becomes free (R107) -/

/-- The iterations that a first-pass or verify job is given (R106). -/
def firstBudget (s : State) (j : Job) : Nat :=
  if j.cls = .verify then rd s (actBase j.act) CH_RAW_CFG_ITER_LIMIT else rd s dpB DP_CTL_FIRST_ITER

theorem ne_nil_of_earliest {js : List Job} {j : Job} (h : earliest js = some j) : js ≠ [] := by
  rintro rfl
  cases h

/-- R107: with no deep job waiting, the lane takes the waiting job with the earliest deadline. -/
theorem laneFreeOp_dec {l : Nat} {s : State} {j : Job} (hup : bitOf (rd s dpB DP_LANE_UP_IN_SERVICE) l = true)
    (hrst : underReset s 3 l = false) (hidle : tfind s.dec.lanes l = none) (hdeep : s.dec.deep = [])
    (hj : earliest s.dec.first = some j) :
    (laneFreeOp l s).dec =
      { s.dec with first := s.dec.first.erase j, lanes := tins s.dec.lanes l { j with slice := firstBudget s j } } := by
  have hop : laneFreeOp l s = takeFirst l s := by
    simp [laneFreeOp, hup, hrst, hidle, hdeep, ne_nil_of_earliest hj]
  rw [hop, takeFirst, hj]
  rfl

/-! ### The end of a lane's job (R105, R107, R114) -/

theorem laneJob_of_tfind {s : State} {l : Nat} {j : Job} (h : tfind s.dec.lanes l = some j) : laneJob s l j.cls = some j := by
  simp [laneJob, h]

/-- The lane is empty; the job keeps what a result depends on. -/
theorem view_laneEnds (l : Nat) (j : Job) (s : State) :
    decodeView (laneEnds l j s).2 = { decodeView s with lanes := tdel s.dec.lanes l } :=
  (view_pairAdd _ _ _).trans ((view_syncDecode _ _).trans rfl)

theorem idle_of_lanes {l : Nat} {s t : State} (h : t.dec.lanes = tdel s.dec.lanes l) : tfind t.dec.lanes l = none := by
  rw [h, tfind_tdel_same]

theorem payloadCode_laneEnds (l : Nat) (j : Job) (s : State) (p : List Byte) :
    payloadCode (laneEnds l j s).2 (laneEnds l j s).1 p = payloadCode s j p := rfl

theorem verifyCode_laneEnds {j : Job} (hact : j.act < 48) (l : Nat) (s : State) (d : Decoded) :
    verifyCode (laneEnds l j s).2 (laneEnds l j s).1 d = verifyCode s j d := by
  have hlimit : rd (laneEnds l j s).2 (actBase (laneEnds l j s).1.act) CH_RAW_CFG_FLIP_LIMIT =
      rd s (actBase j.act) CH_RAW_CFG_FLIP_LIMIT := by
    rw [← flipLimit_decodeView s hact]
    exact (flipLimit_decodeView _ hact).symm.trans (congrFun (congrArg DecodeView.flipLimit (view_laneEnds l j s)) j.act)
  rw [verifyCode, payloadCode_laneEnds, hlimit]
  rfl

theorem view_countWord (j : Job) (s : State) : decodeView (countWord j s) = decodeView s :=
  (view_wr_act _ _ _ (by decide)).trans rfl

theorem view_readConverged {j : Job} {s : State} (hact : j.act < 48) (hfetch : fetchOf s j.tag = none) (d : Decoded) :
    decodeView (readConverged j d s) =
      (decodeView s).showing j.act (if payloadCode s j d.payload = 0 then okCode j else payloadCode s j d.payload) := by
  rw [readConverged, view_readResult hact ((fetchOf_congr (congrArg DecodeView.str (view_countWord j s)) _).trans hfetch),
    view_countWord]

theorem okCode_lt (j : Job) : okCode j < 16 := by
  unfold okCode
  repeat' split
  all_goals decide

/-- How a read job's slice or budget ends, where `fails` follows one that neither converged nor was withdrawn. -/
def readJobEnds (fails : Job → State → State) (l : Nat) (j : Job) (s : State) : State :=
  if (jobDecode j).converged then readConverged (laneEnds l j s).1 (jobDecode j) (laneEnds l j s).2
  else if j.withdrawn then reportWithdrawn (laneEnds l j s).1 (laneEnds l j s).2
  else fails (laneEnds l j s).1 (laneEnds l j s).2

/-- No lane starts or ends a job in `fails`, on a job of an item that no fetch started. -/
def keepsLanes (fails : Job → State → State) : Prop :=
  ∀ j s, j.act < 48 → fetchOf s j.tag = none → (fails j s).dec.lanes = s.dec.lanes

/-- The lane is left empty, and a good sector shows the code of its path. -/
theorem readJobEnds_spec {fails : Job → State → State} (hfails : keepsLanes fails) (l : Nat) {j : Job} {s : State}
    (hact : j.act < 48) (hfetch : fetchOf s j.tag = none) :
    tfind (readJobEnds fails l j s).dec.lanes l = none ∧
      ((jobDecode j).converged = true → payloadCode s j (jobDecode j).payload = 0 →
        rd (readJobEnds fails l j s) (actBase j.act) CH_LAST_SECTOR_RESULT = okCode j) := by
  have hview := view_laneEnds l j s
  have hnone : fetchOf (laneEnds l j s).2 (laneEnds l j s).1.tag = none :=
    (fetchOf_congr (congrArg DecodeView.str hview) j.tag).trans hfetch
  have hconv := view_readConverged (j := (laneEnds l j s).1) hact hnone (jobDecode j)
  constructor
  · unfold readJobEnds
    split
    · exact idle_of_lanes (congrArg DecodeView.lanes hconv)
    · split
      · exact idle_of_lanes (congrArg DecodeView.lanes (view_reportWithdrawn (j := (laneEnds l j s).1) hact _))
      · exact idle_of_lanes (hfails (laneEnds l j s).1 _ hact hnone)
  · intro hc hgood
    rw [payloadCode_laneEnds, if_pos hgood] at hconv
    rw [readJobEnds, if_pos hc, ← result_decodeView _ hact, hconv]
    exact (result_showing _ _ _).trans (Nat.mod_eq_of_lt (okCode_lt j))

/-- R107: a first-pass job that fails is framed afresh, goes deep, or ends with a result. -/
theorem keepsLanes_firstFails : keepsLanes firstFails := by
  intro j s hact hfetch
  simp only [firstFails]
  split
  · rfl
  · split
    · rfl
    · split
      · exact lanes_readResult hact hfetch _ _
      · refine lanes_readResult_of hact hfetch ?_ ?_ _ _ <;> rfl

theorem firstEndOp_eq {l : Nat} {j : Job} {s : State} (hj : tfind s.dec.lanes l = some j) (hcls : j.cls = .first) :
    firstEndOp l none s = readJobEnds firstFails l j s := by
  rw [firstEndOp, ← hcls, laneJob_of_tfind hj]
  rfl

/-- What follows a deep slice that neither converged nor was withdrawn (R107, R110). -/
def deepFails (j : Job) (s : State) : State :=
  if rd s dpB DP_CTL_DEEP_ITER ≤ j.budget then
    let s := countWord j (incF dpB DP_COUNTS_A_DEEP_EXHAUSTED s)
    if j.combine then combineFails j s else readResult j 9 [] s
  else syncDecode j.act { s with dec := { s.dec with deep := s.dec.deep ++ [j] } }

theorem deepEndOp_eq {l : Nat} {j : Job} {s : State} (hj : tfind s.dec.lanes l = some j) (hcls : j.cls = .deep) :
    deepEndOp l none s = readJobEnds deepFails l j s := by
  rw [deepEndOp, ← hcls, laneJob_of_tfind hj]
  rfl

theorem lanes_combineFails {j : Job} {s : State} (hact : j.act < 48) (hfetch : fetchOf s j.tag = none) :
    (combineFails j s).dec.lanes = s.dec.lanes := by
  simp only [combineFails]
  split
  · refine lanes_readResult_of hact hfetch ?_ ?_ _ _ <;> rfl
  · refine lanes_readResult_of hact hfetch ?_ ?_ _ _ <;> rfl

theorem keepsLanes_deepFails : keepsLanes deepFails := by
  intro j s hact hfetch
  have hcombine (u : State) (hstr : u.str = s.str) (hlanes : u.dec.lanes = s.dec.lanes) :
      (combineFails j u).dec.lanes = s.dec.lanes :=
    (lanes_combineFails hact ((fetchOf_congr hstr _).trans hfetch)).trans hlanes
  simp only [deepFails]
  split
  · split
    · exact hcombine _ rfl rfl
    · refine lanes_readResult_of hact hfetch ?_ ?_ _ _ <;> rfl
  · rfl

/-- R114: a verify job ends with its result, but where it was withdrawn and did not converge. -/
theorem verifyEndOp_eq {l : Nat} {j : Job} {s : State} (hj : tfind s.dec.lanes l = some j) (hcls : j.cls = .verify) :
    verifyEndOp l none s =
      if !(jobDecode j).converged && j.withdrawn then reportWithdrawn (laneEnds l j s).1 (laneEnds l j s).2
      else verifyResult (laneEnds l j s).1 (verifyCode (laneEnds l j s).2 (laneEnds l j s).1 (jobDecode j))
        (countWord (laneEnds l j s).1 (laneEnds l j s).2) := by
  rw [verifyEndOp, ← hcls, laneJob_of_tfind hj]
  rfl

theorem converged_of_verifyCode {s : State} {j : Job} {d : Decoded} (h : verifyCode s j d = 0) : d.converged = true := by
  cases hc : d.converged with
  | true => rfl
  | false => simp [verifyCode, hc] at h

/-- The lane is left empty, and a sector written well shows 0. -/
theorem verifyEndOp_spec {l : Nat} {j : Job} {s : State} (hj : tfind s.dec.lanes l = some j) (hcls : j.cls = .verify)
    (hact : j.act < 48) (hslot : j.slot = j.sector) :
    tfind (verifyEndOp l none s).dec.lanes l = none ∧
      (verifyCode s j (jobDecode j) = 0 → rd (verifyEndOp l none s) (actBase j.act) CH_LAST_SECTOR_RESULT = 0) := by
  have hresult := view_verifyResult (j := (laneEnds l j s).1) hact hslot (verifyCode s j (jobDecode j))
    (countWord (laneEnds l j s).1 (laneEnds l j s).2)
  rw [view_countWord] at hresult
  rw [verifyEndOp_eq hj hcls, verifyCode_laneEnds hact]
  constructor
  · split
    · exact idle_of_lanes (congrArg DecodeView.lanes (view_reportWithdrawn (j := (laneEnds l j s).1) hact _))
    · exact idle_of_lanes (congrArg DecodeView.lanes hresult)
  · intro hcode
    rw [converged_of_verifyCode hcode, ← result_decodeView _ hact]
    exact (congrFun (congrArg DecodeView.result hresult) j.act).trans ((result_showing _ _ _).trans (by rw [hcode]))

/-! ### DP_LANE_EN and DP_CTL -/

theorem findReg_dpLaneEn : findReg 0x140004 = some (dpB, ⟨0x4, 1, 0, [DP_LANE_EN_ENABLE]⟩) := by decide

theorem findReg_dpCtl : findReg 0x140000 = some (dpB, ⟨0x0, 1, 0,
    [DP_CTL_FIRST_ITER, DP_CTL_DEEP_ITER, DP_CTL_DEEP_LANES, DP_CTL_DEEP_FLOOR, DP_CTL_COMBINE_MAX]⟩) := by decide

theorem plainWrite_dpLaneEn (v : Nat) (s : State) :
    plainWrite 0x140004 v s = wr dpB DP_LANE_EN_ENABLE (min 0xFFFFFF (v % 2 ^ 24)) s := by
  rw [plainWrite, findReg_dpLaneEn, ← clampTo_zero]
  simp [writeFields, writeField, DP_LANE_EN_ENABLE, bitsOf]

theorem laneEnOp_enable (v : Nat) (s : State) : rd (laneEnOp v s) dpB DP_LANE_EN_ENABLE = v % 2 ^ 24 := by
  have hfit : min 0xFFFFFF (v % 2 ^ 24) % 2 ^ 24 = v % 2 ^ 24 := by omega
  rw [laneEnOp, plainWrite_dpLaneEn]
  simp only [syncLanes]
  rw [rd_wr_ne _ _ (by decide), rd_wr_ne _ _ (by decide), rd_wr_ne _ _ (by decide), rd_wr_same]
  exact hfit

/-- A write of DP_CTL sets its five fields at the nearer limit, before the dependent limits. -/
theorem plainWrite_dpCtl (v : Nat) (s : State) :
    plainWrite 0x140000 v s =
      wr dpB DP_CTL_COMBINE_MAX (clampTo 1 8 (v / 2 ^ 28 % 16)) (wr dpB DP_CTL_DEEP_FLOOR (clampTo 0 12 (v / 2 ^ 24 % 16))
        (wr dpB DP_CTL_DEEP_LANES (clampTo 0 12 (v / 2 ^ 16 % 32)) (wr dpB DP_CTL_DEEP_ITER (clampTo 4 200 (v / 2 ^ 8 % 256))
          (wr dpB DP_CTL_FIRST_ITER (clampTo 4 64 (v % 256)) s)))) := by
  rw [plainWrite, findReg_dpCtl]
  simp [writeFields, writeField, DP_CTL_FIRST_ITER, DP_CTL_DEEP_ITER, DP_CTL_DEEP_LANES, DP_CTL_DEEP_FLOOR, DP_CTL_COMBINE_MAX, bitsOf]

/-- No rule ignores a write of DP_CTL. -/
theorem checkedWrite_dpCtl (p : Path) (v : Nat) (s : State) :
    checkedWrite p 0x140000 v s = dpNormalize 0x140000 (plainWrite 0x140000 v s) := rfl

theorem clampTo_fits {mn mx n : Nat} (hle : mn ≤ mx) (hlt : mx < 2 ^ n) (v : Nat) : clampTo mn mx v % 2 ^ n = clampTo mn mx v :=
  Nat.mod_eq_of_lt (Nat.lt_of_le_of_lt (clampTo_le hle v) hlt)

/-- DEEP_ITER is at least FIRST_ITER; both and COMBINE_MAX are stored at the nearer limit. -/
theorem dpCtlWrite_fields (p : Path) (v : Nat) (s : State) :
    rd (checkedWrite p 0x140000 v s) dpB DP_CTL_FIRST_ITER = clampTo 4 64 (v % 256) ∧
      rd (checkedWrite p 0x140000 v s) dpB DP_CTL_DEEP_ITER =
        max (clampTo 4 64 (v % 256)) (clampTo 4 200 (v / 2 ^ 8 % 256)) ∧
      rd (checkedWrite p 0x140000 v s) dpB DP_CTL_COMBINE_MAX = clampTo 1 8 (v / 2 ^ 28 % 16) := by
  have hfirst : rd (plainWrite 0x140000 v s) dpB DP_CTL_FIRST_ITER = clampTo 4 64 (v % 256) := by
    rw [plainWrite_dpCtl, rd_wr_ne _ _ (by decide), rd_wr_ne _ _ (by decide), rd_wr_ne _ _ (by decide), rd_wr_ne _ _ (by decide),
      rd_wr_same]
    exact clampTo_fits (by decide) (by decide) _
  have hdeep : rd (plainWrite 0x140000 v s) dpB DP_CTL_DEEP_ITER = clampTo 4 200 (v / 2 ^ 8 % 256) := by
    rw [plainWrite_dpCtl, rd_wr_ne _ _ (by decide), rd_wr_ne _ _ (by decide), rd_wr_ne _ _ (by decide), rd_wr_same]
    exact clampTo_fits (by decide) (by decide) _
  have hmax : rd (plainWrite 0x140000 v s) dpB DP_CTL_COMBINE_MAX = clampTo 1 8 (v / 2 ^ 28 % 16) := by
    rw [plainWrite_dpCtl, rd_wr_same]
    exact clampTo_fits (by decide) (by decide) _
  simp only [checkedWrite_dpCtl, dpNormalize, if_true]
  refine ⟨?_, ?_, ?_⟩
  · rw [rd_wr_ne _ _ (by decide), rd_wr_ne _ _ (by decide), hfirst]
  · rw [rd_wr_ne _ _ (by decide), rd_wr_same, hfirst, hdeep]
    have hle1 : clampTo 4 64 (v % 256) ≤ 64 := clampTo_le (by decide) _
    have hle2 : clampTo 4 200 (v / 2 ^ 8 % 256) ≤ 200 := clampTo_le (by decide) _
    exact Nat.mod_eq_of_lt (Nat.lt_of_le_of_lt (Nat.max_le.2 ⟨Nat.le_trans hle1 (by decide), hle2⟩) (by decide))
  · rw [rd_wr_ne _ _ (by decide), rd_wr_ne _ _ (by decide), hmax]

/-! ### The outcomes -/

theorem settleUp_dec (f : State → State) (s : State) : (settleUp f s).dec = (f s).dec :=
  kept_mem (p := .dec) (settleUp_parts f s) (by decide)

theorem lane_settleUp (f : State → State) (s : State) (l : Nat) :
    tfind (settleUp f s).dec.lanes l = tfind (f s).dec.lanes l := by
  rw [settleUp_dec]

theorem result_settleUp (f : State → State) (s : State) {a : Nat} (ha : a < 48) :
    rd (settleUp f s) (actBase a) CH_LAST_SECTOR_RESULT = rd (f s) (actBase a) CH_LAST_SECTOR_RESULT := by
  rw [← result_decodeView _ ha, decodeView_settleUp, result_decodeView _ ha]

/-- A field of the decode block reads after the command as after its own effect. -/
theorem rd_decode_settleUp (f : State → State) (s : State) (x : Field)
    (hx : x.lo < 32 ∧ svcReg (dpB + x.off) x.lo = false := by decide) : rd (settleUp f s) dpB x = rd (f s) dpB x :=
  rd_settleUp f s hx.1 hx.2

/-- Settles O15: each clause is what the command's own operation does to the queues, the lanes and the result shown, which bringing
GLB_SERVICE up to date leaves. -/
theorem decodePool : Obligations.DecodePool := by
  intro s
  refine ⟨fun a x chk r l sl hlive hon hdual hrun hnext hop hcomb hfree => ?sampled, fun l j hlive hup hrst hidle hdeep hj => ?free,
    fun l j hlive hj hcls hact hfetch => ?first, fun l j hlive hj hcls hact hfetch => ?deep,
    fun l j hlive hj hcls hact hslot => ?verify, fun p v hf hl => ?laneEn, fun p v hf hl => ?dpCtl⟩
  case sampled =>
    obtain ⟨hframed, hlost⟩ := sampledOp_read x chk a.isLt hon hdual hrun hnext hop hcomb hfree
    refine ⟨_, run_live hlive _, fun hword => ?_, fun hword hnone => (result_settleUp _ s a.isLt).trans (hlost hword hnone)⟩
    rw [settleUp_dec]
    exact hframed hword
  case free =>
    refine ⟨_, run_live hlive _, ?_⟩
    rw [settleUp_dec, laneFreeOp_dec hup hrst hidle hdeep hj, tfind_tins_same]
    exact ⟨rfl, rfl⟩
  case first =>
    obtain ⟨hempty, hgood⟩ := readJobEnds_spec keepsLanes_firstFails l.val hact hfetch
    rw [← firstEndOp_eq hj hcls] at hempty hgood
    exact ⟨_, run_live hlive _, (lane_settleUp _ s _).trans hempty,
      fun hc hp => (result_settleUp _ s hact).trans (hgood hc hp)⟩
  case deep =>
    obtain ⟨hempty, hgood⟩ := readJobEnds_spec keepsLanes_deepFails l.val hact hfetch
    rw [← deepEndOp_eq hj hcls] at hempty hgood
    exact ⟨_, run_live hlive _, (lane_settleUp _ s _).trans hempty,
      fun hc hp => (result_settleUp _ s hact).trans (hgood hc hp)⟩
  case verify =>
    obtain ⟨hempty, hgood⟩ := verifyEndOp_spec hj hcls hact hslot
    exact ⟨_, run_live hlive _, (lane_settleUp _ s _).trans hempty,
      fun hcode => (result_settleUp _ s hact).trans (hgood hcode)⟩
  case laneEn => exact ⟨_, runWrite_accepted _ _ (by decide) hf hl, (rd_decode_settleUp _ s _).trans (laneEnOp_enable _ s)⟩
  case dpCtl =>
    obtain ⟨hfirst, hdeep, hmax⟩ := dpCtlWrite_fields p v.toNat s
    exact ⟨_, runWrite_accepted _ _ (by decide) hf hl, (rd_decode_settleUp _ s _).trans hfirst,
      (rd_decode_settleUp _ s _).trans hdeep, (rd_decode_settleUp _ s _).trans hmax⟩

end Sys2Proof.Machine
